-- ==== Sys2Proof/Machine/RegTypes.lean ====
section
/-! DEFINITION. Sys2Proof/Machine/RegTypes.lean: the pages of the device, their place in the address space, and the shape
of a register table's row (R6, R14 to R16, R34, R35, R40). -/
namespace Sys2Proof

/-- A register page: a block page, a region page, the chip page, or one of the four guest pages of a function. -/
inductive Page where
  | chip | clkrst | pwrmon | fuse | boot | flash | debug | ledger
  | region (r : Nat)
  | port (n : Nat) | mgmt | porter | align | egress | timeu | redun
  | keyring | crypto | check
  | exb (n : Nat) | pcache (n : Nat)
  | dramc (n : Nat) | point | courier | hostif
  | adc | filt | acq
  | hinge | role
  | guest (g p : Nat)
deriving DecidableEq, Repr

/-- Who sends a register access: the physical function, a guest's own function, the debug port, the BOOT sequencer
(R50). -/
inductive Src where
  | pf | fn (g : Nat) | debug | boot
deriving DecidableEq, Repr

namespace Machine

/-- The access codes of R6. -/
inductive Acc where
  | ro | rw | rwc | wo | w1c | w1s
deriving DecidableEq, Repr

/-- A field of a register: bits [hi:lo], its access and its reset value. -/
structure Fld where
  hi : Nat
  lo : Nat
  acc : Acc
  rst : Nat
deriving DecidableEq, Repr

/-- A register, or `count` registers of one shape `stride` bytes apart. Bits no field names are reserved (R7). -/
structure RegRow where
  first : Nat
  count : Nat
  stride : Nat
  flds : List Fld
deriving DecidableEq, Repr

end Machine
end Sys2Proof
end

