-- ==== Sys2Proof/Machine/Table.lean ====
section
/-! DEFINITION. Sys2Proof/Machine/Table.lean: sparse tables in one canonical form. A table is a list of (key, value) pairs
with strictly rising keys that lists no entry equal to what an unlisted key reads as. Memory (`Host.Cell` pairs), the
register file and every indexed store of the model are such tables. -/
namespace Sys2Proof.Machine

/-- A sparse table from numbers to values. -/
abbrev Tbl (α : Type) := List (Nat × α)

/-- The entry at a key, where `d` is what an unlisted key reads as. -/
def Tbl.get {α : Type} (d : α) (k : Nat) : Tbl α → α
  | [] => d
  | (i, v) :: t => if i = k then v else Tbl.get d k t

/-- The entry at a key, if the table lists one. -/
def Tbl.look {α : Type} (k : Nat) : Tbl α → Option α
  | [] => none
  | (i, v) :: t => if i = k then some v else Tbl.look k t

/-- Put an entry at its place, replacing an entry of the same key. (DESIGN CHOICE, log 2). -/
def Tbl.put {α : Type} (k : Nat) (v : α) : Tbl α → Tbl α
  | [] => [(k, v)]
  | (i, w) :: t => if k < i then (k, v) :: (i, w) :: t else if k = i then (k, v) :: t else (i, w) :: Tbl.put k v t

/-- Remove the entry of a key. -/
def Tbl.del {α : Type} (k : Nat) : Tbl α → Tbl α
  | [] => []
  | (i, w) :: t => if i = k then Tbl.del k t else (i, w) :: Tbl.del k t

/-- Write a key in the canonical form: a value equal to the default removes the entry. -/
def Tbl.set {α : Type} [DecidableEq α] (d : α) (k : Nat) (v : α) (t : Tbl α) : Tbl α :=
  if v = d then Tbl.del k t else Tbl.put k v t

/-- Change the listed entries; one that becomes the default is listed no more. -/
def Tbl.change {α : Type} [DecidableEq α] (d : α) (f : Nat → α → α) (t : Tbl α) : Tbl α :=
  (t.map (fun e => (e.1, f e.1 e.2))).filter (fun e => decide (e.2 ≠ d))

/-- Keep the entries whose key passes. -/
def Tbl.keep {α : Type} (p : Nat → Bool) (t : Tbl α) : Tbl α := t.filter (fun e => p e.1)

/-- Strictly rising keys, every key above `lo`. -/
def Tbl.sortedAbove {α : Type} (lo : Option Nat) : Tbl α → Bool
  | [] => true
  | (i, _) :: t => (match lo with | none => true | some l => decide (l < i)) && Tbl.sortedAbove (some i) t

/-- The canonical form, where `d` gives what each unlisted key reads as. -/
def Tbl.wf {α : Type} [DecidableEq α] (d : Nat → α) (t : Tbl α) : Bool :=
  Tbl.sortedAbove none t && t.all (fun e => decide (e.2 ≠ d e.1))

end Sys2Proof.Machine
end

