-- ==== Sys2Proof/Word.lean ====
section
/-! DEFINITION. Sys2Proof/Word.lean: the machine words of the spec (registers of 32 bits, points and general registers of 64
bits, bytes) and the plainest conversions between them. -/
namespace Sys2Proof

/-- A 32-bit register or command word (R34). -/
abbrev Word := BitVec 32
/-- A 64-bit value: a point (R32), a general register (R229). -/
abbrev DWord := BitVec 64
/-- One byte of DRAM, SRAM, flash or a frame. -/
abbrev Byte := BitVec 8

/-- Bits [hi:lo] of a register word, as a number. -/
def bits (w : Word) (hi lo : Nat) : Nat := (w.toNat >>> lo) % 2 ^ (hi + 1 - lo)

/-- One bit of a register word. -/
def bit (w : Word) (i : Nat) : Bool := w.getLsbD i

/-- The word `w` with bits [hi:lo] replaced by `v` (taken modulo the field's width). -/
def setBits (w : Word) (hi lo v : Nat) : Word :=
  let m := (2 ^ (hi + 1 - lo) - 1) <<< lo
  (w &&& ~~~(BitVec.ofNat 32 m)) ||| BitVec.ofNat 32 ((v % 2 ^ (hi + 1 - lo)) <<< lo)

/-- The word `w` with bit `i` set to `b`. -/
def setBit (w : Word) (i : Nat) (b : Bool) : Word := setBits w i i b.toNat

/-- A Boolean as 0 or 1. -/
def b2n (b : Bool) : Nat := if b then 1 else 0

/-- A number read as a signed value of `n` bits. -/
def signed (n v : Nat) : Int :=
  let v := v % 2 ^ n
  if v < 2 ^ (n - 1) then (v : Int) else (v : Int) - 2 ^ n

/-- A signed value as a number of `n` bits, two's complement. -/
def unsigned (n : Nat) (v : Int) : Nat := (v % (2 ^ n : Int)).toNat

/-- The bytes of a number, least significant first (R5). -/
def leBytes : Nat → Nat → List Byte
  | 0, _ => []
  | n + 1, v => BitVec.ofNat 8 v :: leBytes n (v / 256)

/-- The number that bytes spell, least significant first (R5). -/
def ofLe : List Byte → Nat
  | [] => 0
  | b :: t => b.toNat + 256 * ofLe t

/-- The bytes of a number, most significant first (network order, R5). -/
def beBytes (n v : Nat) : List Byte := (leBytes n v).reverse

/-- The number that bytes spell, most significant first. -/
def ofBe (l : List Byte) : Nat := ofLe l.reverse

/-- Ceiling division of naturals. -/
def ceilDiv (a b : Nat) : Nat := (a + b - 1) / b

/-- A counter that saturates at a maximum. -/
def satAdd (mx a b : Nat) : Nat := min mx (a + b)

end Sys2Proof
end

