-- ==== Sys2Proof/Machine/Types.lean ====
section
/-! DEFINITION. Sys2Proof/Machine/Types.lean: the shapes of the state that the blocks hold outside their registers, block by
block, and of what they send. -/
namespace Sys2Proof.Machine

/-! ### Operating modes, roles (R261, R291) -/

/-- The eight operating modes, in the order of their codes (R261). -/
inductive Mode where
  | boot | configure | coldStandby | resync | hotStandby | active | test | safe
deriving DecidableEq, Repr

/-! ### Ledger (R365 to R382) -/

/-- A Ledger record before it is written: code, guest, emitting unit, time, payload; `supp` is the suppressed count it
carries (R367). -/
structure LRec where
  code : Nat
  guest : Nat
  source : Nat
  ts : Nat
  gen : Nat
  payload : List Byte
  supp : Nat
deriving DecidableEq, Repr

/-- A record or filler standing in the ring. -/
structure RingEnt where
  seq : Nat
  ofs : Nat
  len : Nat
  guest : Nat
  filler : Bool
deriving DecidableEq, Repr

/-- A code's token bucket (R372): `level` in units of 1/(10^9 × 2^32) token, at elapsed local time `at_`. -/
structure Bucket where
  level : Nat
  at_ : Nat
deriving DecidableEq, Repr

/-- A cell's histogram of one metric (R381). Times are in 0.25 ns; `gen` counts the clears that a soft reset of the cell's
block made, beside those of LedgerSt.gens. (DEDUCED, log 93). -/
structure Hist where
  gen : Nat := 0
  count : Nat := 0
  sum : Nat := 0
  mn : Nat := 0xFFFF_FFFF
  mx : Nat := 0
  mnT : Nat := 0
  mxT : Nat := 0
  bins : Tbl Nat := []
deriving DecidableEq, Repr

/-- A clear in progress (R378): its token, the code of steps 1 to 7 (0 where they pass), and its tag job: deadline, arrival number in
the CRYPTO pool, and the engine that took its key with what the tag then comes to. -/
structure ClrSt where
  token : List Byte
  code : Nat := 0
  deadline : Nat := 0
  id : Nat := 0
  engine : Option Nat := none
  pass : Bool := false
  /-- Its slot was revoked while the engine ran (R349). -/
  revoked : Bool := false
deriving DecidableEq, Repr

/-- The Ledger's state outside its registers. -/
structure LedgerSt where
  running : Bool := false
  started : Bool := false
  own : List LRec := []
  ingest : List LRec := []
  keptWait : List LRec := []
  headSeq : Nat := 0
  headOfs : Nat := 0
  tailOfs : Nat := 0
  idx : List RingEnt := []
  buckets : Tbl Bucket := []
  pendingCnt : Tbl Nat := []
  codeCfg : Tbl Word := []
  clr : Option ClrSt := none
  epochHi : Nat := 0
  /-- LG_TOKEN as written (R378); `clr` holds the token of a check in progress. -/
  token : Tbl Word := []
  /-- Histograms by unit and metric, and the clears of each metric in every cell since chip reset (R381, R382). -/
  hists : Tbl Hist := []
  gens : Tbl Nat := []
deriving DecidableEq, Repr

/-- A CRC engine of CHECK: the running scan, and the state its previous scan left. -/
structure ScanSt where
  busy : Bool := false
  addr : Nat := 0
  len : Nat := 0
  cont : Bool := false
  poly : Nat := 1
  prev : Option (Nat × Nat) := none
deriving DecidableEq, Repr

/-! ### Time Unit (R71 to R102) -/

/-- Synchronisation state (R82). -/
inductive Sync where
  | free | locked | holdover
deriving DecidableEq, Repr

/-- A step command accepted and not yet applied (R77): absolute or offset, forced, and its two registers. -/
structure StepJob where
  abs : Bool
  force : Bool
  secs : Nat
  ns : Int
deriving DecidableEq, Repr

/-- A capture entry (R94, R101); `time` in units of 0.25 ns. -/
structure CapEntry where
  time : Nat
  loss : Bool
  gen : Nat
  rise : Bool
  src : Nat
  seq : Nat
deriving DecidableEq, Repr

/-- A transmit timestamp entry (R91, R102); `time` in units of 0.25 ns. -/
structure TxtsEntry where
  time : Nat
  inserted : Bool
  msgType : Nat
  status : Nat
  domain : Nat
  seqId : Nat
deriving DecidableEq, Repr

/-- A scheduled output entry (R95); `time` in units of 0.25 ns. -/
structure SchEntry where
  pin : Nat
  time : Nat
  level : Bool
deriving DecidableEq, Repr

/-- A stored two-step correction (R92). -/
structure TcEntry where
  key : Nat
  value : Int
deriving DecidableEq, Repr

/-- The Time Unit's state outside its registers. `clock` is the local time in units of 2^-32 ns since second 0, modulo
2^48 s (R71); `elapsed` is the local time counted without steps (R82). (DEDUCED, log 33). -/
structure TimeSt where
  clock : Nat := 0
  elapsed : Nat := 0
  slewPend : Int := 0
  job : Option StepJob := none
  stepGen : Nat := 0
  sync : Sync := .free
  syncSince : Nat := 0
  capFifo : List CapEntry := []
  capSeq : Nat := 0
  capLoss : Bool := false
  txts : Tbl (List TxtsEntry) := []
  sched : List SchEntry := []
  /-- What a TIO pin in scheduled output mode drives: 1 low, 2 high; 0 for a pin that drives nothing. -/
  tio : Tbl Nat := []
  pps : Bool := false
  /-- The elapsed local time at which PPS_OUT rose (R96). -/
  ppsAt : Nat := 0
  /-- CLK_TIME edges since the latest CLK_REG edge, 0 to 3 (R454). -/
  phase : Nat := 0
  /-- A report arrived in the CLK_REG cycle in progress (R82, R98). -/
  reported : Bool := false
  /-- Pins (32 is PPS_IN) whose configuration was written since the latest edge (R93). -/
  cfgWait : List Nat := []
  /-- Each pin's configurations in force, newest first, with the elapsed time of the edge each took effect at (R93). -/
  pinCfg : Tbl (List (Nat × Word)) := []
  /-- The latest applied steps, newest first: the elapsed time of each and what it added to the clock (R94, R98). -/
  steps : List (Nat × Int) := []
  tcTable : List TcEntry := []
deriving DecidableEq, Repr

/-! ### Execution cells (R195 to R203, R229) -/

/-- What an execution cell does: idle outside an execute window, running, waiting in a barrier, finished by END, or
stopped by a program fault. -/
inductive Run where
  | idle | running | barrier | finished | stopped
deriving DecidableEq, Repr

/-- An execution cell (R229) with its memories (R195), the position it takes in its guest, its read-only input area
(R226), and where its issue stands. `cyc` is the cycle counter; `lastPc` the address of the word issued last in this
window. -/
structure Cell where
  guest : Nat := 0
  pos : Nat := 0
  g : Tbl DWord := []
  v : Tbl (BitVec 512) := []
  pc : Nat := 0
  fps : Nat := 0
  isram : Tbl Byte := []
  dsram : Tbl Byte := []
  dirty : Tbl Bool := []
  inLo : Nat := 0
  inHi : Nat := 0
  run : Run := .idle
  cyc : Nat := 0
  endCyc : Nat := 0
  endTime : Nat := 0
  lastPc : Option Nat := none
deriving DecidableEq, Repr

/-! ### Guests (R224 to R254) -/

/-- Guest states other than EMPTY (R218, R242). -/
inductive GState where
  | loaded | running | stopped | halted
deriving DecidableEq, Repr

/-- Where a guest stands in its cycle (R202). -/
inductive GPhase where
  | idle | freeze | execute | commit
deriving DecidableEq, Repr

/-- An output list entry (R227). -/
structure OutEnt where
  point : Nat
  qw : Bool
  cell : Nat
  ofs : Nat
deriving DecidableEq, Repr

/-- A retained map entry (R241). -/
structure RetEnt where
  rid : Nat
  cell : Nat
  kind : Nat
  ofs : Nat
  len : Nat
deriving DecidableEq, Repr

/-- A patch map entry (R246). -/
structure PatchEnt where
  item : Nat
  cell : Nat
  kind : Nat
  ofs : Nat
  width : Nat
deriving DecidableEq, Repr

/-- An initial data section of a position (R225). -/
structure DataSect where
  cell : Nat
  target : Nat
  bytes : List Byte
deriving DecidableEq, Repr

/-- An input list of a position: its target offset and its points (R225, R226). -/
structure InputSect where
  cell : Nat
  target : Nat
  points : List Nat
deriving DecidableEq, Repr

/-- A parsed cycle image (R224 to R227, R241, R246). -/
structure Image where
  n : Nat
  cells : Nat
  budget : Nat
  xch : Nat
  build : Nat
  len : Nat
  code : List (Nat × List Byte)
  data : List DataSect
  inputs : List InputSect
  outs : List OutEnt
  safes : List DWord
  rets : List RetEnt
  patches : List PatchEnt
deriving DecidableEq, Repr

/-- A 64-byte line of a guest as the mirror carries it (R258): position, exchange flag, line number, bytes. -/
structure MLine where
  pos : Nat
  xch : Bool
  line : Nat
  bytes : List Byte
deriving DecidableEq, Repr

/-- A pending restart (R245, R249): WARM or COLD, and the absolute tick from which the guest may start. -/
structure Restart where
  warm : Bool
  tick : Nat
deriving DecidableEq, Repr

/-- What the standby holds of a cycle of a guest from the active (R272, R273). -/
structure MirrorRx where
  s : Nat
  c : Nat
  image : Tbl DWord := []
  verdict : Option Nat := none
  lines : List MLine := []
  /-- LINES frames received. -/
  frames : Nat := 0
  linesDone : Bool := false
  sync : Nat := 0
  digest : Option Nat := none
deriving DecidableEq, Repr

/-- A loaded guest. -/
structure Guest where
  exb : Nat
  mask : Nat
  img : Image
  st : GState
  haltCause : Nat := 0
  haltC : Nat := 0
  /-- RUN_PEND with the restart its command asked for; `some true` is WARM (R245). -/
  runPend : Option Bool := none
  restart : Option Restart := none
  exchanged : Bool := false
  stopReq : Bool := false
  safeDue : Bool := true
  phase : GPhase := .idle
  cycS : Nat := 0
  cycC : Nat := 0
  cycLen : Nat := 0
  first : Bool := false
  stepped : Bool := false
  /-- The class tick of the commit point of the cycle in progress (R202), and whether a step lengthened the cycle (R80). -/
  cpTick : Nat := 0
  longer : Bool := false
  /-- The elapsed local time of the start tick of the cycle in progress. -/
  began : Nat := 0
  /-- The class tick of the latest commit point. -/
  lastCp : Option Nat := none
  frozen : Tbl DWord := []
  staged : List (Nat × DWord) := []
  /-- HALT_CAUSE found at the commit deadline of the cycle in progress; 0 for none. -/
  fail : Nat := 0
  /-- The standby sends none of this cycle's frames (R213). -/
  mute : Bool := false
  /-- Frames suppressed until the next RESYNC (R273, R274). -/
  degraded : Bool := false
  progFault : Bool := false
  execCyc : Nat := 0
  xch : Tbl Byte := []
  xchDirty : Tbl Bool := []
  storeRets : List RetEnt := []
  storeFresh : Bool := false
  lastS : Nat := 0
  lastC : Nat := 0
  rx : List MirrorRx := []
  /-- Patch bytes written in this cycle: position, offset, bytes (R248). -/
  patched : List (Nat × Nat × List Byte) := []
  /-- The standby's guest finished late under a verdict within budget (R213). -/
  late : Bool := false
  /-- SYNC_STATE of the active mirrored with its latest COMMIT (R115). -/
  mirSync : Option Nat := none
  /-- LINES of the guest's allowance in force for the cycle in progress (R277, R289). -/
  linesMax : Option Nat := none
  /-- EGR_DIGEST after the latest own commit and that commit's cycle (R273). -/
  ownDigest : Option (Nat × Nat × Nat) := none
  /-- The guest's latest commit was its last publication before the unit leaves its role (R266). -/
  left : Bool := false
  /-- The unit has entered HOT_STANDBY and the guest's first freeze window has not closed: the active's lines of the cycle before
  come as in RESYNC (R283). -/
  joining : Bool := false
deriving DecidableEq, Repr

/-- A guest command in progress on an execution block (R242, R243). -/
structure GCmd where
  op : Nat
  guest : Nat
  mask : Nat
  img : Nat
deriving DecidableEq, Repr

/-- A patch set: guest, entries (item, value). -/
structure PatchSet where
  guest : Nat
  entries : List (Nat × DWord)
  /-- The absolute tick at or after which the apply cycle starts; none while the check runs. -/
  tick : Option Nat
  addr : Nat
  count : Nat
deriving DecidableEq, Repr

/-! ### Egress (R110 to R119) -/

/-- A publication entry as in effect (R110). -/
structure PubEntry where
  typ : Nat
  urgent : Bool
  pair0 : Bool
  pair1 : Bool
  sign : Bool
  srcIdx : Nat
  guest : Nat
  vid : Nat
  pcp : Nat
  tagged : Bool
  appid : Nat
  dst : Nat
  tmplLen : Nat
  tmplAddr : Nat
  mapAddr : Nat
  mapCount : Nat
  ofsT : Nat
  ofsA : Nat
  ofsB : Nat
  ofsTal : Nat
  t1 : Nat
  t0 : Nat
  keySlot : Nat
deriving DecidableEq, Repr

/-- A publication with its mirrored transmit state (R113, R114, R118). `repeatAt` is the absolute tick of the next repeat,
`interval` its interval in ms; `last` the mapped bytes at the last commit, with their template offsets. -/
structure Pub where
  entry : PubEntry
  count : Nat := 0
  stNum : Nat := 0
  sqNum : Nat := 0
  interval : Nat := 0
  repeatAt : Option Nat := none
  /-- The t field of the latest change frame. -/
  tField : List Byte := []
  last : Option (List (Nat × List Byte)) := none
  /-- The next frame is a change frame whatever the mapped bytes hold (R286). -/
  force : Bool := false
  /-- The entry sends nothing: its guest was unloaded (R124). -/
  stopped : Bool := false
deriving DecidableEq, Repr

/-- A redundancy tag as sent or received: PRP trailer (LanId 0xA, 0xB) or HSR tag (path), with its LSDUsize. -/
structure RedTag where
  hsr : Bool
  seq : Nat
  lan : Nat
  size : Nat
deriving DecidableEq, Repr

/-- A frame as a port sends it: addresses, 802.1Q tag control field (PCP, DEI, VID), redundancy tag, the octets from the
Ethertype to the end of the payload, the Keyring slot whose GMAC tag it carries, and the octets of padding that follow the
payload and stand before a PRP trailer. `red` and `vlan` stand for the octets of IEC 62439-3 and IEEE 802.1Q. -/
structure TxFrame where
  dst : Nat
  src : Nat
  vlan : Option Nat
  red : Option RedTag
  body : List Byte
  signed : Option Nat := none
  pad : Nat := 0
deriving DecidableEq, Repr

/-- A scheduled frame awaiting its launch (R113, R116): its publication and guest, its redundancy number and octets, its launch
instant as a clock value. `skip` marks a frame that takes its number and is not sent. -/
structure DueFrame where
  pub : Nat
  guest : Nat
  urgent : Bool
  srcIdx : Nat
  seq : Nat
  vlan : Option (Nat × Nat)
  dst : Nat
  body : List Byte
  sign : Option Nat
  skip : Bool
  ports : List Nat
  at_ : Nat
deriving DecidableEq, Repr

/-- A non-scheduled frame waiting at a port (R116): class 0 manager PTP events, 1 HSR-forwarded PCP 4 to 7, 2 the rest;
`ingress` is the reception time (0.25 ns) and port of a forwarded frame; `entry` the index of an entry of queue 3 (R150);
`held` that the guard has held it. -/
structure NsFrame where
  cls : Nat
  frame : TxFrame
  ingress : Option (Nat × Nat)
  entry : Option Nat
  held : Bool := false
deriving DecidableEq, Repr

/-- A member of a GOOSE frame's allData as received (R146). -/
inductive DataVal where
  | bool (b : Bool)
  | int (v : Int)
  | uns (v : Nat)
  | float32 (w : Nat)
  | float64 (w : Nat)
  | utc (w : Nat)
  | bits (l : List Bool)
  | other
deriving DecidableEq, Repr

/-- An ASDU of an SV frame: smpCnt, smpSynch, and per channel the INT32 value and the quality bits as received. -/
structure Asdu where
  smpCnt : Nat
  smpSynch : Nat
  chans : List (Nat × Nat)
deriving DecidableEq, Repr

/-- The IEC 62351-6 extension of a frame (R152): key identifier, length of the authentication value, and the octets it
protects. -/
structure AuthExt where
  keyId : Nat
  tagLen : Nat
  octets : Nat
deriving DecidableEq, Repr

/-- What an SV or GOOSE frame's APDU says, as IEC 61850 encodes it; the octets are outside the manual. (PRESUMED, log 53). -/
inductive RxApp where
  | none
  | sv (svId : List Byte) (confRev : Nat) (asdus : List Asdu) (ext : Option AuthExt)
  | goose (gocbRef : List Byte) (confRev stNum sqNum tal : Nat) (data : List DataVal) (ext : Option AuthExt)
deriving DecidableEq, Repr

/-- A whole frame as it reaches a port (R106): addresses, its 802.1Q tag control field, its valid PRP trailer or HSR tag,
whether its FCS is good, its whole length in bytes, the octets from the Ethertype to the end of the payload, the
content of an SV or GOOSE APDU, and what RS-FEC corrected on it, or could not. (PRESUMED, log 53). -/
structure RxFrame where
  dst : Nat
  src : Nat
  vlan : Option Nat
  red : Option RedTag
  fcsOk : Bool
  len : Nat
  body : List Byte
  app : RxApp
  fecCorr : Nat := 0
  fecBad : Bool := false
deriving DecidableEq, Repr

/-- An entry of a duplicate-discard table (R122): TOP and the window for delivery and, in HSR, per forwarding direction; none while
no frame came for it. Window bit i is the number TOP − i. `seen` is the elapsed local time of its latest frame. -/
structure DdEntry where
  del : Option (Nat × BitVec 64)
  fwd0 : Option (Nat × BitVec 64)
  fwd1 : Option (Nat × BitVec 64)
  seen : Nat
deriving DecidableEq, Repr

/-! ### Hinge and ROLE (R255 to R291) -/

/-- A guest command as a CONTROL frame carries it (R274): OP, cell mask and execution block. -/
inductive CtlBody where
  | cmd (op mask exb : Nat)
  | patch (entries : List (Nat × DWord)) (tick : Nat)
  | pub (index : Nat) (entry : Option PubEntry)
  | image (ofs : Nat) (bytes : List Byte)
  | counts (counts : Tbl Nat)
  | allow (lo hi : Word)
deriving DecidableEq, Repr

/-- The state of a guest as the bulk copy carries it (R281): its slot and lists, its cells in position order, its image
store and retained store, its outputs, its allowance, its publications with their transmit state, its address counts.
(DEDUCED, log 69). -/
structure GuestCopy where
  g : Nat
  guest : Guest
  cells : List Cell
  image : List Byte
  retained : List Byte
  outs : List (Nat × DWord)
  allow : Word × Word
  pubs : List (Nat × Pub)
  counts : List (Nat × Nat)
  /-- The guest's pending patch set. -/
  patch : Option PatchSet
deriving DecidableEq, Repr

/-- Payloads of the Hinge frames (R258, R259). (DEDUCED, log 68). -/
inductive HBody where
  | heartbeat (timeS timeNs hbSeq mode flags pairId sync cfgDigest phaseF slowTicks : Nat)
  | verdict (guest cause c s : Nat)
  | control (seq guest c s : Nat) (body : CtlBody)
  | ack (number : Nat) (bulk : Bool)
  | role (kind code s : Nat)
  | lines (guest c s : Nat) (entries : List MLine)
  | image (guest pos index c s : Nat) (points : List DWord)
  | commit (guest sync frames c s digest : Nat)
  | bulk (range chunk ofs : Nat) (data : List Byte)
  | guestBulk (guest chunk ofs : Nat) (copy : Option GuestCopy)
deriving DecidableEq, Repr

/-- A Hinge frame: its priority (R258), the header's CSEQ, its payload. -/
structure HFrame where
  prio : Nat
  cseq : Nat
  body : HBody
deriving DecidableEq, Repr

/-- What a received Hinge frame's header gives (R257): its CRC, type and length are right, UNIT, CSEQ. (DEDUCED, log 68). -/
structure HHead where
  ok : Bool
  unitB : Bool
  cseq : Nat
deriving DecidableEq, Repr

/-- What a received heartbeat, on either path, reports (R259, R263). Times in ns since second 0; `format` that SUBTYPE and
VERSION are right. -/
structure HbRx where
  format : Bool
  unitB : Bool
  time : Nat
  mode : Nat
  flags : Nat
  pairId : Nat
  sync : Nat
  digest : Nat
  phaseF : Nat
  slowTicks : Nat
deriving DecidableEq, Repr

/-- The bulk copy (R281, R282) on the sending or receiving side. -/
structure BulkSt where
  /-- BULK_STS.STATE. -/
  state : Nat := 0
  bytes : Nat := 0
  chunk : Nat := 0
  /-- The pieces still to send: range, guest of range 16, offset of the next chunk (R281). -/
  todo : List (Nat × Nat × Nat) := []
  /-- CSEQ held per 64-byte unit of DRAM, and of guests' lines, written in RESYNC (R282). -/
  held : Tbl Nat := []
  heldLines : Tbl Nat := []
  /-- Lines that came before their guest's state: guest, CSEQ, line. -/
  early : List (Nat × Nat × MLine) := []
  /-- CSEQ of the chunk that brought each guest. -/
  guestSeq : Tbl Nat := []
  /-- CSEQ of the latest COMMIT received, and of the first chunk. -/
  lastCommit : Nat := 0
  firstSeq : Option Nat := none
  /-- CSEQ the sender had reached at its last chunk. -/
  lastChunk : Option Nat := none
deriving DecidableEq, Repr

/-- A CONTROL frame awaiting its ACK (R274). -/
structure CtlWait where
  seq : Nat
  frame : HFrame
  tries : Nat
deriving DecidableEq, Repr

/-- A command waiting for its cycle index (R244, R274). -/
structure CtlPending where
  guest : Nat
  c : Nat
  s : Nat
  body : CtlBody
deriving DecidableEq, Repr

/-- HINGE outside its registers. -/
structure HingeSt where
  lock : Nat := 0
  link : Bool := false
  queue : List HFrame := []
  seq : Nat := 0
  cseq : Nat := 0
  hbSeq : Nat := 0
  netSeq : Nat := 0
  ctlSeq : Nat := 0
  wait : List CtlWait := []
  later : List CtlPending := []
  /-- CTL_SEQ of CONTROL frames already taken. -/
  seen : Tbl Bool := []
  img : Tbl (List (Nat × List Byte)) := []
  bulk : BulkSt := {}
deriving DecidableEq, Repr

/-- A judgement of a Hinge silence in progress (R265): the slot s* on the partner's time line and whether a network
heartbeat of s* or later came. Times in ns. -/
structure Judge where
  slot : Nat
  alive : Bool
deriving DecidableEq, Repr

/-- ROLE, the chip's mode machine and start-up, outside their registers. -/
structure RoleSt where
  mode : Mode := .boot
  /-- 0 none, 1 active, 2 standby. -/
  role : Nat := 0
  isolated : Bool := false
  unmirrored : Bool := false
  netLost : Bool := false
  hingeLost : Bool := false
  degraded : Bool := false
  partnerSeen : Bool := false
  partnerMode : Mode := .boot
  rsCode : Nat := 0
  hbUp : Bool := false
  hbGood : Nat := 0
  hbMiss : Nat := 0
  lastHb : Nat := 0
  partnerDigest : Nat := 0
  partnerF : Nat := 0
  /-- The network path is up (R264). -/
  netUp : Bool := false
  netMiss : Nat := 0
  judge : Option Judge := none
  /-- The active's Hinge alone failed earlier (R266). -/
  hingeFailed : Bool := false
  f : Nat := 0
  k : Nat := 0
  /-- The second of a pending DEMOTE switchover (R269). -/
  demote : Option Nat := none
  /-- Publishing of the former active ends with the frames committed at the switchover. -/
  leaving : Bool := false
  /-- Second T of a RESYNC's end (R283); `enterAsked` after KIND 3. -/
  enterAt : Option Nat := none
  enterAsked : Bool := false
  resyncAsked : Bool := false
  /-- Publication hold (R286): elapsed local time at the entry to ACTIVE. -/
  holdFrom : Option Nat := none
  /-- Pending merge of address counts (R268): unit B's counts, or network alone. -/
  merge : Option (Option (Tbl Nat)) := none
  /-- Second of a pending entry to ACTIVE (R296, R297). -/
  activeAt : Option Nat := none
  pwRunning : Bool := false
  pwEnd : Nat := 0
  restored : Bool := false
  noState : Bool := false
  safeCause : Nat := 0
  modeJob : Option (Nat × Nat) := none
  /-- RESYNC at the next top of second (R273). -/
  resyncNext : Bool := false
  /-- Elapsed local time at which a refused or unanswered RESYNC request is made again (R280). -/
  retryAt : Option Nat := none
  /-- The unit came back to COLD_STANDBY without a PARTNER_WAIT (R297, R300); true once it has taken its checkpoint. -/
  returned : Option Bool := none
  /-- Elapsed local time of the latest frame from one of the pair's publication addresses (R286). -/
  lastPubRx : Option Nat := none
  /-- Network heartbeats of the partner: one came in the slot in progress. -/
  slotSeen : Bool := false
  /-- Unit A has raised its counts for a contact over the network alone (R268). -/
  netMerged : Bool := false
deriving DecidableEq, Repr

/-! ### Keyring (R340 to R364) -/

/-- A slot of the Keyring (R341, R351): attribute word, LABEL, and its value held as the pair (value XOR mask, mask); a value
of 16 bytes occupies the low half. -/
structure KSlot where
  attr : Nat
  label : Nat
  masked : BitVec 256
  mask : BitVec 256
deriving DecidableEq, Repr

/-- A Keyring command in progress with its arguments (R343). -/
structure KJob where
  op : Nat
  slot : Nat
  parent : Nat
  label : Nat
  arg2 : Nat
  data : List Byte
deriving DecidableEq, Repr

/-- A commit that is HELD or WRITING, with its snapshot (R358). -/
structure KCommit where
  snap : List (Nat × KSlot)
  /-- Once WRITING: the target copy, the new SEQ, and the store key (R355, R358). -/
  target : Option (Nat × Nat × List Byte)
  /-- The step of R358 in progress: 1 HELD, 3 erase, 4 blobs, 5 header, 6 read-back. -/
  step : Nat := 1
deriving DecidableEq, Repr

structure KeyringSt where
  /-- KR_DATA as written (R343). -/
  data : Tbl Word := []
  slots : Tbl KSlot := []
  job : Option KJob := none
  commit : Option KCommit := none
deriving DecidableEq, Repr

/-! ### Porter (R129 to R168) -/

/-- A stream descriptor (R131). -/
structure StreamDesc where
  valid : Bool
  altEn : Bool
  anySrc : Bool
  pin : Bool
  cls : Nat
  policy : Nat
  alg : Nat
  ports : Nat
  guest : Nat
  gen : Nat
  vid : Nat
  dst : Nat
  src : Nat
  appid : Nat
  altVid : Nat
  altDst : Nat
  altSrc : Nat
  altAppid : Nat
  idLen : Nat
  tagLen : Nat
  idCrc : Nat
  confRev : Nat
  rate : Nat
  asduN : Nat
  chanN : Nat
  frameLen : Nat
  pubDelay : Nat
  pathDly : Nat
  holdMax : Nat
  subst : Nat
  pointBase : Nat
  pointCount : Nat
  deadline : Nat
  keyA : Nat
  keyB : Nat
  keyIdA : Nat
  keyIdB : Nat
deriving DecidableEq, Repr

/-- The state half of a context (R132). `last` in 0.25 ns. -/
structure CtxState where
  rxOk : Nat := 0
  authFail : Nat := 0
  authLate : Nat := 0
  lateDrop : Nat := 0
  keyRefused : Nat := 0
  formBad : Nat := 0
  portBad : Nat := 0
  stale : Nat := 0
  simDrop : Nat := 0
  last : Nat := 0
  lastSmpCnt : Nat := 0
  lastStNum : Nat := 0
  lastSqNum : Nat := 0
  simSeen : Bool := false
  talExpired : Bool := false
  /-- Elapsed local time at which the latest frame's timeAllowedToLive ends (R146). -/
  talEnd : Nat := 0
deriving DecidableEq, Repr

/-- A valid stream context. -/
structure CtxEnt where
  d : StreamDesc
  st : CtxState
deriving DecidableEq, Repr

/-- An entry of the match table (R138, R139): its key as 16 bytes, and the context it names or the action of a manager rule:
0 drop, 1 queue 1, 2 queue 0. -/
structure MtEnt where
  key : List Byte
  ctx : Option Nat
  action : Nat
deriving DecidableEq, Repr

/-- A discovery source (R151): tokens in units of one billionth of a token per clock unit, at elapsed time `at_`. -/
structure DiscSrc where
  level : Nat
  at_ : Nat
deriving DecidableEq, Repr

/-- A frame at Porter: its port, timestamp in 0.25 ns, STEP_GEN, VID and PCP after R108, REDUN's number, and the elapsed
local time of its frame-in. -/
structure InFrame where
  port : Nat
  f : RxFrame
  stamp : Nat
  gen : Nat
  vid : Nat
  pcp : Nat
  tagged : Bool
  red : Option RedTag
  inAt : Nat
deriving DecidableEq, Repr

/-- A frame in verification (R152 to R158): its context and descriptor at the lookup, its engine once started, its deadline in
0.25 ns, whether the deadline has passed, whether its key's slot or an ancestor was revoked since it started. -/
structure VJob where
  id : Nat
  ctx : Nat
  d : StreamDesc
  fr : InFrame
  hmac : Bool
  slot : Nat
  deadline : Nat
  engine : Option Nat
  late : Bool := false
  revoked : Bool := false
  removed : Bool := false
  /-- Its engine was quarantined while it held the job (R155). -/
  lost : Bool := false
deriving DecidableEq, Repr

/-- A second copy that waits for the first copy's verification, and its frame-in instant (R156, R159). -/
structure HeldCopy where
  job : Nat
  fr : InFrame
  arrived : Nat
deriving DecidableEq, Repr

structure PorterSt where
  ctxs : Tbl CtxEnt := []
  mt : Tbl MtEnt := []
  /-- The cached contexts of each set of the descriptor cache, most recently used first (R133). -/
  cache : Tbl (List Nat) := []
  disc : Tbl DiscSrc := []
  /-- The words of each discovery rule as its latest W3 write applied them (R165). -/
  rules : Tbl (List Word) := []
  /-- Entries written to each receive queue (R148). -/
  qseq : Tbl Nat := []
  jobs : List VJob := []
  jobNo : Nat := 0
  /-- Index after the entries of queue 3 that were taken (R150). -/
  txTaken : Nat := 0
  held : Tbl (List HeldCopy) := []
  descJob : Option Nat := none
  /-- The table is being zeroed; SDT_BASE has been written since reset (R130, R164). -/
  zeroing : Bool := false
  sdtSet : Bool := false
  ruleJob : Option (Nat × Nat × List Byte) := none
  /-- Engine work of the millisecond in progress, in ns, by CRYPTO window (R167). -/
  busyNow : Tbl Nat := []
deriving DecidableEq, Repr

/-! ### Alignment (R169 to R194) -/

/-- A sample that was placed: its number, AUTH, and per channel value and SRCQ. -/
structure Placed where
  g : Nat
  auth : Nat
  chans : List (Nat × Nat)
deriving DecidableEq, Repr

/-- The alignment state of an SV context (R186): 0 IDLE, 1 LOCKED, 2 HOLDING, 3 LOST; `next` is FILLED_G + 1; `last` the placed
sample at the highest position up to FILLED_G, `ahead` those placed beyond it; `n`, `ofs`, `lastCnt` the running count, the
offset and the counter of a free-running publisher (R175); `resid` in 1/256 ns. -/
structure AlignCtx where
  state : Nat := 0
  free : Bool := false
  next : Nat := 0
  hold : Nat := 0
  relockLeft : Nat := 0
  relockPend : Bool := false
  n : Nat := 0
  ofs : Int := 0
  lastCnt : Nat := 0
  last : Option Placed := none
  ahead : List Placed := []
  resid : Int := 0
  late : Nat := 0
  early : Nat := 0
  dup : Nat := 0
  timing : Nat := 0
  subst : Nat := 0
  relocks : Nat := 0
deriving DecidableEq, Repr

/-- An ASDU in a lane's buffer with the descriptor its frame met at the lookup (R136, R169, R189). -/
structure LaneAsdu where
  ctx : Nat
  d : StreamDesc
  stamp : Nat
  gen : Nat
  auth : Nat
  asdu : Asdu
deriving DecidableEq, Repr

structure AlignSt where
  ctxs : Tbl AlignCtx := []
  lanes : Tbl (List LaneAsdu) := []
  /-- Values placed or substituted by each lane in the millisecond in progress (R193). -/
  valuesNow : Tbl Nat := []
deriving DecidableEq, Repr

/-! ### Courier (R313 to R339) -/

/-- A descriptor (R318). -/
structure Desc where
  op : Nat
  flags : Nat
  tag : Nat
  host : Nat
  dev : Nat
  len : Nat
  rsvd : Bool
deriving DecidableEq, Repr

/-- A descriptor that has started: its ring index, window and grants taken at its start are already checked; `base` is the
DRAM address of its first byte; `next` bytes were handed to segments, `open_` segments run, `done` bytes moved, `code` its
outcome so far. -/
structure DescRun where
  desc : Desc
  index : Nat
  base : Nat
  next : Nat
  open_ : Nat
  done : Nat
  code : Nat
deriving DecidableEq, Repr

/-- A segment that an engine runs: its queue and ring index, operation, host and DRAM address, length; `dropped` when its
descriptor's queue was reset or restarted since. -/
structure Segment where
  queue : Nat
  index : Nat
  op : Nat
  host : Nat
  addr : Nat
  len : Nat
  dropped : Bool
  /-- A dropped segment's writes of DRAM had been issued (R329). -/
  issued : Bool := false
deriving DecidableEq, Repr

/-- A queue outside its registers: descriptors started and not yet completed, in ring order; where the next fetch stands;
the phase; STOPPED; segments used in this round, with the WEIGHT the round began with where it was changed since (0 where
not); a function reset in progress, its cause, the segments it dropped; `cut` once a completion could not be written: later
ones stay held behind it (R321, R326). -/
structure QueueSt where
  runs : List DescRun := []
  fetch : Nat := 0
  phase : Bool := true
  stopped : Bool := false
  used : Nat := 0
  weight : Nat := 0
  resetting : Bool := false
  cause : Nat := 0
  dropped : Nat := 0
  cut : Bool := false
deriving DecidableEq, Repr

/-- Settings of a function that the manager edits through FN_SEL (R337), and its PCIe state: bus master enable, D3hot. -/
structure FnSt where
  winBase : Nat := 0
  winLen : Nat := 0
  write : Bool := false
  grantFirst : Tbl Nat := []
  grantCount : Tbl Nat := []
  grantEn : Tbl Bool := []
  resets : Nat := 0
  bme : Bool := false
  d3 : Bool := false
deriving DecidableEq, Repr

structure CourierSt where
  queues : Tbl QueueSt := []
  engines : Tbl Segment := []
  fns : Tbl FnSt := []
  vfEnable : Bool := false
  /-- Bytes moved to and from DRAM, of which the counters show units of 4 KiB. -/
  h2d : Nat := 0
  d2h : Nat := 0
deriving DecidableEq, Repr

/-! ### Memory, flash (R436 to R452) -/

/-- A flash command in progress (R445, R452). -/
inductive FlashJob where
  | read (ofs dram len : Nat)
  /-- `stage`: 0 check and erase, 1 program, 2 read back. -/
  | slotWrite (slot dram stage : Nat)
deriving DecidableEq, Repr

/-- Work that FLASH serves (R445). -/
inductive FlashWork where
  | keys | manager | ckpt
deriving DecidableEq, Repr

/-- A guest's snapshot for a checkpoint (R446). -/
structure Snap where
  guest : Nat
  exb : Nat
  mask : Nat
  running : Bool
  n : Nat
  inPoints : Nat
  lines : Nat
  image : List Byte
  retained : List Byte
deriving DecidableEq, Repr

/-- The checkpoint machine: STATE of CKPT_STS, the second of the snapshot, the snapshots taken, the guests still to take;
`stage` while WRITING: 0 erase, 1 body, 2 header, 3 read back. -/
structure CkptSt where
  state : Nat := 0
  stage : Nat := 0
  /-- Once the header is programmed: copy, SEQ and LEN. -/
  target : Option (Nat × Nat × Nat) := none
  second : Option Nat := none
  snaps : List Snap := []
  counts : Tbl Nat := []
  pubs : List (Nat × Nat × Nat × Nat) := []
  todo : List Nat := []
deriving DecidableEq, Repr

/-- A DRAM controller's scrubber: next line of its channels and passes. -/
structure ScrubSt where
  pos : Nat := 0
deriving DecidableEq, Repr

/-! ### Analog front end, filters, acquisition (R390 to R435) -/

/-- The block that a stream's samples are being grouped in (R398, R415): samples in it, its stamp in 0.25 ns, STEP_GEN, START,
the index of its first sample, the spacing of its first two samples. -/
structure BlkSt where
  n : Nat := 0
  t : Nat := 0
  gen : Nat := 0
  start : Bool := false
  index : Nat := 0
  gap : Option Nat := none
deriving DecidableEq, Repr

/-- A stream (R390): the index of its next sample, samples still to carry SETTLE, OVR for the next sample, whether the next
sample opens a scan or the stream, the open block. -/
structure StreamSt where
  on : Bool := false
  index : Nat := 0
  settle : Nat := 0
  /-- Samples to mark from the one after the next on (R401). -/
  late : Nat := 0
  ovr : Bool := false
  fresh : Bool := false
  blk : BlkSt := {}
deriving DecidableEq, Repr

/-- A converter core (R395): a scan runs, the sequence entry of its next conversion and the conversions made of it; channel and
gain of its previous conversion; a trigger waits for its CLK_CONV edge; the code of a conversion without SETTLE that metric CONV has
not sampled (R380, R410). -/
structure CoreSt where
  conv : Option Int := none
  scan : Bool := false
  trig : Bool := false
  entry : Nat := 0
  nth : Nat := 0
  prev : Option (Nat × Nat) := none
deriving DecidableEq, Repr

/-- The calibration (R403): 0 idle, 1 zero, 2 full; the sum and count of the conversions taken; the sum of the latest zero
average; the elapsed time at which the averaging began. -/
structure CalSt where
  since : Nat := 0
  op : Nat := 0
  sum : Int := 0
  count : Nat := 0
  zero : Int := 0
deriving DecidableEq, Repr

/-- A sample or filter output word on its way (R397, R411, R414): input value, the flags of bits [29:24] of R414, its instant in
0.25 ns, the word itself, START of its block, STEP_GEN, its index in its stream, and the CHAN of an ADC sample. -/
structure FSample where
  x : Int
  flags : Nat
  t : Nat
  word : Nat
  start : Bool
  gen : Nat
  index : Nat
  chan : Nat
deriving DecidableEq, Repr

/-- A filter channel (R411 to R420): STATE of FC_STS, active bank (true is B), a pending swap, samples since the last reset, the
history newest first, the cross-fade (output j of xk, from length la), threshold states and runs, outputs since the reset, whether
the next output is the first one, the second of the latest input, the latest output, the elapsed time of the latest point write
and an output held for the next. -/
structure FiltCh where
  state : Nat := 0
  bank : Bool := false
  pend : Bool := false
  k : Nat := 0
  hist : List FSample := []
  j : Nat := 0
  xk : Nat := 1
  la : Nat := 1
  hi : Bool := false
  lo : Bool := false
  hiRun : Nat := 0
  loRun : Nat := 0
  index : Nat := 0
  first : Bool := true
  lastS : Option Nat := none
  last : Option FSample := none
  wrote : Option Nat := none
  held : Option FSample := none
  blk : BlkSt := {}
deriving DecidableEq, Repr

/-- A stored word (R422): the word, its instant, the instants of the first and last sample it combines, all in 0.25 ns. -/
structure AcqWord where
  w : Nat
  t : Nat
  t0 : Nat
  t1 : Nat
deriving DecidableEq, Repr

/-- A block of stored words (R423): number since arming, ordinal of word 0, EFF, EFF > AVG, STEP_GEN and START of its stamp,
INDEX, its words in order, RETRIG, a step or lost blocks just before it. -/
structure AcqBlk where
  bseq : Nat
  no : Nat
  eff : Nat
  red : Bool
  gen : Nat
  start : Bool
  index : Nat
  words : List AcqWord
  retrig : Bool
  stepped : Bool
  gap : Bool
deriving DecidableEq, Repr

/-- The trigger of a capture (R426, R427): instant, STEP_GEN, ordinal of the trigger word once it is known, retriggers and the
instant of the first. -/
structure AcqTrig where
  t : Nat
  gen : Nat
  word : Option Nat := none
  retrigs : Nat := 0
  rt : Option Nat := none
deriving DecidableEq, Repr

/-- A record in an armed segment (R424, R427): segment, its DRAM address, its units, the blocks held, oldest first, the numbers of
the next block and word, whether blocks were lost since the last one, the trigger, the last word of the unit's previous record.
SOURCE, AVG, PRE, POST, TSRC and the plateau distance (where the front is placed) are those the unit was armed with. -/
structure AcqRec where
  seg : Nat
  base : Nat
  units : Nat
  src : Nat := 0
  avg : Nat := 1
  pre : Nat := 0
  post : Nat := 0
  tsrc : Nat := 0
  front : Option Nat := none
  blocks : List AcqBlk := []
  next : Nat := 0
  no : Nat := 0
  lost : Bool := false
  trig : Option AcqTrig := none
  prevLast : Option Nat := none
deriving DecidableEq, Repr

/-- An acquisition unit (R421 to R428): STATE of AU_STS, RED, the full segments oldest first, where the search for a free one
starts, the record in its segment, the block being filled, the averaging interval being filled (newest first), the FIFO (segment
address, ring index, block), records whose blocks are not all in DRAM, records closed, the last word of the previous record, the
latest trigger, a pending halving of RED, STEP_GEN of the latest sample, the elapsed time since which the FIFO has held 32 blocks or
fewer with RED unchanged (R425). -/
structure AcqUnit where
  lowAt : Nat := 0
  state : Nat := 0
  red : Nat := 1
  full : List Nat := []
  nextSeg : Nat := 0
  rec_ : Option AcqRec := none
  cur : Option AcqBlk := none
  acc : List FSample := []
  fifo : List (Nat × Nat × AcqBlk) := []
  closing : List AcqRec := []
  seq : Nat := 0
  prevLast : Option Nat := none
  lastTrig : Option Nat := none
  halve : Bool := false
  lastGen : Option Nat := none
deriving DecidableEq, Repr

/-- The analog die's state; `refGood` is the elapsed time of the first good reference measurement since the latest bad one,
`acqNow` the bytes of the write port in the millisecond in progress. -/
structure AnalogSt where
  streams : Tbl StreamSt := []
  cores : Tbl CoreSt := []
  cal : CalSt := {}
  refGood : Option Nat := none
  filt : Tbl FiltCh := []
  acq : Tbl AcqUnit := []
  acqNow : Nat := 0
deriving DecidableEq, Repr

/-! ### Clocks, supplies, reset, test access (R454 to R476, R490) -/

/-- Clocks and supplies outside their registers: the elapsed time of the reference's failure and the ms of holdover so far; the
elapsed time at which the key of RST_GO was written; the dip in progress (rails that dipped, rail and mV of the minimum, elapsed
time of the warning); whether reset has been released. -/
structure ClkSt where
  /-- Elapsed time at which the 100 µs above warning began (R469). -/
  recAt : Nat := 0
  /-- The latest temperature of each block's sensor, by SOURCE / 16 (R470, R474). -/
  temps : Tbl Nat := []
  refSince : Nat := 0
  holdMs : Nat := 0
  keyAt : Option Nat := none
  dipped : Nat := 0
  minRail : Nat := 0
  minMv : Nat := 0
  dipAt : Nat := 0
  released : Bool := false
  /-- Elapsed time at reset release (R304). -/
  releasedAt : Nat := 0
deriving DecidableEq, Repr

/-- The TAP's instruction (R490, R494); `debug` is the private instruction of the debug port. -/
inductive Tap where
  | idcode | bypass | samplePreload | extest | extestPulse | extestTrain | clamp | highz | debug
deriving DecidableEq, Repr

/-- Whether an instruction has taken control of the pads (R494). -/
def Tap.takesPads : Tap → Bool
  | .extest | .extestPulse | .extestTrain | .clamp | .highz => true
  | .idcode | .bypass | .samplePreload | .debug => false

end Sys2Proof.Machine
end

