-- ==== Sys2Proof/Syntax.lean ====
section
/-! DEFINITION. Sys2Proof/Syntax.lean: the commands of the block, one constructor of `Instr` per row of
spec/opcode_table.json, with the operands each row needs. -/
namespace Sys2Proof
open Machine

/-- A register access of any size (R37): byte address, bytes, whether every byte enable is set, data. -/
structure Access where
  addr : Nat
  bytes : Nat
  full : Bool
  data : BitVec 64
deriving DecidableEq, Repr

/-- Floating-point precision of an operation, the bit P (R231, R233). -/
inductive Prec where
  | single | double
deriving DecidableEq, Repr

/-- Lane type of a vector operation (R234). -/
inductive Lane where
  | int | single | double
deriving DecidableEq, Repr

/-- Mode of an edge detector (R231, R239). -/
inductive EdgeMode where
  | rising | falling | both
deriving DecidableEq, Repr

/-- A general or vector register number. -/
abbrev RegNo := BitVec 5

/-- How a host access ends that is a host fault (R326). -/
inductive HostFaultAt where
  | segment | fetch | check
  /-- After so many completions that were written. -/
  | completion (after : Nat)
deriving DecidableEq, Repr

/-- What a read of a DRAM line finds (R438). -/
inductive EccFind where
  | clean | corrected | uncorrectable
deriving DecidableEq, Repr

/-- The commands, in the order of spec/opcode_table.json. `src` is the sender of a register access; in chapter 08 `c` names an
execution cell (0 to 255) and `g` a guest; an event command carries what the event brings from outside (a frame as received,
a measured value, the data a transfer read). -/
inductive Instr where
  -- chapter 02
  | regWrite (src : Src) (a : Access)
  | latchingRead (src : Src) (a : Nat)
  -- chapter 11
  | gCycCRead (g : Fin 256)
  -- chapter 13
  | lgHeadRead (src : Src)
  -- chapter 02
  | softReset (src : Src) (p : Page)
  -- chapter 19
  | softResetDone (p : Page)
  -- chapter 02
  | pageEnableChg (src : Src) (p : Page) (en : Bool)
  | pageContainChg (src : Src) (p : Page) (v : BitVec 2)
  | pageErrClear (src : Src) (p : Page)
  | irqSetWrite (src : Src) (p : Page) (w : Word)
  | irqStsClear (src : Src) (p : Page) (w : Word)
  | msixUnmask (fn vec : Nat)
  | faultInject (src : Src) (p : Page) (kind : BitVec 2) (cell : BitVec 4)
  | ledgerCtlWrite (src : Src) (p : Page) (w : Word)
  -- chapter 04
  | counterClear (src : Src) (p : Page) (c : Fin 2)
  -- chapter 01
  | eccCorrected (p : Page) (c : Fin 16)
  -- chapter 07
  | eccUncorrectable (p : Page) (c : Fin 16)
  -- chapter 01
  | stuckState (p : Page) (c : Fin 16)
  -- chapter 07
  | noRetireTimeout (n c : Fin 16)
  -- chapter 01
  | cellNoResponse (p : Page) (c : Fin 16)
  | sharedResourceFault (p : Page)
  | blockNoResponse (p : Page)
  | segmentFault (r : Option (Fin 10))
  -- chapter 03
  | topOfSecond
  | gridTick
  | slewWrite (src : Src) (v : BitVec 64)
  | slewDone
  | stepCmd (src : Src) (w : Word)
  | stepApply
  | snapCmd (src : Src)
  | syncReport (src : Src) (locked : Bool)
  | syncTimeout
  | holdoverExpiry
  | txtsPop (src : Src) (port : Fin 4)
  | txtsClrLost (src : Src) (port : Fin 4)
  | tioEdge (pin : Nat) (rise : Bool) (back : Nat)
  | capPop (src : Src)
  | capClrLost (src : Src)
  | tioCfgWrite (src : Src) (n : BitVec 5) (w : Word)
  | schEnq (src : Src) (pin : BitVec 5) (level : Bool)
  | schFlush (src : Src) (pin : BitVec 5)
  | schFire
  | ppsOutRise
  | ppsOutFall
  -- chapter 04
  | portCtlWrite (src : Src) (n : Fin 5) (w : Word)
  | linkDown (n : Fin 5)
  | linkUp (n : Fin 5)
  | frameRx (n : Fin 5) (ph : Fin 10) (f : RxFrame)
  | ddAgeExpiry (pair : Fin 2) (src : Nat)
  | nonschedTx (n : Fin 5) (ph : Fin 10)
  -- chapter 05
  | txqPiWrite (src : Src) (w : Word)
  -- chapter 04
  | pubDoorbell (src : Src) (w : Word)
  | pubDone
  | launch (n : Fin 4)
  | gooseRepeat (i : Nat)
  -- chapter 05
  | sdtBaseWrite (src : Src) (a : BitVec 64)
  | sdtZeroDone
  | descDoorbell (src : Src) (w : Word)
  | descDone
  | sdtStateWriteback (i : Nat)
  | ruleAdd (src : Src) (action : BitVec 2)
  | ruleRemove (src : Src)
  | ruleDone
  | hmacJobStart (e : Fin 8)
  | verifyDone (id : Nat) (pass : Bool)
  | verifyDeadline (id : Nat)
  | talExpired (i : Nat)
  | discSourceAge (src : Nat)
  -- chapter 06
  | asduPlace (l : Nat)
  | cutOff (i : Nat)
  | ctxSel (src : Src) (w : Word)
  -- chapter 07
  | cycleStart (g : Nat)
  | freezeClose (g : Nat) (late : List Nat)
  | commitDeadline (g : Nat) (late : List Nat)
  | commitPoint (gs late : List Nat)
  -- chapter 08
  | add (c : Nat) (d a b : RegNo)
  | sub (c : Nat) (d a b : RegNo)
  | and (c : Nat) (d a b : RegNo)
  | or (c : Nat) (d a b : RegNo)
  | xor (c : Nat) (d a b : RegNo)
  | shl (c : Nat) (d a b : RegNo)
  | shr (c : Nat) (d a b : RegNo)
  | sar (c : Nat) (d a b : RegNo)
  | ror (c : Nat) (d a b : RegNo)
  | slt (c : Nat) (d a b : RegNo)
  | sltu (c : Nat) (d a b : RegNo)
  | min (c : Nat) (d a b : RegNo)
  | max (c : Nat) (d a b : RegNo)
  | minu (c : Nat) (d a b : RegNo)
  | maxu (c : Nat) (d a b : RegNo)
  | mul (c : Nat) (d a b : RegNo)
  | mulhs (c : Nat) (d a b : RegNo)
  | mulhu (c : Nat) (d a b : RegNo)
  | divs (c : Nat) (d a b : RegNo)
  | divu (c : Nat) (d a b : RegNo)
  | rems (c : Nat) (d a b : RegNo)
  | remu (c : Nat) (d a b : RegNo)
  | clz (c : Nat) (d a : RegNo)
  | popc (c : Nat) (d a : RegNo)
  | addi (c : Nat) (d a : RegNo) (imm : BitVec 16)
  | andi (c : Nat) (d a : RegNo) (imm : BitVec 16)
  | ori (c : Nat) (d a : RegNo) (imm : BitVec 16)
  | xori (c : Nat) (d a : RegNo) (imm : BitVec 16)
  | shi (c : Nat) (d a : RegNo) (kind : BitVec 2) (n : BitVec 6)
  | slti (c : Nat) (d a : RegNo) (imm : BitVec 16)
  | cset (c : Nat) (d : RegNo) (p : BitVec 2) (imm : BitVec 16)
  | cput (c : Nat) (d : RegNo) (p : BitVec 2) (imm : BitVec 16)
  | ldbu (c : Nat) (d a : RegNo) (imm : BitVec 16)
  | ldbs (c : Nat) (d a : RegNo) (imm : BitVec 16)
  | ldhu (c : Nat) (d a : RegNo) (imm : BitVec 16)
  | ldhs (c : Nat) (d a : RegNo) (imm : BitVec 16)
  | ldwu (c : Nat) (d a : RegNo) (imm : BitVec 16)
  | ldws (c : Nat) (d a : RegNo) (imm : BitVec 16)
  | ldd (c : Nat) (d a : RegNo) (imm : BitVec 16)
  | stb (c : Nat) (d a : RegNo) (imm : BitVec 16)
  | sth (c : Nat) (d a : RegNo) (imm : BitVec 16)
  | stw (c : Nat) (d a : RegNo) (imm : BitVec 16)
  | std (c : Nat) (d a : RegNo) (imm : BitVec 16)
  | vld (c : Nat) (d a : RegNo) (imm : BitVec 16)
  | vst (c : Nat) (d a : RegNo) (imm : BitVec 16)
  | beq (c : Nat) (a b : RegNo) (ofs : BitVec 16)
  | bne (c : Nat) (a b : RegNo) (ofs : BitVec 16)
  | blt (c : Nat) (a b : RegNo) (ofs : BitVec 16)
  | bge (c : Nat) (a b : RegNo) (ofs : BitVec 16)
  | bltu (c : Nat) (a b : RegNo) (ofs : BitVec 16)
  | bgeu (c : Nat) (a b : RegNo) (ofs : BitVec 16)
  | jmp (c : Nat) (ofs : BitVec 26)
  | call (c : Nat) (ofs : BitVec 26)
  | jreg (c : Nat) (d a : RegNo) (imm : BitVec 16)
  | fadd (c : Nat) (p : Prec) (d a b : RegNo)
  | fsub (c : Nat) (p : Prec) (d a b : RegNo)
  | fmul (c : Nat) (p : Prec) (d a b : RegNo)
  | fdiv (c : Nat) (p : Prec) (d a b : RegNo)
  | fsqrt (c : Nat) (p : Prec) (d a : RegNo)
  | fmin (c : Nat) (p : Prec) (d a b : RegNo)
  | fmax (c : Nat) (p : Prec) (d a b : RegNo)
  | feq (c : Nat) (p : Prec) (d a b : RegNo)
  | flt (c : Nat) (p : Prec) (d a b : RegNo)
  | fle (c : Nat) (p : Prec) (d a b : RegNo)
  | fabs (c : Nat) (p : Prec) (d a : RegNo)
  | fneg (c : Nat) (p : Prec) (d a : RegNo)
  | ftoi (c : Nat) (p : Prec) (d a : RegNo)
  | itof (c : Nat) (p : Prec) (d a : RegNo)
  | widen (c : Nat) (d a : RegNo)
  | narrow (c : Nat) (d a : RegNo)
  | fma (c : Nat) (p : Prec) (d a b e : RegNo)
  | fms (c : Nat) (p : Prec) (d a b e : RegNo)
  | vadd (c : Nat) (t : Lane) (d a b : RegNo)
  | vsub (c : Nat) (t : Lane) (d a b : RegNo)
  | vmul (c : Nat) (t : Lane) (d a b : RegNo)
  | vdiv (c : Nat) (p : Prec) (d a b : RegNo)
  | vmin (c : Nat) (t : Lane) (d a b : RegNo)
  | vmax (c : Nat) (t : Lane) (d a b : RegNo)
  | vabs (c : Nat) (p : Prec) (d a : RegNo)
  | vneg (c : Nat) (t : Lane) (d a : RegNo)
  | vand (c : Nat) (d a b : RegNo)
  | vor (c : Nat) (d a b : RegNo)
  | vxor (c : Nat) (d a b : RegNo)
  | vcmplt (c : Nat) (t : Lane) (d a b : RegNo)
  | vcmpeq (c : Nat) (t : Lane) (d a b : RegNo)
  | vfma (c : Nat) (p : Prec) (d a b e : RegNo)
  | vget (c : Nat) (d a : RegNo) (l : BitVec 3)
  | vput (c : Nat) (d a : RegNo) (l : BitVec 3)
  | vsplat (c : Nat) (d a : RegNo)
  | vsumd (c : Nat) (d a : RegNo)
  | vsumi (c : Nat) (d a : RegNo)
  | tmr (c : Nat) (d a b : RegNo)
  | edg (c : Nat) (d a b : RegNo) (m : EdgeMode)
  -- chapter 07
  | endCell (c : Nat)
  | barrier (c : Nat)
  | barrierRelease (g : Nat)
  -- chapter 08
  | rdfps (c : Nat) (d : RegNo)
  | clrfps (c : Nat)
  -- chapter 07
  | rdcyc (c : Nat) (d : RegNo)
  -- chapter 08
  | illegalInstruction (c : Nat) (w : Word)
  -- chapter 07
  | ptRead (src : Src)
  | ptWrite (src : Src)
  | ptDone
  -- chapter 08
  | gcmdLoad (src : Src) (n g : Nat)
  | gcmdStart (src : Src) (n g : Nat)
  | gcmdStop (src : Src) (n g : Nat)
  | restartWarm (src : Src) (n g : Nat)
  | restartCold (src : Src) (n g : Nat)
  | gcmdUnload (src : Src) (n g : Nat)
  | gcmdExchange (src : Src) (n g : Nat)
  | gcmdDone (n : Nat)
  | patchCmd (src : Src) (n g count : Nat)
  | patchChecked (n : Nat)
  -- chapter 09
  | hingeLaneLoss (n errs : Nat)
  | hingeLinkUp
  | hingeTx
  | hingeHbSend
  | netHbSend
  | heartbeat (h : HHead) (b : HbRx)
  | hbMiss
  | netSlotEnd
  | judgeDeadline
  -- chapter 07
  | verdict (h : HHead) (g cause c sec : Nat)
  -- chapter 08
  | ctlGuestCommand (h : HHead) (seq g op mask exb c sec : Nat)
  | ctlPatchSet (h : HHead) (seq g : Nat) (entries : List (Nat × DWord)) (tick : Nat)
  -- chapter 04
  | ctlPublicationEntry (h : HHead) (seq g index : Nat) (entry : Option PubEntry) (c sec : Nat)
  -- chapter 09
  | ctlImageChunk (h : HHead) (seq g ofs : Nat) (bytes : List Byte)
  | ctlAddressCounts (h : HHead) (seq : Nat) (counts : Tbl Nat)
  | ctlAllowanceEntry (h : HHead) (seq g : Nat) (lo hi : Word) (c sec : Nat)
  | ack (h : HHead) (number : Nat) (bulk : Bool)
  | controlRetry (seq : Nat)
  | resyncReq (h : HHead)
  | resyncGo (h : HHead) (code : Nat) (held : List Nat)
  | enter (h : HHead) (sec : Nat)
  | demote (h : HHead) (sec : Nat)
  | lines (h : HHead) (g c sec : Nat) (entries : List MLine)
  | image (h : HHead) (g pos index c sec : Nat) (points : List DWord)
  | commit (h : HHead) (g sync frames c sec dig : Nat)
  | bulk (h : HHead) (body : HBody) (last : Bool)
  | resyncRetry
  | pubHoldEnd
  | allowWrite (src : Src) (g : Nat) (w : Word)
  | roleCmdResync (src : Src)
  | roleCmdDemote (src : Src)
  -- chapter 10
  | modeCmdRun (src : Src)
  | modeCmdConfigure (src : Src)
  | modeCmdTest (src : Src)
  | modeCmdEndTest (src : Src)
  | modeCmdGoActive (src : Src)
  | modeCmdSafe (src : Src)
  | modeCmdCold (src : Src)
  | modeDone
  | pwExpiry
  -- chapter 17
  | resetRelease (unitB : Bool) (slots : Option (List Byte × List Byte))
  -- chapter 10
  | bootDone (trained trained2 : Bool) (log2 : Fin 5)
  | bootFail (trained trained2 fuse : Bool)
  | debugUnlock (ok : Bool)
  | dbgLockout (src : Src)
  -- chapter 17
  | debugResetReq
  -- chapter 18
  | bypass
  | idcode
  | samplePreload
  | extest
  | extestPulse
  | extestTrain
  | clamp
  | highz
  | tapReset
  -- chapter 11
  | sqPiWrite (src : Src) (q : Fin 256) (w : Word)
  | sqEn (src : Src) (q : Fin 256) (log2 : BitVec 4)
  | qShareWrite (src : Src) (q : Fin 256) (w : Word)
  | segmentStart (e : Fin 8) (fetched : List (Nat × BitVec 256))
  | segmentDone (e : Fin 8) (data : List Byte) (left : Bool)
  | hostFault (at_ : HostFaultAt) (n : Nat) (cause : Fin 3) (data : List Byte)
  | flr (g : Fin 256)
  | gFreset (g : Fin 256)
  | fnReset (src : Src)
  | vfEnableClear
  | fnResetDone (g : Fin 256)
  | strSel (g : Fin 256) (pub : Bool) (index : BitVec 16)
  | lvSel (g : Fin 256) (seq : BitVec 64)
  -- chapter 12
  | generate (src : Src)
  | derive (src : Src)
  | importKey (src : Src)
  | krLoad (src : Src)
  | revoke (src : Src)
  | erase (src : Src)
  | krCommit (src : Src)
  | krCmdDone
  | krCommitWrite
  | krCommitDone (ok : Bool)
  | plainLock (src : Src)
  | remask
  | entropyFail (test : Nat)
  -- chapter 13
  | ledgerWriterStart
  | ledgerWrite
  | lgCfgWrite (src : Src) (base : BitVec 64) (log2 : BitVec 5)
  | lgSel (src : Src) (seq : BitVec 64)
  | lgClear (src : Src)
  | lgClearDone
  | histSel (src : Src) (w : Word)
  | metCfgWrite (src : Src) (m : Fin 7) (w : Word)
  | histSample (p : Page) (c m v : Nat)
  | ckGo (src : Src) (c : Fin 4) (cont : Bool) (poly : BitVec 2)
  | ckAbort (src : Src) (c : Fin 4)
  | ckDone (c : Fin 4)
  -- chapter 14
  | adcSample (c : Fin 4) (raw : Int) (skew : Option (Int × Bool × Bool))
  | adcScanTrigger (c : Fin 4)
  | coreSwtrig (src : Src) (c : Fin 4)
  | adcScanDone (c : Fin 4)
  | vrefMeasure (v : BitVec 16)
  | calSel (src : Src) (w : Word)
  | calZero (src : Src)
  | calFull (src : Src)
  | calApply (src : Src)
  | calAbort (src : Src)
  | calAvgDone
  | calTimeout
  | coefLoad (src : Src) (c g : Fin 4) (w : Word)
  -- chapter 15
  | fcCfgWrite (src : Src) (n : Fin 16) (w : Word)
  | fcSwap (src : Src) (n : Fin 16)
  | fcSync (src : Src) (n : Fin 16)
  | filtPointWrite (n : Fin 16)
  | auCfgWrite (src : Src) (u : Fin 4) (w : Word)
  | acqArmed (u : Fin 4)
  | auRel (src : Src) (u : Fin 4)
  | auSwtrig (src : Src) (u : Fin 4)
  | acqBlockWrite (u : Fin 4)
  | acqRedHalve (u : Fin 4)
  | acqRecordClose (u : Fin 4)
  -- chapter 16
  | scrubRead (c : Fin 2) (find : EccFind)
  | ckptGo (src : Src)
  | flRead (src : Src)
  | slotWrite (src : Src) (slot : Bool)
  | flashOpDone (ok : Bool)
  | pcieLinkDown
  -- chapter 17
  | pcieReset
  | refFail (edges : Bool)
  | refReturn
  | refFailClear
  | sdPllLockLoss (n : Fin 2)
  | sdPllLock (n : Fin 2)
  | rootPllLockLoss
  | powerOn
  | porst
  | rstGo (src : Src)
  | railBelowWarn (c : Fin 9) (mv low : BitVec 12)
  | railBelowReset (c : Fin 9) (mv : BitVec 12)
  | pwrWarnClear
  | tempWarn (source : BitVec 16) (code : BitVec 10)
  | thermalTrip (code : BitVec 10)
  -- chapter 16
  | pcieLinkUp (speed : Fin 5) (width : Fin 4)
  -- chapter 11
  | vfEnableSet
  | busMasterEnableChg (fn : Fin 256) (on : Bool)
  -- chapter 16
  | d3hotTransition (fn : Fin 256) (d3 : Bool)
  -- chapter 02
  | msixMask (fn vec : Nat)
  -- chapter 17
  | railAboveWarn (c : Fin 9) (mv low : BitVec 12)
  -- chapter 09
  | frameErr (lanes : BitVec 4)
deriving DecidableEq, Repr

end Sys2Proof
end

