-- ==== Sys2Proof/Decode.lean ====
section
/-! DEFINITION. Sys2Proof/Decode.lean: the words of the cells' instruction set (R230 to R235), read and written; and the
commands that spec/opcode_table.json spells by bits, of which there are none. -/
namespace Sys2Proof

/-! ### Instruction words: formats (R230) -/

/-- Format R: OP, d, a, b, FN. -/
def wordR (op : BitVec 6) (d a b : RegNo) (fn : BitVec 11) : Word := op ++ d ++ a ++ b ++ fn
/-- Format Q: OP, d, a, b, c, four zero bits and a zero, P. -/
def wordQ (op : BitVec 6) (d a b e : RegNo) (low : BitVec 6) : Word := op ++ d ++ a ++ b ++ e ++ low
/-- Formats I and B: OP, two register fields, IMM or OFS. -/
def wordI (op : BitVec 6) (d a : RegNo) (imm : BitVec 16) : Word := op ++ d ++ a ++ imm
/-- Format J: OP, OFS. -/
def wordJ (op : BitVec 6) (ofs : BitVec 26) : Word := op ++ ofs

/-- The bit P (R231, R233). -/
def Prec.bit (p : Prec) : BitVec 1 := match p with | .single => 0 | .double => 1
/-- The lane type, FN[10:9] of VEC (R234). -/
def Lane.code (t : Lane) : BitVec 2 := match t with | .int => 0 | .single => 1 | .double => 2
/-- The lane type of a floating-point operation. -/
def Prec.lane (p : Prec) : BitVec 2 := match p with | .single => 1 | .double => 2
/-- FN[1:0] of EDG (R231). -/
def EdgeMode.code (m : EdgeMode) : BitVec 2 := match m with | .rising => 1 | .falling => 2 | .both => 3

/-- FPU words (R233): P and the function. -/
def wordFpu (p : Prec) (d a b : RegNo) (f : BitVec 10) : Word := wordR 0x30 d a b (p.bit ++ f)
/-- VEC words (R234): lane type and function. -/
def wordVec (t : BitVec 2) (d a b : RegNo) (f : BitVec 9) : Word := wordR 0x38 d a b (t ++ f)
/-- VXFR words (R234): lane number and transfer. -/
def wordVxfr (l : BitVec 3) (d a : RegNo) (f : BitVec 3) : Word := wordR 0x3A d a 0 (l ++ (0 : BitVec 5) ++ f)
/-- SYS words (R231): the selector. -/
def wordSys (d : RegNo) (sel : BitVec 16) : Word := wordI 0x3E d 0 sel

/-- The cell and the word of an instruction of chapter 08; none for a command that is no instruction. -/
def isaEncode (i : Instr) : Option (Nat × Word) :=
  match i with
  | .add c d a b => some (c, wordR 0x01 d a b 0x000)
  | .sub c d a b => some (c, wordR 0x01 d a b 0x001)
  | .and c d a b => some (c, wordR 0x01 d a b 0x002)
  | .or c d a b => some (c, wordR 0x01 d a b 0x003)
  | .xor c d a b => some (c, wordR 0x01 d a b 0x004)
  | .shl c d a b => some (c, wordR 0x01 d a b 0x005)
  | .shr c d a b => some (c, wordR 0x01 d a b 0x006)
  | .sar c d a b => some (c, wordR 0x01 d a b 0x007)
  | .ror c d a b => some (c, wordR 0x01 d a b 0x008)
  | .slt c d a b => some (c, wordR 0x01 d a b 0x009)
  | .sltu c d a b => some (c, wordR 0x01 d a b 0x00A)
  | .min c d a b => some (c, wordR 0x01 d a b 0x00B)
  | .max c d a b => some (c, wordR 0x01 d a b 0x00C)
  | .minu c d a b => some (c, wordR 0x01 d a b 0x00D)
  | .maxu c d a b => some (c, wordR 0x01 d a b 0x00E)
  | .mul c d a b => some (c, wordR 0x01 d a b 0x010)
  | .mulhs c d a b => some (c, wordR 0x01 d a b 0x011)
  | .mulhu c d a b => some (c, wordR 0x01 d a b 0x012)
  | .divs c d a b => some (c, wordR 0x01 d a b 0x014)
  | .divu c d a b => some (c, wordR 0x01 d a b 0x015)
  | .rems c d a b => some (c, wordR 0x01 d a b 0x016)
  | .remu c d a b => some (c, wordR 0x01 d a b 0x017)
  | .clz c d a => some (c, wordR 0x01 d a 0 0x01C)
  | .popc c d a => some (c, wordR 0x01 d a 0 0x01D)
  | .addi c d a imm => some (c, wordI 0x02 d a imm)
  | .andi c d a imm => some (c, wordI 0x03 d a imm)
  | .ori c d a imm => some (c, wordI 0x04 d a imm)
  | .xori c d a imm => some (c, wordI 0x05 d a imm)
  | .shi c d a kind n => some (c, wordI 0x06 d a ((0 : BitVec 8) ++ kind ++ n))
  | .slti c d a imm => some (c, wordI 0x07 d a imm)
  | .cset c d p imm => some (c, wordI 0x08 d ((0 : BitVec 3) ++ p) imm)
  | .cput c d p imm => some (c, wordI 0x09 d ((0 : BitVec 3) ++ p) imm)
  | .ldbu c d a imm => some (c, wordI 0x10 d a imm)
  | .ldbs c d a imm => some (c, wordI 0x11 d a imm)
  | .ldhu c d a imm => some (c, wordI 0x12 d a imm)
  | .ldhs c d a imm => some (c, wordI 0x13 d a imm)
  | .ldwu c d a imm => some (c, wordI 0x14 d a imm)
  | .ldws c d a imm => some (c, wordI 0x15 d a imm)
  | .ldd c d a imm => some (c, wordI 0x16 d a imm)
  | .stb c d a imm => some (c, wordI 0x18 d a imm)
  | .sth c d a imm => some (c, wordI 0x19 d a imm)
  | .stw c d a imm => some (c, wordI 0x1A d a imm)
  | .std c d a imm => some (c, wordI 0x1B d a imm)
  | .vld c d a imm => some (c, wordI 0x1C d a imm)
  | .vst c d a imm => some (c, wordI 0x1D d a imm)
  | .beq c a b ofs => some (c, wordI 0x20 a b ofs)
  | .bne c a b ofs => some (c, wordI 0x21 a b ofs)
  | .blt c a b ofs => some (c, wordI 0x22 a b ofs)
  | .bge c a b ofs => some (c, wordI 0x23 a b ofs)
  | .bltu c a b ofs => some (c, wordI 0x24 a b ofs)
  | .bgeu c a b ofs => some (c, wordI 0x25 a b ofs)
  | .jmp c ofs => some (c, wordJ 0x26 ofs)
  | .call c ofs => some (c, wordJ 0x27 ofs)
  | .jreg c d a imm => some (c, wordI 0x28 d a imm)
  | .fadd c p d a b => some (c, wordFpu p d a b 0x000)
  | .fsub c p d a b => some (c, wordFpu p d a b 0x001)
  | .fmul c p d a b => some (c, wordFpu p d a b 0x002)
  | .fdiv c p d a b => some (c, wordFpu p d a b 0x003)
  | .fsqrt c p d a => some (c, wordFpu p d a 0 0x004)
  | .fmin c p d a b => some (c, wordFpu p d a b 0x005)
  | .fmax c p d a b => some (c, wordFpu p d a b 0x006)
  | .feq c p d a b => some (c, wordFpu p d a b 0x008)
  | .flt c p d a b => some (c, wordFpu p d a b 0x009)
  | .fle c p d a b => some (c, wordFpu p d a b 0x00A)
  | .fabs c p d a => some (c, wordFpu p d a 0 0x00C)
  | .fneg c p d a => some (c, wordFpu p d a 0 0x00D)
  | .ftoi c p d a => some (c, wordFpu p d a 0 0x010)
  | .itof c p d a => some (c, wordFpu p d a 0 0x011)
  | .widen c d a => some (c, wordFpu .double d a 0 0x012)
  | .narrow c d a => some (c, wordFpu .single d a 0 0x013)
  | .fma c p d a b e => some (c, wordQ 0x31 d a b e ((0 : BitVec 5) ++ p.bit))
  | .fms c p d a b e => some (c, wordQ 0x32 d a b e ((0 : BitVec 5) ++ p.bit))
  | .vadd c t d a b => some (c, wordVec t.code d a b 0x000)
  | .vsub c t d a b => some (c, wordVec t.code d a b 0x001)
  | .vmul c t d a b => some (c, wordVec t.code d a b 0x002)
  | .vdiv c p d a b => some (c, wordVec p.lane d a b 0x003)
  | .vmin c t d a b => some (c, wordVec t.code d a b 0x005)
  | .vmax c t d a b => some (c, wordVec t.code d a b 0x006)
  | .vabs c p d a => some (c, wordVec p.lane d a 0 0x00C)
  | .vneg c t d a => some (c, wordVec t.code d a 0 0x00D)
  | .vand c d a b => some (c, wordVec 0 d a b 0x010)
  | .vor c d a b => some (c, wordVec 0 d a b 0x011)
  | .vxor c d a b => some (c, wordVec 0 d a b 0x012)
  | .vcmplt c t d a b => some (c, wordVec t.code d a b 0x018)
  | .vcmpeq c t d a b => some (c, wordVec t.code d a b 0x019)
  | .vfma c p d a b e => some (c, wordQ 0x39 d a b e ((0 : BitVec 5) ++ p.bit))
  | .vget c d a l => some (c, wordVxfr l d a 0)
  | .vput c d a l => some (c, wordVxfr l d a 1)
  | .vsplat c d a => some (c, wordVxfr 0 d a 2)
  | .vsumd c d a => some (c, wordVxfr 0 d a 3)
  | .vsumi c d a => some (c, wordVxfr 0 d a 4)
  | .tmr c d a b => some (c, wordR 0x3C d a b 0)
  | .edg c d a b m => some (c, wordR 0x3D d a b ((0 : BitVec 9) ++ m.code))
  | .endCell c => some (c, wordSys 0 0)
  | .barrier c => some (c, wordSys 0 1)
  | .rdfps c d => some (c, wordSys d 2)
  | .clrfps c => some (c, wordSys 0 3)
  | .rdcyc c d => some (c, wordSys d 4)
  | _ => none

/-! ### Reading a word (R231 to R235) -/

/-- INT (R232); a one-operand function has b = 0 (R235). -/
def decodeInt (c : Nat) (d a b : RegNo) (fn : BitVec 11) : Option Instr :=
  match fn.toNat with
  | 0x000 => some (.add c d a b)
  | 0x001 => some (.sub c d a b)
  | 0x002 => some (.and c d a b)
  | 0x003 => some (.or c d a b)
  | 0x004 => some (.xor c d a b)
  | 0x005 => some (.shl c d a b)
  | 0x006 => some (.shr c d a b)
  | 0x007 => some (.sar c d a b)
  | 0x008 => some (.ror c d a b)
  | 0x009 => some (.slt c d a b)
  | 0x00A => some (.sltu c d a b)
  | 0x00B => some (.min c d a b)
  | 0x00C => some (.max c d a b)
  | 0x00D => some (.minu c d a b)
  | 0x00E => some (.maxu c d a b)
  | 0x010 => some (.mul c d a b)
  | 0x011 => some (.mulhs c d a b)
  | 0x012 => some (.mulhu c d a b)
  | 0x014 => some (.divs c d a b)
  | 0x015 => some (.divu c d a b)
  | 0x016 => some (.rems c d a b)
  | 0x017 => some (.remu c d a b)
  | 0x01C => if b = 0 then some (.clz c d a) else none
  | 0x01D => if b = 0 then some (.popc c d a) else none
  | _ => none

/-- FPU (R233): FN[10] is P, FN[9:0] the function. -/
def decodeFpu (c : Nat) (d a b : RegNo) (fn : BitVec 11) : Option Instr :=
  let p : Prec := if fn.extractLsb' 10 1 = 0 then .single else .double
  match (fn.extractLsb' 0 10).toNat with
  | 0x000 => some (.fadd c p d a b)
  | 0x001 => some (.fsub c p d a b)
  | 0x002 => some (.fmul c p d a b)
  | 0x003 => some (.fdiv c p d a b)
  | 0x004 => if b = 0 then some (.fsqrt c p d a) else none
  | 0x005 => some (.fmin c p d a b)
  | 0x006 => some (.fmax c p d a b)
  | 0x008 => some (.feq c p d a b)
  | 0x009 => some (.flt c p d a b)
  | 0x00A => some (.fle c p d a b)
  | 0x00C => if b = 0 then some (.fabs c p d a) else none
  | 0x00D => if b = 0 then some (.fneg c p d a) else none
  | 0x010 => if b = 0 then some (.ftoi c p d a) else none
  | 0x011 => if b = 0 then some (.itof c p d a) else none
  | 0x012 => if b = 0 ∧ p = .double then some (.widen c d a) else none
  | 0x013 => if b = 0 ∧ p = .single then some (.narrow c d a) else none
  | _ => none

/-- The lane type that FN[10:9] names; 0b11 is illegal (R234). -/
def laneIs (t : BitVec 2) : Option Lane :=
  match t.toNat with
  | 0 => some .int
  | 1 => some .single
  | 2 => some .double
  | _ => none

/-- The precision of floating-point lanes; integers have none. -/
def Lane.prec? (t : Lane) : Option Prec := match t with | .int => none | .single => some .single | .double => some .double

/-- VEC (R234): FN[10:9] is the lane type, FN[8:0] the function. -/
def decodeVec (c : Nat) (d a b : RegNo) (fn : BitVec 11) : Option Instr :=
  match laneIs (fn.extractLsb' 9 2) with
  | none => none
  | some t =>
    match (fn.extractLsb' 0 9).toNat with
    | 0x000 => some (.vadd c t d a b)
    | 0x001 => some (.vsub c t d a b)
    | 0x002 => some (.vmul c t d a b)
    | 0x003 => t.prec?.map (fun p => .vdiv c p d a b)
    | 0x005 => some (.vmin c t d a b)
    | 0x006 => some (.vmax c t d a b)
    | 0x00C => if b = 0 then t.prec?.map (fun p => .vabs c p d a) else none
    | 0x00D => if b = 0 then some (.vneg c t d a) else none
    | 0x010 => if t = .int then some (.vand c d a b) else none
    | 0x011 => if t = .int then some (.vor c d a b) else none
    | 0x012 => if t = .int then some (.vxor c d a b) else none
    | 0x018 => some (.vcmplt c t d a b)
    | 0x019 => some (.vcmpeq c t d a b)
    | _ => none

/-- VXFR (R234): b and FN[7:3] are 0; FN[10:8] is the lane of VGET and VPUT and 0 for the others. -/
def decodeVxfr (c : Nat) (d a b : RegNo) (fn : BitVec 11) : Option Instr :=
  let l := fn.extractLsb' 8 3
  if b = 0 ∧ fn.extractLsb' 3 5 = 0 then
    match (fn.extractLsb' 0 3).toNat with
    | 0 => some (.vget c d a l)
    | 1 => some (.vput c d a l)
    | 2 => if l = 0 then some (.vsplat c d a) else none
    | 3 => if l = 0 then some (.vsumd c d a) else none
    | 4 => if l = 0 then some (.vsumi c d a) else none
    | _ => none
  else none

/-- EDG (R231): FN[1:0] is the mode, FN[10:2] is 0. -/
def decodeEdg (c : Nat) (d a b : RegNo) (fn : BitVec 11) : Option Instr :=
  match fn.toNat with
  | 1 => some (.edg c d a b .rising)
  | 2 => some (.edg c d a b .falling)
  | 3 => some (.edg c d a b .both)
  | _ => none

/-- SYS (R231): IMM is the selector; a is 0, and d is 0 for END, BARRIER and CLRFPS. -/
def decodeSys (c : Nat) (d a : RegNo) (imm : BitVec 16) : Option Instr :=
  if a = 0 then
    match imm.toNat with
    | 0 => if d = 0 then some (.endCell c) else none
    | 1 => if d = 0 then some (.barrier c) else none
    | 2 => some (.rdfps c d)
    | 3 => if d = 0 then some (.clrfps c) else none
    | 4 => some (.rdcyc c d)
    | _ => none
  else none

/-- The low six bits of format Q (R230): P, with bits [5:1] zero. -/
def decodeQ (low : BitVec 6) (k : Prec → Instr) : Option Instr :=
  match low.toNat with
  | 0 => some (k .single)
  | 1 => some (k .double)
  | _ => none

/-- SHI (R231): IMM[7:6] is the kind, IMM[5:0] the count, IMM[15:8] is 0. -/
def decodeShi (c : Nat) (d a : RegNo) (imm : BitVec 16) : Option Instr :=
  if imm.extractLsb' 8 8 = 0 then some (.shi c d a (imm.extractLsb' 6 2) (imm.extractLsb' 0 6)) else none

/-- The half-word number p of CSET and CPUT, a[1:0]; a[4:2] is 0 (R231). -/
def decodeHalf (a : RegNo) (k : BitVec 2 → Instr) : Option Instr :=
  if a.extractLsb' 2 3 = 0 then some (k (a.extractLsb' 0 2)) else none

/-- The instruction that a word is at cell `c`; none when the word is an illegal instruction (R235). -/
def isaDecode (c : Nat) (w : Word) : Option Instr :=
  let d := w.extractLsb' 21 5
  let a := w.extractLsb' 16 5
  let b := w.extractLsb' 11 5
  let e := w.extractLsb' 6 5
  let fn := w.extractLsb' 0 11
  let imm := w.extractLsb' 0 16
  let low := w.extractLsb' 0 6
  match (w.extractLsb' 26 6).toNat with
  | 0x01 => decodeInt c d a b fn
  | 0x02 => some (.addi c d a imm)
  | 0x03 => some (.andi c d a imm)
  | 0x04 => some (.ori c d a imm)
  | 0x05 => some (.xori c d a imm)
  | 0x06 => decodeShi c d a imm
  | 0x07 => some (.slti c d a imm)
  | 0x08 => decodeHalf a (fun p => .cset c d p imm)
  | 0x09 => decodeHalf a (fun p => .cput c d p imm)
  | 0x10 => some (.ldbu c d a imm)
  | 0x11 => some (.ldbs c d a imm)
  | 0x12 => some (.ldhu c d a imm)
  | 0x13 => some (.ldhs c d a imm)
  | 0x14 => some (.ldwu c d a imm)
  | 0x15 => some (.ldws c d a imm)
  | 0x16 => some (.ldd c d a imm)
  | 0x18 => some (.stb c d a imm)
  | 0x19 => some (.sth c d a imm)
  | 0x1A => some (.stw c d a imm)
  | 0x1B => some (.std c d a imm)
  | 0x1C => some (.vld c d a imm)
  | 0x1D => some (.vst c d a imm)
  | 0x20 => some (.beq c d a imm)
  | 0x21 => some (.bne c d a imm)
  | 0x22 => some (.blt c d a imm)
  | 0x23 => some (.bge c d a imm)
  | 0x24 => some (.bltu c d a imm)
  | 0x25 => some (.bgeu c d a imm)
  | 0x26 => some (.jmp c (w.extractLsb' 0 26))
  | 0x27 => some (.call c (w.extractLsb' 0 26))
  | 0x28 => some (.jreg c d a imm)
  | 0x30 => decodeFpu c d a b fn
  | 0x31 => decodeQ low (fun p => .fma c p d a b e)
  | 0x32 => decodeQ low (fun p => .fms c p d a b e)
  | 0x38 => decodeVec c d a b fn
  | 0x39 => decodeQ low (fun p => .vfma c p d a b e)
  | 0x3A => decodeVxfr c d a b fn
  | 0x3C => if fn = 0 then some (.tmr c d a b) else none
  | 0x3D => decodeEdg c d a b fn
  | 0x3E => decodeSys c d a imm
  | _ => none

/-- The command that a word spells by the table's bits: no row of the table gives bits. (DEDUCED, log 13). -/
def decodeTableWord (_nbits _w : Nat) : Option Instr := none

end Sys2Proof
end

