-- ==== Sys2Proof/Config.lean ====
section
/-! DEFINITION. Sys2Proof/Config.lean: what an implementation fixes and what the spec leaves open. Every value here is opaque:
no proof can see it, so a statement about it holds for whatever value the hardware gives. -/
namespace Sys2Proof.Config

/-- CLK_CELL cycles by which issue `n` of a window stalls (R196: the timing of an instruction may differ).
(DESIGN CHOICE, log 9). -/
opaque cellStall : Nat → Nat
/-- Bits of the random source (R352), one draw per number. -/
opaque random : Nat → BitVec 256
/-- A value the spec leaves open, one per use: the model's counter `freeCtr` numbers the uses. -/
opaque freeValue : Nat → BitVec 64
/-- The ordering code is XE7720-EB (R1, R474). -/
opaque orderingEB : Bool
/-- Fuse-calibrated ING_LAT of a port at a speed and FEC setting, in 1/256 ns (R87). -/
opaque ingLat : Nat → Nat → Bool → BitVec 16
/-- Fuse-calibrated EGR_LAT (R87). -/
opaque egrLat : Nat → Nat → Bool → BitVec 16
/-- Octets of the IEC 62351-6 extension of a signed publication's frame, whose length is not stated (R110, R112).
(DESIGN CHOICE, log 128). -/
opaque gmacExt : BitVec 8
/-- Whether a port's PCS holds block lock or sync, and FEC alignment, at an elapsed time while its link is down: the link partner's
doing (R123, R125). (DESIGN CHOICE, log 38). -/
opaque pcsLock : Nat → Nat → Bool
opaque fecLock : Nat → Nat → Bool

/-- Aperture delay of an analog input (0 to 15 AUX, 16 TWA, 17 TWB) in the fuses, signed, 1/256 ns (R308, R399). -/
opaque aperture : Nat → BitVec 16
/-- Hash of the boot key in the fuses; all zeros while blank (R308). (DESIGN CHOICE, log 8). -/
opaque bootKeyHash : BitVec 384
/-- Device serial number, vendor ID and manufacturer identity in the fuses (R308). (DESIGN CHOICE, log 8). -/
opaque serial : BitVec 64
opaque vendor : BitVec 16
opaque mfrId : BitVec 11
/-- The debug-disable fuse (R308, R310). -/
opaque debugDisable : Bool

/-- Frames that bank `b` of PCACHE `n` holds of a total in use: how lines are spread over the banks is not stated (R205, R220).
(DESIGN CHOICE, log 67). -/
opaque bankFrames : Nat → Nat → Nat → BitVec 12

/-- The production root key in the fuses (R353). -/
opaque prodRoot : BitVec 256

end Sys2Proof.Config
end

