-- ==== Sys2Proof/Machine/RegMap.lean ====
section
/-! DEFINITION. Sys2Proof/Machine/RegMap.lean: the register tables of the spec (offset, fields, access and reset of every
register), one row per register or per run of equally spaced registers, taken from the tables of R57, R99 to R475. -/
namespace Sys2Proof.Machine

abbrev TIMEU.TIME_CTL : Nat := 0x040
abbrev TIMEU.TIME_STS : Nat := 0x044
abbrev TIMEU.SNAP_CMD : Nat := 0x048
abbrev TIMEU.SNAP_NS : Nat := 0x04C
abbrev TIMEU.SNAP_S_LO : Nat := 0x050
abbrev TIMEU.SNAP_S_HI : Nat := 0x054
abbrev TIMEU.INCR_LO : Nat := 0x058
abbrev TIMEU.INCR_HI : Nat := 0x05C
abbrev TIMEU.SLEW_LO : Nat := 0x060
abbrev TIMEU.SLEW_HI : Nat := 0x064
abbrev TIMEU.SLEW_RATE : Nat := 0x068
abbrev TIMEU.SLEW_PEND_LO : Nat := 0x06C
abbrev TIMEU.SLEW_PEND_HI : Nat := 0x070
abbrev TIMEU.STEP_NS : Nat := 0x074
abbrev TIMEU.STEP_S_LO : Nat := 0x078
abbrev TIMEU.STEP_S_HI : Nat := 0x07C
abbrev TIMEU.STEP_CMD : Nat := 0x080
abbrev TIMEU.STEP_STS : Nat := 0x084
abbrev TIMEU.JUMP_LIMIT : Nat := 0x088
abbrev TIMEU.SYNC_REPORT : Nat := 0x08C
abbrev TIMEU.SYNC_CFG : Nat := 0x090
abbrev TIMEU.TQ_CFG : Nat := 0x094
abbrev TIMEU.UTC_CFG : Nat := 0x098
abbrev TIMEU.LEAP_AT_LO : Nat := 0x09C
abbrev TIMEU.LEAP_AT_HI : Nat := 0x0A0
abbrev TIMEU.PPS_CTL : Nat := 0x0A4
abbrev TIMEU.PPS_WIDTH : Nat := 0x0A8
abbrev TIMEU.PPS_OFS : Nat := 0x0AC
abbrev TIMEU.CAP_STS : Nat := 0x0B0
abbrev TIMEU.CAP_POP : Nat := 0x0B4
abbrev TIMEU.CAP_DATA0 : Nat := 0x0B8
abbrev TIMEU.CAP_DATA1 : Nat := 0x0BC
abbrev TIMEU.CAP_DATA2 : Nat := 0x0C0
abbrev TIMEU.CAP_DATA3 : Nat := 0x0C4
abbrev TIMEU.SCH_NS : Nat := 0x0D0
abbrev TIMEU.SCH_S_LO : Nat := 0x0D4
abbrev TIMEU.SCH_S_HI : Nat := 0x0D8
abbrev TIMEU.SCH_CMD : Nat := 0x0DC
abbrev TIMEU.SCH_STS : Nat := 0x0E0
abbrev TIMEU.TIO_CFG (i : Nat) : Nat := 0x100 + 4 * i
abbrev TIMEUW.PTP_CTL : Nat := 0x010
abbrev TIMEUW.ING_LAT : Nat := 0x014
abbrev TIMEUW.EGR_LAT : Nat := 0x018
abbrev TIMEUW.BOARD_ING : Nat := 0x01C
abbrev TIMEUW.BOARD_EGR : Nat := 0x020
abbrev TIMEUW.LINK_DELAY : Nat := 0x024
abbrev TIMEUW.TXTS_STS : Nat := 0x028
abbrev TIMEUW.TXTS_POP : Nat := 0x02C
abbrev TIMEUW.TXTS_DATA0 : Nat := 0x030
abbrev TIMEUW.TXTS_DATA1 : Nat := 0x034
abbrev TIMEUW.TXTS_DATA2 : Nat := 0x038
abbrev TIMEUW.TXTS_DATA3 : Nat := 0x03C
abbrev TIMEUW.TC_FU_MISS : Nat := 0x040
abbrev TIMEUW.DOMAIN_DROP : Nat := 0x044
abbrev PORT.PORT_CTL : Nat := 0x040
abbrev PORT.PORT_STS : Nat := 0x044
abbrev PORT.PVID : Nat := 0x048
abbrev PORT.PORT_MTU : Nat := 0x04C
abbrev PORT.RX_FRAMES : Nat := 0x050
abbrev PORT.RX_FCS_ERR : Nat := 0x054
abbrev PORT.RX_LEN_DROP : Nat := 0x058
abbrev PORT.RX_VLAN_DROP : Nat := 0x05C
abbrev PORT.RX_CTRL_DROP : Nat := 0x060
abbrev PORT.TX_FRAMES : Nat := 0x064
abbrev PORT.TX_SKIP : Nat := 0x068
abbrev PORT.TX_DROP : Nat := 0x06C
abbrev PORT.TX_LATE : Nat := 0x070
abbrev PORT.LINK_DOWNS : Nat := 0x074
abbrev PORT.FEC_CORR : Nat := 0x078
abbrev PORT.CNT_CLR : Nat := 0x07C
abbrev PORT.VLAN_MAP (i : Nat) : Nat := 0x400 + 4 * i
abbrev REDUN.DD_AGE : Nat := 0x040
abbrev REDUNW.PAIR_CTL : Nat := 0x010
abbrev REDUNW.PAIR_STS : Nat := 0x014
abbrev REDUNW.DD_USED : Nat := 0x018
abbrev REDUNW.DUP_DROP : Nat := 0x01C
abbrev REDUNW.OUT_OF_WIN : Nat := 0x020
abbrev REDUNW.DD_FULL : Nat := 0x024
abbrev REDUNW.WRONG_LAN : Nat := 0x028
abbrev REDUNW.UNTAGGED : Nat := 0x02C
abbrev REDUNW.HSR_FWD_CNT : Nat := 0x030
abbrev REDUNW.HSR_OWN_REMOVED : Nat := 0x034
abbrev REDUNW.CNT_CLR : Nat := 0x038
abbrev EGRESS.EGR_CTL : Nat := 0x040
abbrev EGRESS.LAUNCH_OFS : Nat := 0x044
abbrev EGRESS.MAC_BASE_LO : Nat := 0x048
abbrev EGRESS.MAC_BASE_HI : Nat := 0x04C
abbrev EGRESS.PUB_BASE_LO : Nat := 0x050
abbrev EGRESS.PUB_BASE_HI : Nat := 0x054
abbrev EGRESS.PUB_DOORBELL : Nat := 0x058
abbrev EGRESS.PUB_RESULT : Nat := 0x05C
abbrev EGRESS.PUB_COUNT : Nat := 0x060
abbrev EGRESSW.SCHED_STS : Nat := 0x010
abbrev EGRESSW.URGENT_LOAD : Nat := 0x014
abbrev EGRESSW.GUARD_HOLDS : Nat := 0x018
abbrev PORTER.PORTER_CTL : Nat := 0x040
abbrev PORTER.SDT_BASE_LO : Nat := 0x044
abbrev PORTER.SDT_BASE_HI : Nat := 0x048
abbrev PORTER.DESC_STAGE_LO : Nat := 0x04C
abbrev PORTER.DESC_STAGE_HI : Nat := 0x050
abbrev PORTER.DESC_DOORBELL : Nat := 0x054
abbrev PORTER.DESC_RESULT : Nat := 0x058
abbrev PORTER.HASH_SEED0 : Nat := 0x05C
abbrev PORTER.HASH_SEED1 : Nat := 0x060
abbrev PORTER.MT_STS : Nat := 0x064
abbrev PORTER.CTX_STS : Nat := 0x068
abbrev PORTER.HMAC_ADMIT : Nat := 0x06C
abbrev PORTER.ADMIT_PORT (i : Nat) : Nat := 0x070 + 4 * i
abbrev PORTER.ADMIT_LANE (i : Nat) : Nat := 0x080 + 4 * i
abbrev PORTER.ADMIT_FRAMES : Nat := 0x090
abbrev PORTER.ADMIT_HMAC : Nat := 0x094
abbrev PORTER.ADMIT_STS : Nat := 0x098
abbrev PORTER.RULE_KEY (i : Nat) : Nat := 0x0A0 + 4 * i
abbrev PORTER.RULE_CMD : Nat := 0x0B0
abbrev PORTER.RULE_RESULT : Nat := 0x0B4
abbrev PORTER.DISC_CTL : Nat := 0x0C0
abbrev PORTER.DISC_STS : Nat := 0x0C4
abbrev PORTER.MISS_DROP : Nat := 0x0D0
abbrev PORTER.DISC_LIMITED : Nat := 0x0D4
abbrev PORTER.DISC_FULL : Nat := 0x0D8
abbrev PORTER.DESC_MISSES : Nat := 0x0DC
abbrev PORTER.REMOVED_INFLIGHT : Nat := 0x0E0
abbrev PORTER.AUTH_FAIL_AFTER : Nat := 0x0E4
abbrev PORTER.CNT_CLR : Nat := 0x0E8
abbrev PORTER.DISC_RULE_W0 (i : Nat) : Nat := 0x100 + 16 * i
abbrev PORTER.DISC_RULE_W1 (i : Nat) : Nat := 0x104 + 16 * i
abbrev PORTER.DISC_RULE_W2 (i : Nat) : Nat := 0x108 + 16 * i
abbrev PORTER.DISC_RULE_W3 (i : Nat) : Nat := 0x10C + 16 * i
abbrev PORTER.Q_BASE_LO (i : Nat) : Nat := 0x300 + 32 * i
abbrev PORTER.Q_BASE_HI (i : Nat) : Nat := 0x304 + 32 * i
abbrev PORTER.Q_CFG (i : Nat) : Nat := 0x308 + 32 * i
abbrev PORTER.Q_PI (i : Nat) : Nat := 0x30C + 32 * i
abbrev PORTER.Q_CI (i : Nat) : Nat := 0x310 + 32 * i
abbrev PORTER.Q_DROP (i : Nat) : Nat := 0x314 + 32 * i
abbrev PORTERW.PIPE_FRAMES : Nat := 0x010
abbrev PORTERW.PIPE_HELD : Nat := 0x014
abbrev PORTERW.PEND_FULL : Nat := 0x018
abbrev CRYPTO.HMAC_Q : Nat := 0x040
abbrev CRYPTO.GMAC_PASS : Nat := 0x044
abbrev CRYPTO.GMAC_FAIL : Nat := 0x048
abbrev CRYPTO.HMAC_PASS : Nat := 0x04C
abbrev CRYPTO.HMAC_FAIL : Nat := 0x050
abbrev CRYPTO.WITHDRAWN : Nat := 0x054
abbrev CRYPTO.QFULL : Nat := 0x058
abbrev CRYPTO.PARENT_REVOKED : Nat := 0x05C
abbrev CRYPTO.SIGNED : Nat := 0x060
abbrev CRYPTO.SIGN_REFUSED : Nat := 0x064
abbrev CRYPTO.CNT_CLR : Nat := 0x068
abbrev CRYPTOW.ENG_JOBS : Nat := 0x010
abbrev CRYPTOW.ENG_BUSY : Nat := 0x014
abbrev ALIGN.ALIGN_CTL : Nat := 0x040
abbrev ALIGN.STATUS_BASE : Nat := 0x044
abbrev ALIGN.LOCK_TOL : Nat := 0x048
abbrev ALIGN.FILL_MARGIN : Nat := 0x04C
abbrev ALIGN.CTX_SEL : Nat := 0x050
abbrev ALIGN.CTX_STATE : Nat := 0x054
abbrev ALIGN.CTX_FILLED_LO : Nat := 0x058
abbrev ALIGN.CTX_FILLED_HI : Nat := 0x05C
abbrev ALIGN.CTX_RESID : Nat := 0x060
abbrev ALIGN.CTX_LATE : Nat := 0x064
abbrev ALIGN.CTX_EARLY : Nat := 0x068
abbrev ALIGN.CTX_DUP : Nat := 0x06C
abbrev ALIGN.CTX_TIMING : Nat := 0x070
abbrev ALIGN.CTX_SUBST : Nat := 0x074
abbrev ALIGN.CTX_RELOCKS : Nat := 0x078
abbrev ALIGN.LATE : Nat := 0x080
abbrev ALIGN.EARLY : Nat := 0x084
abbrev ALIGN.DUP : Nat := 0x088
abbrev ALIGN.TIMING : Nat := 0x08C
abbrev ALIGN.SUBST : Nat := 0x090
abbrev ALIGN.RELOCKS : Nat := 0x094
abbrev ALIGN.DISABLED_DROP : Nat := 0x098
abbrev ALIGN.CNT_CLR : Nat := 0x09C
abbrev ALIGNW.LANE_VALUES : Nat := 0x010
abbrev ALIGNW.LANE_DEPTH : Nat := 0x014
abbrev ALIGNW.LANE_PEAK : Nat := 0x018
abbrev ALIGNW.LANE_FULL : Nat := 0x01C
abbrev EXB.EXB_LOAD : Nat := 0x040
abbrev EXB.CELL_MAP : Nat := 0x044
abbrev EXB.OVERRUNS : Nat := 0x048
abbrev EXB.PROG_FAULTS : Nat := 0x04C
abbrev EXB.LOCAL_LATE : Nat := 0x050
abbrev EXB.CNT_CLR : Nat := 0x054
abbrev EXB.SLOT_GUEST (i : Nat) : Nat := 0x100 + 16 * i
abbrev EXB.SLOT_STATE (i : Nat) : Nat := 0x104 + 16 * i
abbrev EXB.SLOT_BUDGET (i : Nat) : Nat := 0x108 + 16 * i
abbrev EXB.SLOT_HALT_C (i : Nat) : Nat := 0x10C + 16 * i
abbrev EXBW.CELL_GUEST : Nat := 0x010
abbrev EXBW.CELL_EXEC : Nat := 0x014
abbrev EXBW.CELL_EXEC_MAX : Nat := 0x018
abbrev EXBW.CELL_FAULT : Nat := 0x01C
abbrev EXBW.CELL_FAULT_PC : Nat := 0x020
abbrev EXBW.CELL_FAULT_ADDR : Nat := 0x024
abbrev EXBW.CELL_ECC_CORR : Nat := 0x028
abbrev PCACHE.PIN_LINES : Nat := 0x040
abbrev PCACHE.XCH_LINES : Nat := 0x044
abbrev PCACHE.MOVE_PEAK : Nat := 0x048
abbrev PCACHE.UPDATES : Nat := 0x04C
abbrev PCACHE.CNT_CLR : Nat := 0x050
abbrev PCACHEW.BANK_ECC_CORR : Nat := 0x010
abbrev PCACHEW.BANK_FRAMES : Nat := 0x014
abbrev POINT.PIMG_BASE_LO : Nat := 0x040
abbrev POINT.PIMG_BASE_HI : Nat := 0x044
abbrev POINT.PT_INDEX : Nat := 0x048
abbrev POINT.PT_DATA_LO : Nat := 0x04C
abbrev POINT.PT_DATA_HI : Nat := 0x050
abbrev POINT.PT_CMD : Nat := 0x054
abbrev POINT.PT_STS : Nat := 0x058
abbrev POINT.INGRESS_WRITES : Nat := 0x05C
abbrev POINT.COMMIT_WRITES : Nat := 0x060
abbrev POINT.MGR_WRITES : Nat := 0x064
abbrev POINT.CNT_CLR : Nat := 0x068
abbrev POINTW.PORT_WRITES : Nat := 0x010
abbrev POINTW.QUEUE_DEPTH : Nat := 0x014
abbrev POINTW.QUEUE_PEAK : Nat := 0x018
abbrev EXB.GCMD_IMG_LO : Nat := 0x080
abbrev EXB.GCMD_IMG_HI : Nat := 0x084
abbrev EXB.GCMD_CELLS : Nat := 0x088
abbrev EXB.GCMD : Nat := 0x08C
abbrev EXB.GCMD_RESULT : Nat := 0x090
abbrev EXB.PATCH_LIST_LO : Nat := 0x094
abbrev EXB.PATCH_LIST_HI : Nat := 0x098
abbrev EXB.PATCH_CMD : Nat := 0x09C
abbrev EXB.PATCH_STS : Nat := 0x0A0
abbrev EXB.PATCH_APPLIED_C : Nat := 0x0A4
abbrev EXB.RET_STS : Nat := 0x0A8
abbrev HINGE.HINGE_CTL : Nat := 0x040
abbrev HINGE.HINGE_STS : Nat := 0x044
abbrev HINGE.NET_CFG : Nat := 0x048
abbrev HINGE.HB_VLAN : Nat := 0x04C
abbrev HINGE.MIR_RATE : Nat := 0x050
abbrev HINGE.MIR_FAST : Nat := 0x054
abbrev HINGE.MIR_SLOW : Nat := 0x058
abbrev HINGE.MIR_FAST_IMG : Nat := 0x05C
abbrev HINGE.BULK_STS : Nat := 0x060
abbrev HINGE.IMG_ABSENT : Nat := 0x064
abbrev HINGE.LINES_LATE : Nat := 0x068
abbrev HINGE.DIVERGE : Nat := 0x06C
abbrev HINGE.FRAME_ERR : Nat := 0x070
abbrev HINGE.CTL_RETRY : Nat := 0x074
abbrev HINGE.NET_FOREIGN : Nat := 0x078
abbrev HINGE.HB_LOSSES : Nat := 0x07C
abbrev HINGE.CNT_CLR : Nat := 0x080
abbrev HINGE.BULK_BASE_LO (i : Nat) : Nat := 0x100 + 16 * i
abbrev HINGE.BULK_BASE_HI (i : Nat) : Nat := 0x104 + 16 * i
abbrev HINGE.BULK_LEN_LO (i : Nat) : Nat := 0x108 + 16 * i
abbrev HINGE.BULK_LEN_HI (i : Nat) : Nat := 0x10C + 16 * i
abbrev HINGE.ALLOW_LO (i : Nat) : Nat := 0x400 + 8 * i
abbrev HINGE.ALLOW_HI (i : Nat) : Nat := 0x404 + 8 * i
abbrev HINGEW.LANE_STS : Nat := 0x010
abbrev HINGEW.LANE_SYNC_ERR : Nat := 0x014
abbrev HINGEW.LANE_DOWNS : Nat := 0x018
abbrev ROLE.ROLE_STS : Nat := 0x040
abbrev ROLE.ROLE_CTL : Nat := 0x044
abbrev ROLE.ROLE_CMD : Nat := 0x048
abbrev ROLE.PHASE : Nat := 0x04C
abbrev ROLE.UNIT_STS : Nat := 0x050
abbrev ROLE.TAKEOVERS : Nat := 0x054
abbrev ROLE.ISOLATIONS : Nat := 0x058
abbrev ROLE.HINGE_LOSSES : Nat := 0x05C
abbrev ROLE.NET_LOSSES : Nat := 0x060
abbrev ROLE.CNT_CLR : Nat := 0x064
abbrev CHIP.CHIP_STS : Nat := 0x044
abbrev CHIP.CHIP_CTL : Nat := 0x048
abbrev CHIP.PW_MS : Nat := 0x04C
abbrev CHIP.MODE_CMD : Nat := 0x050
abbrev CHIP.MODE_RESULT : Nat := 0x054
abbrev BOOT.BOOT_STS : Nat := 0x040
abbrev BOOT.BOOT_SEQ0 : Nat := 0x044
abbrev BOOT.BOOT_SEQ1 : Nat := 0x048
abbrev BOOT.BOOT_TIME : Nat := 0x04C
abbrev BOOT.BOOT_ID_LO : Nat := 0x050
abbrev BOOT.BOOT_ID_HI : Nat := 0x054
abbrev BOOT.BOOT_WRITES : Nat := 0x058
abbrev BOOT.BOOT_FAIL_ADDR : Nat := 0x05C
abbrev FUSE.FUSE_STS : Nat := 0x040
abbrev FUSE.DSN_LO : Nat := 0x044
abbrev FUSE.DSN_HI : Nat := 0x048
abbrev FUSE.FUSE_IDS : Nat := 0x04C
abbrev FUSE.KEYHASH (i : Nat) : Nat := 0x050 + 4 * i
abbrev DEBUG.DBG_STS : Nat := 0x040
abbrev DEBUG.DBG_CTL : Nat := 0x044
abbrev GCTL.G_STS : Nat := 0x040
abbrev GCTL.G_CYC_C : Nat := 0x044
abbrev GCTL.G_CYC_S_LO : Nat := 0x048
abbrev GCTL.G_CYC_S_HI : Nat := 0x04C
abbrev GCTL.G_BUILD_LO : Nat := 0x050
abbrev GCTL.G_BUILD_HI : Nat := 0x054
abbrev GCTL.G_CTL : Nat := 0x058
abbrev GSTR.STR_SEL : Nat := 0x040
abbrev GSTR.STR_STS : Nat := 0x044
abbrev GSTR.STR_D0 : Nat := 0x048
abbrev GSTR.STR_D1 : Nat := 0x04C
abbrev GSTR.STR_D2 : Nat := 0x050
abbrev GSTR.STR_D3 : Nat := 0x054
abbrev GQ.SQ_BASE_LO : Nat := 0x040
abbrev GQ.SQ_BASE_HI : Nat := 0x044
abbrev GQ.CQ_BASE_LO : Nat := 0x048
abbrev GQ.CQ_BASE_HI : Nat := 0x04C
abbrev GQ.SQ_CFG : Nat := 0x050
abbrev GQ.SQ_PI : Nat := 0x054
abbrev GQ.SQ_CI : Nat := 0x058
abbrev GQ.Q_STS : Nat := 0x05C
abbrev GQ.Q_SHARE_RD : Nat := 0x060
abbrev GQ.Q_DONE : Nat := 0x064
abbrev GQ.Q_ERRS : Nat := 0x068
abbrev GLV.LV_HEAD_LO : Nat := 0x040
abbrev GLV.LV_HEAD_HI : Nat := 0x044
abbrev GLV.LV_SEL_LO : Nat := 0x048
abbrev GLV.LV_SEL_HI : Nat := 0x04C
abbrev GLV.LV_STS : Nat := 0x050
abbrev GLV.LV_DATA (i : Nat) : Nat := 0x100 + 4 * i
abbrev HOSTIF.FN_SEL : Nat := 0x040
abbrev HOSTIF.FN_STS : Nat := 0x044
abbrev HOSTIF.FN_WIN_BASE_LO : Nat := 0x048
abbrev HOSTIF.FN_WIN_BASE_HI : Nat := 0x04C
abbrev HOSTIF.FN_WIN_LEN_LO : Nat := 0x050
abbrev HOSTIF.FN_WIN_LEN_HI : Nat := 0x054
abbrev HOSTIF.FN_WIN_CTL : Nat := 0x058
abbrev HOSTIF.FN_GRANT_LO (i : Nat) : Nat := 0x060 + 8 * i
abbrev HOSTIF.FN_GRANT_HI (i : Nat) : Nat := 0x064 + 8 * i
abbrev HOSTIF.FN_RESET : Nat := 0x080
abbrev COURIER.SEGMENTS : Nat := 0x040
abbrev COURIER.BYTES_H2D : Nat := 0x044
abbrev COURIER.BYTES_D2H : Nat := 0x048
abbrev COURIER.HOSTFAULTS : Nat := 0x04C
abbrev COURIER.DATAERRS : Nat := 0x050
abbrev COURIER.FN_RESETS : Nat := 0x054
abbrev COURIER.CNT_CLR : Nat := 0x058
abbrev COURIER.Q_SHARE (i : Nat) : Nat := 0x400 + 4 * i
abbrev COURIERW.ENG_SEGS : Nat := 0x010
abbrev COURIERW.ENG_QUEUE : Nat := 0x014
abbrev KEYRING.KR_CTL : Nat := 0x040
abbrev KEYRING.KR_STS : Nat := 0x044
abbrev KEYRING.KR_SEQ_LO : Nat := 0x048
abbrev KEYRING.KR_SEQ_HI : Nat := 0x04C
abbrev KEYRING.KR_ARG0 : Nat := 0x050
abbrev KEYRING.KR_ARG1 : Nat := 0x054
abbrev KEYRING.KR_ARG2 : Nat := 0x058
abbrev KEYRING.KR_CMD : Nat := 0x05C
abbrev KEYRING.KR_RESULT : Nat := 0x060
abbrev KEYRING.KR_RES_SEQ_LO : Nat := 0x064
abbrev KEYRING.KR_RES_SEQ_HI : Nat := 0x068
abbrev KEYRING.KR_DATA (i : Nat) : Nat := 0x070 + 4 * i
abbrev KEYRING.KR_QSEL : Nat := 0x0A0
abbrev KEYRING.KR_QATTR : Nat := 0x0A4
abbrev KEYRING.KR_QLABEL : Nat := 0x0A8
abbrev KEYRING.KR_QCHILD : Nat := 0x0AC
abbrev KEYRING.KR_STORE_STS : Nat := 0x0B0
abbrev KEYRING.KR_STORE_SEQ_LO : Nat := 0x0B4
abbrev KEYRING.KR_STORE_SEQ_HI : Nat := 0x0B8
abbrev KEYRING.KR_LOAD_STS : Nat := 0x0BC
abbrev KEYRING.CMDS_OK : Nat := 0x0C0
abbrev KEYRING.CMDS_REFUSED : Nat := 0x0C4
abbrev KEYRING.REMASKS : Nat := 0x0C8
abbrev KEYRING.USES_REFUSED : Nat := 0x0CC
abbrev KEYRING.CNT_CLR : Nat := 0x0D0
abbrev KEYRINGW.ENG_OPS : Nat := 0x010
abbrev LEDGER.LG_BASE_LO : Nat := 0x040
abbrev LEDGER.LG_BASE_HI : Nat := 0x044
abbrev LEDGER.LG_CFG : Nat := 0x048
abbrev LEDGER.LG_HEAD_LO : Nat := 0x04C
abbrev LEDGER.LG_HEAD_HI : Nat := 0x050
abbrev LEDGER.LG_HEAD_OFS : Nat := 0x054
abbrev LEDGER.LG_TAIL_LO : Nat := 0x058
abbrev LEDGER.LG_TAIL_HI : Nat := 0x05C
abbrev LEDGER.LG_TAIL_OFS : Nat := 0x060
abbrev LEDGER.LG_CLEARS : Nat := 0x064
abbrev LEDGER.LG_CODE_SEL : Nat := 0x070
abbrev LEDGER.LG_CODE_CFG : Nat := 0x074
abbrev LEDGER.LG_CODE_STS : Nat := 0x078
abbrev LEDGER.RECORDS : Nat := 0x080
abbrev LEDGER.SUPPRESSED : Nat := 0x084
abbrev LEDGER.INGEST_FULL : Nat := 0x088
abbrev LEDGER.CNT_CLR : Nat := 0x08C
abbrev LEDGER.LG_SEL_LO : Nat := 0x090
abbrev LEDGER.LG_SEL_HI : Nat := 0x094
abbrev LEDGER.LG_SEL_STS : Nat := 0x098
abbrev LEDGER.LG_DATA (i : Nat) : Nat := 0x100 + 4 * i
abbrev LEDGER.LG_TOKEN (i : Nat) : Nat := 0x200 + 4 * i
abbrev LEDGER.LG_CLR_CMD : Nat := 0x230
abbrev LEDGER.LG_CLR_STS : Nat := 0x234
abbrev LEDGER.HIST_SEL : Nat := 0x300
abbrev LEDGER.HIST_GEN : Nat := 0x304
abbrev LEDGER.HIST_COUNT_LO : Nat := 0x308
abbrev LEDGER.HIST_COUNT_HI : Nat := 0x30C
abbrev LEDGER.HIST_SUM_LO : Nat := 0x310
abbrev LEDGER.HIST_SUM_HI : Nat := 0x314
abbrev LEDGER.HIST_MIN : Nat := 0x318
abbrev LEDGER.HIST_MAX : Nat := 0x31C
abbrev LEDGER.HIST_MIN_NS : Nat := 0x320
abbrev LEDGER.HIST_MIN_S_LO : Nat := 0x324
abbrev LEDGER.HIST_MIN_S_HI : Nat := 0x328
abbrev LEDGER.HIST_MAX_NS : Nat := 0x32C
abbrev LEDGER.HIST_MAX_S_LO : Nat := 0x330
abbrev LEDGER.HIST_MAX_S_HI : Nat := 0x334
abbrev LEDGER.HIST_BIN (i : Nat) : Nat := 0x380 + 4 * i
abbrev LEDGER.MET_CFG (i : Nat) : Nat := 0x400 + 4 * i
abbrev CHECK.SCANS : Nat := 0x040
abbrev CHECK.SCAN_ERRS : Nat := 0x044
abbrev CHECK.CNT_CLR : Nat := 0x048
abbrev CHECKW.CK_ADDR_LO : Nat := 0x010
abbrev CHECKW.CK_ADDR_HI : Nat := 0x014
abbrev CHECKW.CK_LEN : Nat := 0x018
abbrev CHECKW.CK_CTL : Nat := 0x01C
abbrev CHECKW.CK_STS : Nat := 0x020
abbrev CHECKW.CK_DONE_LO : Nat := 0x024
abbrev CHECKW.CK_DONE_HI : Nat := 0x028
abbrev CHECKW.CK_RES_LO : Nat := 0x02C
abbrev CHECKW.CK_RES_HI : Nat := 0x030
abbrev ADC.ADC_CTL : Nat := 0x040
abbrev ADC.PAIR_CFG (i : Nat) : Nat := 0x044 + 4 * i
abbrev ADC.ADC_STS : Nat := 0x04C
abbrev ADC.VREF_MEAS : Nat := 0x050
abbrev ADC.TW_BOARD_DLY_A : Nat := 0x054
abbrev ADC.TW_BOARD_DLY_B : Nat := 0x058
abbrev ADC.SKEW (i : Nat) : Nat := 0x05C + 4 * i
abbrev ADC.CAL_SEL : Nat := 0x064
abbrev ADC.CAL_REF : Nat := 0x068
abbrev ADC.CAL_CMD : Nat := 0x06C
abbrev ADC.CAL_STS : Nat := 0x070
abbrev ADC.CAL_OFS_RES : Nat := 0x074
abbrev ADC.CAL_GAIN_RES : Nat := 0x078
abbrev ADC.CONV_OVERRUNS : Nat := 0x080
abbrev ADC.REF_BAD_EVENTS : Nat := 0x084
abbrev ADC.CNT_CLR : Nat := 0x088
abbrev ADC.COEF_OFS (i : Nat) : Nat := 0x100 + 8 * i
abbrev ADC.COEF_GAIN (i : Nat) : Nat := 0x104 + 8 * i
abbrev ADCW.CORE_CFG : Nat := 0x010
abbrev ADCW.CORE_SEQ : Nat := 0x014
abbrev ADCW.CORE_GRID : Nat := 0x018
abbrev ADCW.CORE_SWTRIG : Nat := 0x01C
abbrev ADCW.CORE_STS : Nat := 0x020
abbrev ADCW.CONV_OVERRUN : Nat := 0x024
abbrev ADCW.CORE_CONVS : Nat := 0x028
abbrev ADCW.SEQ (i : Nat) : Nat := 0x040 + 4 * i
abbrev FILTW.FC_CFG : Nat := 0x010
abbrev FILTW.FC_DEC : Nat := 0x014
abbrev FILTW.FC_BANKA : Nat := 0x018
abbrev FILTW.FC_BANKB : Nat := 0x01C
abbrev FILTW.FC_CMD : Nat := 0x020
abbrev FILTW.FC_STS : Nat := 0x024
abbrev FILTW.FC_OUT : Nat := 0x028
abbrev FILTW.FC_THR_HI : Nat := 0x02C
abbrev FILTW.FC_THR_LO : Nat := 0x030
abbrev FILTW.FC_THR_CFG : Nat := 0x034
abbrev FILTW.FC_THR_STS : Nat := 0x038
abbrev FILTW.FC_LAST : Nat := 0x03C
abbrev FILTW.FC_INDEX : Nat := 0x040
abbrev FILTW.FC_OUTS : Nat := 0x044
abbrev FILTW.FC_THR_EVENTS : Nat := 0x048
abbrev ACQ.ACQ_WIN_BASE_LO : Nat := 0x040
abbrev ACQ.ACQ_WIN_BASE_HI : Nat := 0x044
abbrev ACQ.ACQ_WIN_LEN : Nat := 0x048
abbrev ACQ.WR_MBPS : Nat := 0x04C
abbrev ACQ.CNT_CLR : Nat := 0x050
abbrev ACQW.AU_CFG : Nat := 0x010
abbrev ACQW.AU_BUF_OFS : Nat := 0x014
abbrev ACQW.AU_SEG_LEN : Nat := 0x018
abbrev ACQW.AU_NSEG : Nat := 0x01C
abbrev ACQW.AU_PRE : Nat := 0x020
abbrev ACQW.AU_POST : Nat := 0x024
abbrev ACQW.AU_AVG : Nat := 0x028
abbrev ACQW.AU_TRIG : Nat := 0x02C
abbrev ACQW.AU_GRID_N : Nat := 0x030
abbrev ACQW.AU_FRONT_W : Nat := 0x034
abbrev ACQW.AU_CMD : Nat := 0x038
abbrev ACQW.AU_STS : Nat := 0x03C
abbrev ACQW.AU_SEG_PTR : Nat := 0x040
abbrev ACQW.AU_RECORDS : Nat := 0x044
abbrev ACQW.AU_REARM_TRIGS : Nat := 0x048
abbrev ACQW.AU_RETRIGS : Nat := 0x04C
abbrev ACQW.AU_FIFO_DROP : Nat := 0x050
abbrev ACQW.AU_LOST : Nat := 0x054
abbrev ACQW.AU_AVG_DROP : Nat := 0x058
abbrev ACQW.AU_FIFO_PEAK : Nat := 0x05C
abbrev DRAMC.SCRUB_CTL : Nat := 0x040
abbrev DRAMC.SCRUB_STS : Nat := 0x044
abbrev DRAMC.UE_ADDR_LO : Nat := 0x048
abbrev DRAMC.UE_ADDR_HI : Nat := 0x04C
abbrev DRAMC.CE_TOTAL : Nat := 0x050
abbrev DRAMC.UE_TOTAL : Nat := 0x054
abbrev DRAMC.SCRUB_FIX : Nat := 0x058
abbrev DRAMC.CNT_CLR : Nat := 0x05C
abbrev DRAMC.GSTORE_BASE_LO : Nat := 0x060
abbrev DRAMC.GSTORE_BASE_HI : Nat := 0x064
abbrev DRAMCW.CH_CE : Nat := 0x010
abbrev DRAMCW.CH_UE : Nat := 0x014
abbrev HOSTIF.HI_IDS : Nat := 0x100
abbrev HOSTIF.HI_LINK : Nat := 0x104
abbrev HOSTIF.CORR_ERRS : Nat := 0x108
abbrev HOSTIF.UNCORR_ERRS : Nat := 0x10C
abbrev HOSTIF.POISON_RX : Nat := 0x110
abbrev HOSTIF.CPL_TIMEOUTS : Nat := 0x114
abbrev HOSTIF.HI_CNT_CLR : Nat := 0x118
abbrev FLASH.FL_STS : Nat := 0x040
abbrev FLASH.FL_OFS : Nat := 0x044
abbrev FLASH.FL_DRAM_LO : Nat := 0x048
abbrev FLASH.FL_DRAM_HI : Nat := 0x04C
abbrev FLASH.FL_LEN : Nat := 0x050
abbrev FLASH.FL_CMD : Nat := 0x054
abbrev FLASH.FL_RESULT : Nat := 0x058
abbrev FLASH.CKPT_CTL : Nat := 0x060
abbrev FLASH.CKPT_CMD : Nat := 0x064
abbrev FLASH.CKPT_STS : Nat := 0x068
abbrev FLASH.CKPT_SEQ_LO : Nat := 0x06C
abbrev FLASH.CKPT_SEQ_HI : Nat := 0x070
abbrev FLASH.CKPT_LEN_LO : Nat := 0x074
abbrev FLASH.CKPT_LEN_HI : Nat := 0x078
abbrev CLKRST.CLK_STS : Nat := 0x040
abbrev CLKRST.RST_CAUSE : Nat := 0x044
abbrev CLKRST.RST_COUNT : Nat := 0x048
abbrev CLKRST.RST_KEY : Nat := 0x04C
abbrev CLKRST.RST_GO : Nat := 0x050
abbrev CLKRST.REF_LOSSES : Nat := 0x054
abbrev CLKRST.CNT_CLR : Nat := 0x058
abbrev CLKRSTW.PLL_STS : Nat := 0x010
abbrev CLKRSTW.LOCK_LOSSES : Nat := 0x014
abbrev PWRMON.PWR_STS : Nat := 0x040
abbrev PWRMON.PWR_CFG : Nat := 0x044
abbrev PWRMON.TEMP_STS : Nat := 0x048
abbrev PWRMON.TEMP_CFG : Nat := 0x04C
abbrev PWRMON.DIPS : Nat := 0x050
abbrev PWRMON.CNT_CLR : Nat := 0x054
abbrev PWRMONW.RAIL_WARN : Nat := 0x010
abbrev PWRMONW.RAIL_RST : Nat := 0x014
abbrev PWRMONW.RAIL_HYST : Nat := 0x018
abbrev PWRMONW.RAIL_MEAS : Nat := 0x01C
abbrev PWRMONW.RAIL_MIN : Nat := 0x020
abbrev PWRMONW.RAIL_DIPS : Nat := 0x024

/-- TIMEU block registers (R99, R100, R101, R102), part 0. -/
def timeuRows0 : List RegRow := [
  ⟨0x040, 1, 4, [⟨15, 8, .rwc, 0⟩, ⟨0, 0, .rw, 1⟩]⟩,
  ⟨0x044, 1, 4, [⟨9, 9, .ro, 0⟩, ⟨8, 8, .w1c, 0⟩, ⟨4, 3, .ro, 0⟩, ⟨2, 2, .ro, 0⟩, ⟨1, 0, .ro, 0⟩]⟩,
  ⟨0x048, 1, 4, [⟨0, 0, .wo, 0⟩]⟩,
  ⟨0x04C, 1, 4, [⟨31, 30, .ro, 0⟩, ⟨29, 0, .ro, 0⟩]⟩,
  ⟨0x050, 1, 4, [⟨31, 0, .ro, 0⟩]⟩,
  ⟨0x054, 1, 4, [⟨15, 0, .ro, 0⟩]⟩,
  ⟨0x058, 1, 4, [⟨31, 0, .rw, 0x80000000⟩]⟩,
  ⟨0x05C, 1, 4, [⟨3, 0, .rw, 2⟩]⟩,
  ⟨0x060, 1, 4, [⟨31, 0, .wo, 0⟩]⟩,
  ⟨0x064, 1, 4, [⟨31, 0, .wo, 0⟩]⟩,
  ⟨0x068, 1, 4, [⟨19, 0, .rw, 0x186a0⟩]⟩,
  ⟨0x06C, 1, 4, [⟨31, 0, .ro, 0⟩]⟩,
  ⟨0x070, 1, 4, [⟨31, 0, .ro, 0⟩]⟩,
  ⟨0x074, 1, 4, [⟨31, 0, .rw, 0⟩]⟩,
  ⟨0x078, 1, 4, [⟨31, 0, .rw, 0⟩]⟩,
  ⟨0x07C, 1, 4, [⟨15, 0, .rw, 0⟩]⟩,
  ⟨0x080, 1, 4, [⟨2, 2, .wo, 0⟩, ⟨1, 1, .wo, 0⟩, ⟨0, 0, .wo, 0⟩]⟩,
  ⟨0x084, 1, 4, [⟨15, 8, .ro, 0⟩, ⟨3, 1, .ro, 0⟩, ⟨0, 0, .ro, 0⟩]⟩,
  ⟨0x088, 1, 4, [⟨19, 0, .rwc, 0x3e8⟩]⟩,
  ⟨0x08C, 1, 4, [⟨0, 0, .wo, 0⟩]⟩,
  ⟨0x090, 1, 4, [⟨27, 16, .rw, 0xa⟩, ⟨15, 0, .rw, 0x7d0⟩]⟩,
  ⟨0x094, 1, 4, [⟨8, 8, .rw, 0⟩, ⟨4, 0, .rw, 0x14⟩]⟩,
  ⟨0x098, 1, 4, [⟨31, 16, .rw, 0x25⟩, ⟨15, 0, .rw, 0x25⟩]⟩,
  ⟨0x09C, 1, 4, [⟨31, 0, .rw, 0⟩]⟩,
  ⟨0x0A0, 1, 4, [⟨15, 0, .rw, 0⟩]⟩
]
/-- TIMEU block registers (R99, R100, R101, R102), part 1. -/
def timeuRows1 : List RegRow := [
  ⟨0x0A4, 1, 4, [⟨11, 8, .rw, 0⟩, ⟨5, 4, .rw, 0⟩, ⟨2, 2, .rw, 0⟩, ⟨1, 1, .rw, 1⟩, ⟨0, 0, .rw, 0⟩]⟩,
  ⟨0x0A8, 1, 4, [⟨18, 0, .rw, 0x3e8⟩]⟩,
  ⟨0x0AC, 1, 4, [⟨31, 0, .rw, 0⟩]⟩,
  ⟨0x0B0, 1, 4, [⟨31, 16, .ro, 0⟩, ⟨8, 0, .ro, 0⟩]⟩,
  ⟨0x0B4, 1, 4, [⟨1, 1, .wo, 0⟩, ⟨0, 0, .wo, 0⟩]⟩,
  ⟨0x0B8, 1, 4, [⟨31, 30, .ro, 0⟩, ⟨29, 0, .ro, 0⟩]⟩,
  ⟨0x0BC, 1, 4, [⟨31, 0, .ro, 0⟩]⟩,
  ⟨0x0C0, 1, 4, [⟨26, 26, .ro, 0⟩, ⟨25, 24, .ro, 0⟩, ⟨22, 22, .ro, 0⟩, ⟨21, 16, .ro, 0⟩, ⟨15, 0, .ro, 0⟩]⟩,
  ⟨0x0C4, 1, 4, [⟨31, 0, .ro, 0⟩]⟩,
  ⟨0x0D0, 1, 4, [⟨31, 30, .rw, 0⟩, ⟨29, 0, .rw, 0⟩]⟩,
  ⟨0x0D4, 1, 4, [⟨31, 0, .rw, 0⟩]⟩,
  ⟨0x0D8, 1, 4, [⟨15, 0, .rw, 0⟩]⟩,
  ⟨0x0DC, 1, 4, [⟨16, 16, .wo, 0⟩, ⟨15, 15, .wo, 0⟩, ⟨8, 8, .wo, 0⟩, ⟨4, 0, .wo, 0⟩]⟩,
  ⟨0x0E0, 1, 4, [⟨23, 16, .ro, 0⟩, ⟨6, 0, .ro, 0⟩]⟩,
  ⟨0x100, 32, 4, [⟨12, 12, .rw, 0⟩, ⟨11, 8, .rw, 0⟩, ⟨5, 4, .rw, 1⟩, ⟨2, 0, .rw, 0⟩]⟩
]
/-- All of them. -/
def timeuRows : List RegRow := timeuRows0 ++ timeuRows1
/-- TIMEU cell window registers (R99, R100, R101, R102). -/
def timeuWindowRows : List RegRow := [
  ⟨0x010, 1, 4, [⟨6, 4, .rw, 1⟩, ⟨1, 1, .rw, 0⟩, ⟨0, 0, .rw, 0⟩]⟩,
  ⟨0x014, 1, 4, [⟨15, 0, .ro, 0⟩]⟩,
  ⟨0x018, 1, 4, [⟨15, 0, .ro, 0⟩]⟩,
  ⟨0x01C, 1, 4, [⟨15, 0, .rw, 0⟩]⟩,
  ⟨0x020, 1, 4, [⟨15, 0, .rw, 0⟩]⟩,
  ⟨0x024, 1, 4, [⟨23, 0, .rw, 0⟩]⟩,
  ⟨0x028, 1, 4, [⟨31, 16, .ro, 0⟩, ⟨6, 0, .ro, 0⟩]⟩,
  ⟨0x02C, 1, 4, [⟨1, 1, .wo, 0⟩, ⟨0, 0, .wo, 0⟩]⟩,
  ⟨0x030, 1, 4, [⟨31, 30, .ro, 0⟩, ⟨29, 0, .ro, 0⟩]⟩,
  ⟨0x034, 1, 4, [⟨31, 0, .ro, 0⟩]⟩,
  ⟨0x038, 1, 4, [⟨20, 20, .ro, 0⟩, ⟨19, 16, .ro, 0⟩, ⟨15, 0, .ro, 0⟩]⟩,
  ⟨0x03C, 1, 4, [⟨31, 24, .ro, 0⟩, ⟨23, 16, .ro, 0⟩, ⟨15, 0, .ro, 0⟩]⟩,
  ⟨0x040, 1, 4, [⟨31, 0, .ro, 0⟩]⟩,
  ⟨0x044, 1, 4, [⟨31, 0, .ro, 0⟩]⟩
]
/-- PORT block registers (R125). -/
def portRows : List RegRow := [
  ⟨0x040, 1, 4, [⟨23, 16, .rw, 0xa⟩, ⟨6, 6, .rw, 1⟩, ⟨5, 5, .rw, 0⟩, ⟨4, 4, .rw, 0⟩, ⟨3, 3, .rw, 0⟩, ⟨2, 2, .rwc, 0⟩, ⟨1, 0, .rwc, 0⟩]⟩,
  ⟨0x044, 1, 4, [⟨3, 3, .w1c, 0⟩, ⟨2, 2, .ro, 0⟩, ⟨1, 1, .ro, 0⟩, ⟨0, 0, .ro, 0⟩]⟩,
  ⟨0x048, 1, 4, [⟨14, 12, .rw, 0⟩, ⟨11, 0, .rw, 1⟩]⟩,
  ⟨0x04C, 1, 4, [⟨13, 0, .rw, 0x5f2⟩]⟩,
  ⟨0x050, 1, 4, [⟨31, 0, .ro, 0⟩]⟩,
  ⟨0x054, 1, 4, [⟨31, 0, .ro, 0⟩]⟩,
  ⟨0x058, 1, 4, [⟨31, 0, .ro, 0⟩]⟩,
  ⟨0x05C, 1, 4, [⟨31, 0, .ro, 0⟩]⟩,
  ⟨0x060, 1, 4, [⟨31, 0, .ro, 0⟩]⟩,
  ⟨0x064, 1, 4, [⟨31, 0, .ro, 0⟩]⟩,
  ⟨0x068, 1, 4, [⟨31, 0, .ro, 0⟩]⟩,
  ⟨0x06C, 1, 4, [⟨31, 0, .ro, 0⟩]⟩,
  ⟨0x070, 1, 4, [⟨31, 0, .ro, 0⟩]⟩,
  ⟨0x074, 1, 4, [⟨31, 0, .ro, 0⟩]⟩,
  ⟨0x078, 1, 4, [⟨31, 0, .ro, 0⟩]⟩,
  ⟨0x07C, 1, 4, [⟨0, 0, .wo, 0⟩]⟩,
  ⟨0x400, 1, 4, [⟨31, 0, .rw, 2⟩]⟩,
  ⟨0x404, 127, 4, [⟨31, 0, .rw, 0⟩]⟩
]
/-- REDUN block registers (R126). -/
def redunRows : List RegRow := [
  ⟨0x040, 1, 4, [⟨15, 0, .rw, 0x190⟩]⟩
]
/-- REDUN cell window registers (R126). -/
def redunWindowRows : List RegRow := [
  ⟨0x010, 1, 4, [⟨2, 2, .rw, 1⟩, ⟨1, 0, .rwc, 0⟩]⟩,
  ⟨0x014, 1, 4, [⟨2, 2, .ro, 0⟩, ⟨1, 0, .ro, 0⟩]⟩,
  ⟨0x018, 1, 4, [⟨12, 0, .ro, 0⟩]⟩,
  ⟨0x01C, 1, 4, [⟨31, 0, .ro, 0⟩]⟩,
  ⟨0x020, 1, 4, [⟨31, 0, .ro, 0⟩]⟩,
  ⟨0x024, 1, 4, [⟨31, 0, .ro, 0⟩]⟩,
  ⟨0x028, 1, 4, [⟨31, 0, .ro, 0⟩]⟩,
  ⟨0x02C, 1, 4, [⟨31, 0, .ro, 0⟩]⟩,
  ⟨0x030, 1, 4, [⟨31, 0, .ro, 0⟩]⟩,
  ⟨0x034, 1, 4, [⟨31, 0, .ro, 0⟩]⟩,
  ⟨0x038, 1, 4, [⟨0, 0, .wo, 0⟩]⟩
]
/-- EGRESS block registers (R127). -/
def egressRows : List RegRow := [
  ⟨0x040, 1, 4, [⟨0, 0, .rw, 0⟩]⟩,
  ⟨0x044, 1, 4, [⟨13, 0, .rwc, 0x4b0⟩]⟩,
  ⟨0x048, 1, 4, [⟨31, 0, .rwc, 0⟩]⟩,
  ⟨0x04C, 1, 4, [⟨15, 0, .rwc, 0⟩]⟩,
  ⟨0x050, 1, 4, [⟨31, 0, .rwc, 0⟩]⟩,
  ⟨0x054, 1, 4, [⟨31, 0, .rwc, 0⟩]⟩,
  ⟨0x058, 1, 4, [⟨11, 0, .wo, 0⟩]⟩,
  ⟨0x05C, 1, 4, [⟨31, 31, .ro, 0⟩, ⟨27, 16, .ro, 0⟩, ⟨7, 0, .ro, 0⟩]⟩,
  ⟨0x060, 1, 4, [⟨12, 0, .ro, 0⟩]⟩
]
/-- EGRESS cell window registers (R127). -/
def egressWindowRows : List RegRow := [
  ⟨0x010, 1, 4, [⟨15, 0, .ro, 0⟩]⟩,
  ⟨0x014, 1, 4, [⟨15, 0, .ro, 0⟩]⟩,
  ⟨0x018, 1, 4, [⟨31, 0, .ro, 0⟩]⟩
]
/-- PORTER block registers (R164, R165, R166), part 0. -/
def porterRows0 : List RegRow := [
  ⟨0x040, 1, 4, [⟨1, 1, .rw, 0⟩, ⟨0, 0, .rw, 0⟩]⟩,
  ⟨0x044, 1, 4, [⟨31, 0, .rwc, 0⟩]⟩,
  ⟨0x048, 1, 4, [⟨31, 0, .rwc, 0⟩]⟩,
  ⟨0x04C, 1, 4, [⟨31, 0, .rw, 0⟩]⟩,
  ⟨0x050, 1, 4, [⟨31, 0, .rw, 0⟩]⟩,
  ⟨0x054, 1, 4, [⟨11, 0, .wo, 0⟩]⟩,
  ⟨0x058, 1, 4, [⟨31, 31, .ro, 0⟩, ⟨27, 16, .ro, 0⟩, ⟨7, 0, .ro, 0⟩]⟩,
  ⟨0x05C, 1, 4, [⟨31, 0, .rwc, 0xffffffff⟩]⟩,
  ⟨0x060, 1, 4, [⟨31, 0, .rwc, 0x5a5a5a5a⟩]⟩,
  ⟨0x064, 1, 4, [⟨21, 16, .ro, 0⟩, ⟨14, 0, .ro, 0⟩]⟩,
  ⟨0x068, 1, 4, [⟨26, 16, .ro, 0⟩, ⟨12, 0, .ro, 0⟩]⟩,
  ⟨0x06C, 1, 4, [⟨6, 0, .rwc, 0x64⟩]⟩,
  ⟨0x070, 4, 4, [⟨24, 0, .ro, 0⟩]⟩,
  ⟨0x080, 4, 4, [⟨19, 0, .ro, 0⟩]⟩,
  ⟨0x090, 1, 4, [⟨14, 0, .ro, 0⟩]⟩,
  ⟨0x094, 1, 4, [⟨16, 0, .ro, 0⟩]⟩,
  ⟨0x098, 1, 4, [⟨3, 0, .ro, 0⟩]⟩,
  ⟨0x0A0, 4, 4, [⟨31, 0, .rw, 0⟩]⟩,
  ⟨0x0B0, 1, 4, [⟨5, 4, .wo, 0⟩, ⟨1, 0, .wo, 0⟩]⟩,
  ⟨0x0B4, 1, 4, [⟨31, 31, .ro, 0⟩, ⟨30, 16, .ro, 0⟩, ⟨7, 0, .ro, 0⟩]⟩,
  ⟨0x0C0, 1, 4, [⟨23, 16, .rw, 4⟩, ⟨15, 0, .rw, 0xa⟩]⟩,
  ⟨0x0C4, 1, 4, [⟨8, 0, .ro, 0⟩]⟩,
  ⟨0x0D0, 1, 4, [⟨31, 0, .ro, 0⟩]⟩,
  ⟨0x0D4, 1, 4, [⟨31, 0, .ro, 0⟩]⟩,
  ⟨0x0D8, 1, 4, [⟨31, 0, .ro, 0⟩]⟩
]
/-- PORTER block registers (R164, R165, R166), part 1. -/
def porterRows1 : List RegRow := [
  ⟨0x0DC, 1, 4, [⟨31, 0, .ro, 0⟩]⟩,
  ⟨0x0E0, 1, 4, [⟨31, 0, .ro, 0⟩]⟩,
  ⟨0x0E4, 1, 4, [⟨31, 0, .ro, 0⟩]⟩,
  ⟨0x0E8, 1, 4, [⟨0, 0, .wo, 0⟩]⟩,
  ⟨0x100, 32, 16, [⟨27, 16, .rw, 0⟩, ⟨4, 4, .rw, 0⟩, ⟨3, 1, .rw, 0⟩, ⟨0, 0, .rw, 0⟩]⟩,
  ⟨0x104, 32, 16, [⟨31, 0, .rw, 0⟩]⟩,
  ⟨0x108, 32, 16, [⟨21, 16, .rw, 0⟩, ⟨15, 0, .rw, 0⟩]⟩,
  ⟨0x10C, 32, 16, [⟨31, 16, .rw, 0xffff⟩, ⟨15, 0, .rw, 0⟩]⟩,
  ⟨0x300, 4, 32, [⟨31, 0, .rwc, 0⟩]⟩,
  ⟨0x304, 4, 32, [⟨31, 0, .rwc, 0⟩]⟩,
  ⟨0x308, 4, 32, [⟨16, 16, .rw, 0⟩, ⟨8, 8, .rwc, 0⟩, ⟨3, 0, .rwc, 6⟩]⟩,
  ⟨0x30C, 3, 32, [⟨11, 0, .ro, 0⟩]⟩,
  ⟨0x36C, 1, 32, [⟨11, 0, .rw, 0⟩]⟩,
  ⟨0x310, 3, 32, [⟨11, 0, .rw, 0⟩]⟩,
  ⟨0x370, 1, 32, [⟨11, 0, .ro, 0⟩]⟩,
  ⟨0x314, 4, 32, [⟨31, 0, .ro, 0⟩]⟩
]
/-- All of them. -/
def porterRows : List RegRow := porterRows0 ++ porterRows1
/-- PORTER cell window registers (R164, R165, R166). -/
def porterWindowRows : List RegRow := [
  ⟨0x010, 1, 4, [⟨31, 0, .ro, 0⟩]⟩,
  ⟨0x014, 1, 4, [⟨6, 0, .ro, 0⟩]⟩,
  ⟨0x018, 1, 4, [⟨31, 0, .ro, 0⟩]⟩
]
/-- CRYPTO block registers (R167). -/
def cryptoRows : List RegRow := [
  ⟨0x040, 1, 4, [⟨24, 16, .ro, 0⟩, ⟨8, 0, .ro, 0⟩]⟩,
  ⟨0x044, 1, 4, [⟨31, 0, .ro, 0⟩]⟩,
  ⟨0x048, 1, 4, [⟨31, 0, .ro, 0⟩]⟩,
  ⟨0x04C, 1, 4, [⟨31, 0, .ro, 0⟩]⟩,
  ⟨0x050, 1, 4, [⟨31, 0, .ro, 0⟩]⟩,
  ⟨0x054, 1, 4, [⟨31, 0, .ro, 0⟩]⟩,
  ⟨0x058, 1, 4, [⟨31, 0, .ro, 0⟩]⟩,
  ⟨0x05C, 1, 4, [⟨31, 0, .ro, 0⟩]⟩,
  ⟨0x060, 1, 4, [⟨31, 0, .ro, 0⟩]⟩,
  ⟨0x064, 1, 4, [⟨31, 0, .ro, 0⟩]⟩,
  ⟨0x068, 1, 4, [⟨0, 0, .wo, 0⟩]⟩
]
/-- CRYPTO cell window registers (R167). -/
def cryptoWindowRows : List RegRow := [
  ⟨0x010, 1, 4, [⟨31, 0, .ro, 0⟩]⟩,
  ⟨0x014, 1, 4, [⟨9, 0, .ro, 0⟩]⟩
]
/-- ALIGN block registers (R192, R193). -/
def alignRows : List RegRow := [
  ⟨0x040, 1, 4, [⟨0, 0, .rw, 0⟩]⟩,
  ⟨0x044, 1, 4, [⟨24, 0, .rwc, 0x1fff000⟩]⟩,
  ⟨0x048, 1, 4, [⟨19, 0, .rw, 0x2710⟩]⟩,
  ⟨0x04C, 1, 4, [⟨15, 0, .rwc, 0xbb8⟩]⟩,
  ⟨0x050, 1, 4, [⟨11, 0, .rw, 0⟩]⟩,
  ⟨0x054, 1, 4, [⟨18, 16, .ro, 0⟩, ⟨15, 8, .ro, 0⟩, ⟨4, 4, .ro, 0⟩, ⟨3, 3, .ro, 0⟩, ⟨2, 0, .ro, 0⟩]⟩,
  ⟨0x058, 1, 4, [⟨31, 0, .ro, 0⟩]⟩,
  ⟨0x05C, 1, 4, [⟨31, 0, .ro, 0⟩]⟩,
  ⟨0x060, 1, 4, [⟨31, 0, .ro, 0⟩]⟩,
  ⟨0x064, 1, 4, [⟨31, 0, .ro, 0⟩]⟩,
  ⟨0x068, 1, 4, [⟨31, 0, .ro, 0⟩]⟩,
  ⟨0x06C, 1, 4, [⟨31, 0, .ro, 0⟩]⟩,
  ⟨0x070, 1, 4, [⟨31, 0, .ro, 0⟩]⟩,
  ⟨0x074, 1, 4, [⟨31, 0, .ro, 0⟩]⟩,
  ⟨0x078, 1, 4, [⟨31, 0, .ro, 0⟩]⟩,
  ⟨0x080, 1, 4, [⟨31, 0, .ro, 0⟩]⟩,
  ⟨0x084, 1, 4, [⟨31, 0, .ro, 0⟩]⟩,
  ⟨0x088, 1, 4, [⟨31, 0, .ro, 0⟩]⟩,
  ⟨0x08C, 1, 4, [⟨31, 0, .ro, 0⟩]⟩,
  ⟨0x090, 1, 4, [⟨31, 0, .ro, 0⟩]⟩,
  ⟨0x094, 1, 4, [⟨31, 0, .ro, 0⟩]⟩,
  ⟨0x098, 1, 4, [⟨31, 0, .ro, 0⟩]⟩,
  ⟨0x09C, 1, 4, [⟨0, 0, .wo, 0⟩]⟩
]
/-- ALIGN cell window registers (R192, R193). -/
def alignWindowRows : List RegRow := [
  ⟨0x010, 1, 4, [⟨31, 0, .ro, 0⟩]⟩,
  ⟨0x014, 1, 4, [⟨16, 0, .ro, 0⟩]⟩,
  ⟨0x018, 1, 4, [⟨16, 0, .ro, 0⟩]⟩,
  ⟨0x01C, 1, 4, [⟨31, 0, .ro, 0⟩]⟩
]
/-- EXB block registers (R217, R218, R219, R253). -/
def exbRows : List RegRow := [
  ⟨0x040, 1, 4, [⟨28, 16, .ro, 0⟩, ⟨12, 0, .ro, 0⟩]⟩,
  ⟨0x044, 1, 4, [⟨31, 16, .ro, 0⟩, ⟨15, 0, .ro, 0⟩]⟩,
  ⟨0x048, 1, 4, [⟨31, 0, .ro, 0⟩]⟩,
  ⟨0x04C, 1, 4, [⟨31, 0, .ro, 0⟩]⟩,
  ⟨0x050, 1, 4, [⟨31, 0, .ro, 0⟩]⟩,
  ⟨0x054, 1, 4, [⟨0, 0, .wo, 0⟩]⟩,
  ⟨0x100, 16, 16, [⟨31, 16, .ro, 0⟩, ⟨7, 0, .ro, 0⟩]⟩,
  ⟨0x104, 16, 16, [⟨23, 20, .ro, 0⟩, ⟨18, 16, .ro, 0⟩, ⟨15, 0, .ro, 0⟩]⟩,
  ⟨0x108, 16, 16, [⟨31, 0, .ro, 0⟩]⟩,
  ⟨0x10C, 16, 16, [⟨16, 0, .ro, 0⟩]⟩,
  ⟨0x080, 1, 4, [⟨31, 0, .rw, 0⟩]⟩,
  ⟨0x084, 1, 4, [⟨31, 0, .rw, 0⟩]⟩,
  ⟨0x088, 1, 4, [⟨15, 0, .rw, 0⟩]⟩,
  ⟨0x08C, 1, 4, [⟨15, 8, .wo, 0⟩, ⟨2, 0, .wo, 0⟩]⟩,
  ⟨0x090, 1, 4, [⟨31, 31, .ro, 0⟩, ⟨16, 16, .ro, 0⟩, ⟨15, 8, .ro, 0⟩, ⟨7, 0, .ro, 0⟩]⟩,
  ⟨0x094, 1, 4, [⟨31, 0, .rw, 0⟩]⟩,
  ⟨0x098, 1, 4, [⟨31, 0, .rw, 0⟩]⟩,
  ⟨0x09C, 1, 4, [⟨15, 8, .wo, 0⟩, ⟨6, 0, .wo, 0⟩]⟩,
  ⟨0x0A0, 1, 4, [⟨31, 31, .ro, 0⟩, ⟨30, 30, .ro, 0⟩, ⟨15, 8, .ro, 0⟩, ⟨7, 0, .ro, 0⟩]⟩,
  ⟨0x0A4, 1, 4, [⟨16, 0, .ro, 0⟩]⟩,
  ⟨0x0A8, 1, 4, [⟨31, 16, .ro, 0⟩, ⟨15, 0, .ro, 0⟩]⟩
]
/-- EXB cell window registers (R217, R218, R219, R253). -/
def exbWindowRows : List RegRow := [
  ⟨0x010, 1, 4, [⟨7, 0, .ro, 0⟩]⟩,
  ⟨0x014, 1, 4, [⟨31, 0, .ro, 0⟩]⟩,
  ⟨0x018, 1, 4, [⟨31, 0, .ro, 0⟩]⟩,
  ⟨0x01C, 1, 4, [⟨3, 0, .ro, 0⟩]⟩,
  ⟨0x020, 1, 4, [⟨31, 0, .ro, 0⟩]⟩,
  ⟨0x024, 1, 4, [⟨31, 0, .ro, 0⟩]⟩,
  ⟨0x028, 1, 4, [⟨31, 0, .ro, 0⟩]⟩
]
/-- PCACHE block registers (R220). -/
def pcacheRows : List RegRow := [
  ⟨0x040, 1, 4, [⟨13, 0, .ro, 0⟩]⟩,
  ⟨0x044, 1, 4, [⟨13, 0, .ro, 0⟩]⟩,
  ⟨0x048, 1, 4, [⟨9, 0, .ro, 0⟩]⟩,
  ⟨0x04C, 1, 4, [⟨31, 0, .ro, 0⟩]⟩,
  ⟨0x050, 1, 4, [⟨0, 0, .wo, 0⟩]⟩
]
/-- PCACHE cell window registers (R220). -/
def pcacheWindowRows : List RegRow := [
  ⟨0x010, 1, 4, [⟨31, 0, .ro, 0⟩]⟩,
  ⟨0x014, 1, 4, [⟨12, 0, .ro, 0⟩]⟩
]
/-- POINT block registers (R222). -/
def pointRows : List RegRow := [
  ⟨0x040, 1, 4, [⟨31, 0, .rwc, 0⟩]⟩,
  ⟨0x044, 1, 4, [⟨31, 0, .rwc, 0⟩]⟩,
  ⟨0x048, 1, 4, [⟨24, 0, .rw, 0⟩]⟩,
  ⟨0x04C, 1, 4, [⟨31, 0, .rw, 0⟩]⟩,
  ⟨0x050, 1, 4, [⟨31, 0, .rw, 0⟩]⟩,
  ⟨0x054, 1, 4, [⟨1, 1, .wo, 0⟩, ⟨0, 0, .wo, 0⟩]⟩,
  ⟨0x058, 1, 4, [⟨31, 31, .ro, 0⟩, ⟨7, 0, .ro, 0⟩]⟩,
  ⟨0x05C, 1, 4, [⟨31, 0, .ro, 0⟩]⟩,
  ⟨0x060, 1, 4, [⟨31, 0, .ro, 0⟩]⟩,
  ⟨0x064, 1, 4, [⟨31, 0, .ro, 0⟩]⟩,
  ⟨0x068, 1, 4, [⟨0, 0, .wo, 0⟩]⟩
]
/-- POINT cell window registers (R222). -/
def pointWindowRows : List RegRow := [
  ⟨0x010, 1, 4, [⟨31, 0, .ro, 0⟩]⟩,
  ⟨0x014, 1, 4, [⟨9, 0, .ro, 0⟩]⟩,
  ⟨0x018, 1, 4, [⟨9, 0, .ro, 0⟩]⟩
]
/-- HINGE block registers (R288, R289, R290). -/
def hingeRows : List RegRow := [
  ⟨0x040, 1, 4, [⟨1, 1, .rw, 1⟩, ⟨0, 0, .rwc, 1⟩]⟩,
  ⟨0x044, 1, 4, [⟨7, 4, .ro, 0⟩, ⟨2, 2, .ro, 0⟩, ⟨1, 1, .ro, 0⟩, ⟨0, 0, .w1c, 0⟩]⟩,
  ⟨0x048, 1, 4, [⟨19, 16, .rw, 3⟩, ⟨7, 0, .rw, 0x14⟩]⟩,
  ⟨0x04C, 1, 4, [⟨15, 15, .rw, 0⟩, ⟨11, 0, .rw, 0⟩]⟩,
  ⟨0x050, 1, 4, [⟨15, 0, .ro, 0⟩]⟩,
  ⟨0x054, 1, 4, [⟨14, 0, .ro, 0⟩]⟩,
  ⟨0x058, 1, 4, [⟨18, 0, .ro, 0⟩]⟩,
  ⟨0x05C, 1, 4, [⟨13, 0, .ro, 0⟩]⟩,
  ⟨0x060, 1, 4, [⟨31, 28, .ro, 0⟩, ⟨23, 0, .ro, 0⟩]⟩,
  ⟨0x064, 1, 4, [⟨31, 0, .ro, 0⟩]⟩,
  ⟨0x068, 1, 4, [⟨31, 0, .ro, 0⟩]⟩,
  ⟨0x06C, 1, 4, [⟨31, 0, .ro, 0⟩]⟩,
  ⟨0x070, 1, 4, [⟨31, 0, .ro, 0⟩]⟩,
  ⟨0x074, 1, 4, [⟨31, 0, .ro, 0⟩]⟩,
  ⟨0x078, 1, 4, [⟨31, 0, .ro, 0⟩]⟩,
  ⟨0x07C, 1, 4, [⟨31, 0, .ro, 0⟩]⟩,
  ⟨0x080, 1, 4, [⟨0, 0, .wo, 0⟩]⟩,
  ⟨0x100, 16, 16, [⟨31, 0, .rw, 0⟩]⟩,
  ⟨0x104, 16, 16, [⟨31, 0, .rw, 0⟩]⟩,
  ⟨0x108, 16, 16, [⟨31, 0, .rw, 0⟩]⟩,
  ⟨0x10C, 16, 16, [⟨31, 0, .rw, 0⟩]⟩,
  ⟨0x408, 255, 8, [⟨28, 16, .rw, 0⟩, ⟨15, 0, .rw, 0⟩]⟩,
  ⟨0x40C, 255, 8, [⟨31, 31, .rw, 0⟩, ⟨19, 16, .rw, 0⟩, ⟨15, 0, .rw, 0⟩]⟩
]
/-- HINGE cell window registers (R288, R289, R290). -/
def hingeWindowRows : List RegRow := [
  ⟨0x010, 1, 4, [⟨1, 1, .ro, 0⟩, ⟨0, 0, .ro, 0⟩]⟩,
  ⟨0x014, 1, 4, [⟨31, 0, .ro, 0⟩]⟩,
  ⟨0x018, 1, 4, [⟨31, 0, .ro, 0⟩]⟩
]
/-- ROLE block registers (R291). -/
def roleRows : List RegRow := [
  ⟨0x040, 1, 4, [⟨31, 28, .ro, 0⟩, ⟨27, 27, .ro, 0⟩, ⟨23, 16, .ro, 0⟩, ⟨11, 8, .ro, 0⟩, ⟨7, 7, .ro, 0⟩, ⟨6, 6, .w1c, 0⟩, ⟨5, 5, .ro, 0⟩, ⟨4, 4, .ro, 0⟩, ⟨3, 3, .ro, 0⟩, ⟨2, 2, .ro, 0⟩, ⟨1, 0, .ro, 0⟩]⟩,
  ⟨0x044, 1, 4, [⟨0, 0, .rw, 1⟩]⟩,
  ⟨0x048, 1, 4, [⟨1, 0, .wo, 0⟩]⟩,
  ⟨0x04C, 1, 4, [⟨28, 24, .ro, 0⟩, ⟨11, 0, .ro, 0⟩]⟩,
  ⟨0x050, 1, 4, [⟨0, 0, .ro, 0⟩]⟩,
  ⟨0x054, 1, 4, [⟨31, 0, .ro, 0⟩]⟩,
  ⟨0x058, 1, 4, [⟨31, 0, .ro, 0⟩]⟩,
  ⟨0x05C, 1, 4, [⟨31, 0, .ro, 0⟩]⟩,
  ⟨0x060, 1, 4, [⟨31, 0, .ro, 0⟩]⟩,
  ⟨0x064, 1, 4, [⟨0, 0, .wo, 0⟩]⟩
]
/-- CHIP block registers (R306). -/
def chipRows : List RegRow := [
  ⟨0x044, 1, 4, [⟨31, 24, .ro, 0⟩, ⟨10, 10, .ro, 0⟩, ⟨9, 9, .ro, 0⟩, ⟨8, 8, .ro, 0⟩, ⟨3, 0, .ro, 0⟩]⟩,
  ⟨0x048, 1, 4, [⟨1, 1, .rwc, 0⟩, ⟨0, 0, .rw, 1⟩]⟩,
  ⟨0x04C, 1, 4, [⟨15, 0, .rwc, 0x7d0⟩]⟩,
  ⟨0x050, 1, 4, [⟨8, 8, .wo, 0⟩, ⟨2, 0, .wo, 0⟩]⟩,
  ⟨0x054, 1, 4, [⟨31, 31, .ro, 0⟩, ⟨18, 16, .ro, 0⟩, ⟨7, 0, .ro, 0⟩]⟩
]
/-- BOOT block registers (R307). -/
def bootRows : List RegRow := [
  ⟨0x040, 1, 4, [⟨31, 28, .ro, 0⟩, ⟨24, 24, .ro, 0⟩, ⟨17, 17, .ro, 0⟩, ⟨16, 16, .ro, 0⟩, ⟨7, 0, .ro, 0⟩]⟩,
  ⟨0x044, 1, 4, [⟨31, 0, .ro, 0⟩]⟩,
  ⟨0x048, 1, 4, [⟨31, 0, .ro, 0⟩]⟩,
  ⟨0x04C, 1, 4, [⟨19, 0, .ro, 0⟩]⟩,
  ⟨0x050, 1, 4, [⟨31, 0, .ro, 0⟩]⟩,
  ⟨0x054, 1, 4, [⟨31, 0, .ro, 0⟩]⟩,
  ⟨0x058, 1, 4, [⟨31, 0, .ro, 0⟩]⟩,
  ⟨0x05C, 1, 4, [⟨23, 0, .ro, 0⟩]⟩
]
/-- FUSE block registers (R309). -/
def fuseRows : List RegRow := [
  ⟨0x040, 1, 4, [⟨4, 4, .ro, 0⟩, ⟨3, 3, .ro, 0⟩, ⟨2, 2, .ro, 0⟩, ⟨1, 1, .ro, 0⟩, ⟨0, 0, .ro, 0⟩]⟩,
  ⟨0x044, 1, 4, [⟨31, 0, .ro, 0⟩]⟩,
  ⟨0x048, 1, 4, [⟨31, 0, .ro, 0⟩]⟩,
  ⟨0x04C, 1, 4, [⟨26, 16, .ro, 0⟩, ⟨15, 0, .ro, 0⟩]⟩,
  ⟨0x050, 12, 4, [⟨31, 0, .ro, 0⟩]⟩
]
/-- DEBUG block registers (R311). -/
def debugRows : List RegRow := [
  ⟨0x040, 1, 4, [⟨31, 16, .ro, 0⟩, ⟨2, 2, .ro, 0⟩, ⟨1, 1, .ro, 0⟩, ⟨0, 0, .ro, 0⟩]⟩,
  ⟨0x044, 1, 4, [⟨0, 0, .w1s, 0⟩]⟩
]
/-- GCTL block registers (R332). -/
def gctlRows : List RegRow := [
  ⟨0x040, 1, 4, [⟨31, 28, .ro, 0⟩, ⟨27, 26, .ro, 0⟩, ⟨23, 20, .ro, 0⟩, ⟨18, 16, .ro, 0⟩, ⟨7, 0, .ro, 0⟩]⟩,
  ⟨0x044, 1, 4, [⟨16, 0, .ro, 0⟩]⟩,
  ⟨0x048, 1, 4, [⟨31, 0, .ro, 0⟩]⟩,
  ⟨0x04C, 1, 4, [⟨15, 0, .ro, 0⟩]⟩,
  ⟨0x050, 1, 4, [⟨31, 0, .ro, 0⟩]⟩,
  ⟨0x054, 1, 4, [⟨31, 0, .ro, 0⟩]⟩,
  ⟨0x058, 1, 4, [⟨0, 0, .wo, 0⟩]⟩
]
/-- GSTR block registers (R333). -/
def gstrRows : List RegRow := [
  ⟨0x040, 1, 4, [⟨16, 16, .rw, 0⟩, ⟨11, 0, .rw, 0⟩]⟩,
  ⟨0x044, 1, 4, [⟨31, 31, .ro, 0⟩, ⟨18, 16, .ro, 0⟩, ⟨7, 0, .ro, 0⟩]⟩,
  ⟨0x048, 1, 4, [⟨31, 0, .ro, 0⟩]⟩,
  ⟨0x04C, 1, 4, [⟨31, 0, .ro, 0⟩]⟩,
  ⟨0x050, 1, 4, [⟨31, 0, .ro, 0⟩]⟩,
  ⟨0x054, 1, 4, [⟨31, 0, .ro, 0⟩]⟩
]
/-- GQ block registers (R334). -/
def gqRows : List RegRow := [
  ⟨0x040, 1, 4, [⟨31, 0, .rw, 0⟩]⟩,
  ⟨0x044, 1, 4, [⟨31, 0, .rw, 0⟩]⟩,
  ⟨0x048, 1, 4, [⟨31, 0, .rw, 0⟩]⟩,
  ⟨0x04C, 1, 4, [⟨31, 0, .rw, 0⟩]⟩,
  ⟨0x050, 1, 4, [⟨16, 16, .rw, 0⟩, ⟨3, 0, .rw, 6⟩]⟩,
  ⟨0x054, 1, 4, [⟨11, 0, .rw, 0⟩]⟩,
  ⟨0x058, 1, 4, [⟨11, 0, .ro, 0⟩]⟩,
  ⟨0x05C, 1, 4, [⟨31, 31, .ro, 0⟩, ⟨30, 30, .ro, 0⟩, ⟨27, 16, .ro, 0⟩, ⟨11, 0, .ro, 0⟩]⟩,
  ⟨0x060, 1, 4, [⟨27, 16, .ro, 0x40⟩, ⟨4, 0, .ro, 1⟩]⟩,
  ⟨0x064, 1, 4, [⟨31, 0, .ro, 0⟩]⟩,
  ⟨0x068, 1, 4, [⟨31, 0, .ro, 0⟩]⟩
]
/-- GLV block registers (R335). -/
def glvRows : List RegRow := [
  ⟨0x040, 1, 4, [⟨31, 0, .ro, 0⟩]⟩,
  ⟨0x044, 1, 4, [⟨31, 0, .ro, 0⟩]⟩,
  ⟨0x048, 1, 4, [⟨31, 0, .rw, 0⟩]⟩,
  ⟨0x04C, 1, 4, [⟨31, 0, .rw, 0⟩]⟩,
  ⟨0x050, 1, 4, [⟨31, 31, .ro, 0⟩, ⟨23, 16, .ro, 0⟩, ⟨8, 0, .ro, 0⟩]⟩,
  ⟨0x100, 64, 4, [⟨31, 0, .ro, 0⟩]⟩
]
/-- HOSTIF block registers (R337, R451). -/
def hostifRows : List RegRow := [
  ⟨0x040, 1, 4, [⟨7, 0, .rw, 1⟩]⟩,
  ⟨0x044, 1, 4, [⟨31, 16, .ro, 0⟩, ⟨11, 0, .ro, 0⟩, ⟨2, 2, .ro, 0⟩, ⟨1, 1, .ro, 0⟩, ⟨0, 0, .ro, 0⟩]⟩,
  ⟨0x048, 1, 4, [⟨31, 0, .rw, 0⟩]⟩,
  ⟨0x04C, 1, 4, [⟨31, 0, .rw, 0⟩]⟩,
  ⟨0x050, 1, 4, [⟨31, 0, .rw, 0⟩]⟩,
  ⟨0x054, 1, 4, [⟨31, 0, .rw, 0⟩]⟩,
  ⟨0x058, 1, 4, [⟨0, 0, .rw, 0⟩]⟩,
  ⟨0x060, 4, 8, [⟨24, 0, .rw, 0⟩]⟩,
  ⟨0x064, 4, 8, [⟨31, 31, .rw, 0⟩, ⟨16, 0, .rw, 0⟩]⟩,
  ⟨0x080, 1, 4, [⟨0, 0, .wo, 0⟩]⟩,
  ⟨0x100, 1, 4, [⟨31, 16, .ro, 0x7720⟩, ⟨15, 0, .ro, 0⟩]⟩,
  ⟨0x104, 1, 4, [⟨19, 16, .ro, 0⟩, ⟨10, 8, .ro, 0⟩, ⟨0, 0, .ro, 0⟩]⟩,
  ⟨0x108, 1, 4, [⟨31, 0, .ro, 0⟩]⟩,
  ⟨0x10C, 1, 4, [⟨31, 0, .ro, 0⟩]⟩,
  ⟨0x110, 1, 4, [⟨31, 0, .ro, 0⟩]⟩,
  ⟨0x114, 1, 4, [⟨31, 0, .ro, 0⟩]⟩,
  ⟨0x118, 1, 4, [⟨0, 0, .wo, 0⟩]⟩
]
/-- COURIER block registers (R338). -/
def courierRows : List RegRow := [
  ⟨0x040, 1, 4, [⟨31, 0, .ro, 0⟩]⟩,
  ⟨0x044, 1, 4, [⟨31, 0, .ro, 0⟩]⟩,
  ⟨0x048, 1, 4, [⟨31, 0, .ro, 0⟩]⟩,
  ⟨0x04C, 1, 4, [⟨31, 0, .ro, 0⟩]⟩,
  ⟨0x050, 1, 4, [⟨31, 0, .ro, 0⟩]⟩,
  ⟨0x054, 1, 4, [⟨31, 0, .ro, 0⟩]⟩,
  ⟨0x058, 1, 4, [⟨0, 0, .wo, 0⟩]⟩,
  ⟨0x400, 256, 4, [⟨27, 16, .rw, 0x40⟩, ⟨4, 0, .rw, 1⟩]⟩
]
/-- COURIER cell window registers (R338). -/
def courierWindowRows : List RegRow := [
  ⟨0x010, 1, 4, [⟨31, 0, .ro, 0⟩]⟩,
  ⟨0x014, 1, 4, [⟨8, 8, .ro, 0⟩, ⟨7, 0, .ro, 0⟩]⟩
]
/-- KEYRING block registers (R362, R363). -/
def keyringRows : List RegRow := [
  ⟨0x040, 1, 4, [⟨8, 8, .w1s, 0⟩, ⟨6, 0, .rw, 4⟩]⟩,
  ⟨0x044, 1, 4, [⟨24, 16, .ro, 0⟩, ⟨4, 4, .ro, 0⟩, ⟨3, 3, .ro, 0⟩, ⟨2, 2, .ro, 0⟩, ⟨1, 1, .ro, 0⟩]⟩,
  ⟨0x048, 1, 4, [⟨31, 0, .ro, 0⟩]⟩,
  ⟨0x04C, 1, 4, [⟨31, 0, .ro, 0⟩]⟩,
  ⟨0x050, 1, 4, [⟨24, 16, .rw, 0⟩, ⟨8, 0, .rw, 0⟩]⟩,
  ⟨0x054, 1, 4, [⟨31, 0, .rw, 0⟩]⟩,
  ⟨0x058, 1, 4, [⟨31, 24, .rw, 0⟩, ⟨7, 7, .rw, 0⟩, ⟨5, 5, .rw, 0⟩, ⟨4, 1, .rw, 0⟩]⟩,
  ⟨0x05C, 1, 4, [⟨2, 0, .wo, 0⟩]⟩,
  ⟨0x060, 1, 4, [⟨31, 31, .ro, 0⟩, ⟨24, 16, .ro, 0⟩, ⟨10, 8, .ro, 0⟩, ⟨7, 0, .ro, 0⟩]⟩,
  ⟨0x064, 1, 4, [⟨31, 0, .ro, 0⟩]⟩,
  ⟨0x068, 1, 4, [⟨31, 0, .ro, 0⟩]⟩,
  ⟨0x070, 10, 4, [⟨31, 0, .wo, 0⟩]⟩,
  ⟨0x0A0, 1, 4, [⟨8, 0, .rw, 0⟩]⟩,
  ⟨0x0A4, 1, 4, [⟨31, 0, .ro, 0⟩]⟩,
  ⟨0x0A8, 1, 4, [⟨31, 0, .ro, 0⟩]⟩,
  ⟨0x0AC, 1, 4, [⟨9, 0, .ro, 0⟩]⟩,
  ⟨0x0B0, 1, 4, [⟨31, 28, .ro, 0⟩, ⟨24, 24, .ro, 0⟩, ⟨23, 16, .ro, 0⟩, ⟨9, 0, .ro, 0⟩]⟩,
  ⟨0x0B4, 1, 4, [⟨31, 0, .ro, 0⟩]⟩,
  ⟨0x0B8, 1, 4, [⟨31, 0, .ro, 0⟩]⟩,
  ⟨0x0BC, 1, 4, [⟨31, 30, .ro, 0⟩, ⟨25, 16, .ro, 0⟩, ⟨9, 0, .ro, 0⟩]⟩,
  ⟨0x0C0, 1, 4, [⟨31, 0, .ro, 0⟩]⟩,
  ⟨0x0C4, 1, 4, [⟨31, 0, .ro, 0⟩]⟩,
  ⟨0x0C8, 1, 4, [⟨31, 0, .ro, 0⟩]⟩,
  ⟨0x0CC, 1, 4, [⟨31, 0, .ro, 0⟩]⟩,
  ⟨0x0D0, 1, 4, [⟨0, 0, .wo, 0⟩]⟩
]
/-- KEYRING cell window registers (R362, R363). -/
def keyringWindowRows : List RegRow := [
  ⟨0x010, 1, 4, [⟨31, 0, .ro, 0⟩]⟩
]
/-- LEDGER block registers (R387), part 0. -/
def ledgerRows0 : List RegRow := [
  ⟨0x040, 1, 4, [⟨31, 0, .rw, 0xfc000000⟩]⟩,
  ⟨0x044, 1, 4, [⟨31, 0, .rw, 3⟩]⟩,
  ⟨0x048, 1, 4, [⟨4, 0, .rw, 0x1a⟩]⟩,
  ⟨0x04C, 1, 4, [⟨31, 0, .ro, 0⟩]⟩,
  ⟨0x050, 1, 4, [⟨31, 0, .ro, 0⟩]⟩,
  ⟨0x054, 1, 4, [⟨25, 0, .ro, 0⟩]⟩,
  ⟨0x058, 1, 4, [⟨31, 0, .ro, 1⟩]⟩,
  ⟨0x05C, 1, 4, [⟨31, 0, .ro, 0⟩]⟩,
  ⟨0x060, 1, 4, [⟨25, 0, .ro, 0⟩]⟩,
  ⟨0x064, 1, 4, [⟨31, 0, .ro, 0⟩]⟩,
  ⟨0x070, 1, 4, [⟨9, 0, .rw, 1⟩]⟩,
  ⟨0x074, 1, 4, [⟨30, 30, .ro, 0⟩, ⟨23, 16, .rw, 0x10⟩, ⟨15, 0, .rw, 0x3e8⟩]⟩,
  ⟨0x078, 1, 4, [⟨31, 0, .ro, 0⟩]⟩,
  ⟨0x080, 1, 4, [⟨31, 0, .ro, 0⟩]⟩,
  ⟨0x084, 1, 4, [⟨31, 0, .ro, 0⟩]⟩,
  ⟨0x088, 1, 4, [⟨31, 0, .ro, 0⟩]⟩,
  ⟨0x08C, 1, 4, [⟨0, 0, .wo, 0⟩]⟩,
  ⟨0x090, 1, 4, [⟨31, 0, .rw, 0⟩]⟩,
  ⟨0x094, 1, 4, [⟨31, 0, .rw, 0⟩]⟩,
  ⟨0x098, 1, 4, [⟨31, 31, .ro, 0⟩, ⟨23, 16, .ro, 0⟩, ⟨8, 0, .ro, 0⟩]⟩,
  ⟨0x100, 64, 4, [⟨31, 0, .ro, 0⟩]⟩,
  ⟨0x200, 12, 4, [⟨31, 0, .wo, 0⟩]⟩,
  ⟨0x230, 1, 4, [⟨0, 0, .wo, 0⟩]⟩,
  ⟨0x234, 1, 4, [⟨31, 31, .ro, 0⟩, ⟨7, 0, .ro, 0⟩]⟩,
  ⟨0x300, 1, 4, [⟨31, 28, .rw, 0⟩, ⟨27, 20, .rw, 0⟩, ⟨19, 16, .rw, 0⟩, ⟨3, 0, .rw, 0⟩]⟩
]
/-- LEDGER block registers (R387), part 1. -/
def ledgerRows1 : List RegRow := [
  ⟨0x304, 1, 4, [⟨31, 0, .ro, 0⟩]⟩,
  ⟨0x308, 1, 4, [⟨31, 0, .ro, 0⟩]⟩,
  ⟨0x30C, 1, 4, [⟨31, 0, .ro, 0⟩]⟩,
  ⟨0x310, 1, 4, [⟨31, 0, .ro, 0⟩]⟩,
  ⟨0x314, 1, 4, [⟨31, 0, .ro, 0⟩]⟩,
  ⟨0x318, 1, 4, [⟨31, 0, .ro, 0xffffffff⟩]⟩,
  ⟨0x31C, 1, 4, [⟨31, 0, .ro, 0⟩]⟩,
  ⟨0x320, 1, 4, [⟨31, 30, .ro, 0⟩, ⟨29, 0, .ro, 0⟩]⟩,
  ⟨0x324, 1, 4, [⟨31, 0, .ro, 0⟩]⟩,
  ⟨0x328, 1, 4, [⟨15, 0, .ro, 0⟩]⟩,
  ⟨0x32C, 1, 4, [⟨31, 30, .ro, 0⟩, ⟨29, 0, .ro, 0⟩]⟩,
  ⟨0x330, 1, 4, [⟨31, 0, .ro, 0⟩]⟩,
  ⟨0x334, 1, 4, [⟨15, 0, .ro, 0⟩]⟩,
  ⟨0x380, 32, 4, [⟨31, 0, .ro, 0⟩]⟩,
  ⟨0x400, 1, 4, [⟨8, 8, .rwc, 0⟩, ⟨4, 0, .rwc, 9⟩]⟩,
  ⟨0x404, 1, 4, [⟨8, 8, .rwc, 1⟩, ⟨4, 0, .rwc, 0⟩]⟩,
  ⟨0x408, 1, 4, [⟨8, 8, .rwc, 1⟩, ⟨4, 0, .rwc, 0⟩]⟩,
  ⟨0x40C, 1, 4, [⟨8, 8, .rwc, 1⟩, ⟨4, 0, .rwc, 0⟩]⟩,
  ⟨0x410, 1, 4, [⟨8, 8, .rwc, 0⟩, ⟨4, 0, .rwc, 5⟩]⟩,
  ⟨0x414, 1, 4, [⟨8, 8, .rwc, 0⟩, ⟨4, 0, .rwc, 2⟩]⟩,
  ⟨0x418, 1, 4, [⟨8, 8, .rwc, 0⟩, ⟨4, 0, .rwc, 0xb⟩]⟩
]
/-- All of them. -/
def ledgerRows : List RegRow := ledgerRows0 ++ ledgerRows1
/-- CHECK block registers (R388). -/
def checkRows : List RegRow := [
  ⟨0x040, 1, 4, [⟨31, 0, .ro, 0⟩]⟩,
  ⟨0x044, 1, 4, [⟨31, 0, .ro, 0⟩]⟩,
  ⟨0x048, 1, 4, [⟨0, 0, .wo, 0⟩]⟩
]
/-- CHECK cell window registers (R388). -/
def checkWindowRows : List RegRow := [
  ⟨0x010, 1, 4, [⟨31, 0, .rw, 0⟩]⟩,
  ⟨0x014, 1, 4, [⟨31, 0, .rw, 0⟩]⟩,
  ⟨0x018, 1, 4, [⟨31, 0, .rw, 0⟩]⟩,
  ⟨0x01C, 1, 4, [⟨9, 9, .wo, 0⟩, ⟨8, 8, .wo, 0⟩, ⟨4, 4, .rw, 0⟩, ⟨1, 0, .rw, 1⟩]⟩,
  ⟨0x020, 1, 4, [⟨31, 31, .ro, 0⟩, ⟨16, 16, .ro, 0⟩, ⟨7, 0, .ro, 0⟩]⟩,
  ⟨0x024, 1, 4, [⟨31, 0, .ro, 0⟩]⟩,
  ⟨0x028, 1, 4, [⟨0, 0, .ro, 0⟩]⟩,
  ⟨0x02C, 1, 4, [⟨31, 0, .ro, 0⟩]⟩,
  ⟨0x030, 1, 4, [⟨31, 0, .ro, 0⟩]⟩
]
/-- ADC block registers (R407, R408, R409). -/
def adcRows : List RegRow := [
  ⟨0x040, 1, 4, [⟨4, 4, .rwc, 0⟩, ⟨0, 0, .rw, 0⟩]⟩,
  ⟨0x044, 2, 4, [⟨8, 8, .rw, 1⟩, ⟨5, 4, .rw, 0⟩, ⟨0, 0, .rw, 0⟩]⟩,
  ⟨0x04C, 1, 4, [⟨2, 2, .ro, 0⟩, ⟨1, 1, .ro, 0⟩, ⟨0, 0, .ro, 0⟩]⟩,
  ⟨0x050, 1, 4, [⟨15, 0, .ro, 0⟩]⟩,
  ⟨0x054, 1, 4, [⟨15, 0, .rw, 0⟩]⟩,
  ⟨0x058, 1, 4, [⟨15, 0, .rw, 0⟩]⟩,
  ⟨0x05C, 2, 4, [⟨31, 16, .ro, 0⟩, ⟨1, 1, .ro, 0⟩, ⟨0, 0, .ro, 0⟩]⟩,
  ⟨0x064, 1, 4, [⟨12, 8, .rw, 0⟩, ⟨5, 4, .rw, 0⟩, ⟨1, 0, .rw, 0⟩]⟩,
  ⟨0x068, 1, 4, [⟨24, 0, .rw, 0⟩]⟩,
  ⟨0x06C, 1, 4, [⟨2, 0, .wo, 0⟩]⟩,
  ⟨0x070, 1, 4, [⟨31, 31, .ro, 0⟩, ⟨9, 9, .ro, 0⟩, ⟨8, 8, .ro, 0⟩, ⟨7, 0, .ro, 0⟩]⟩,
  ⟨0x074, 1, 4, [⟨19, 0, .ro, 0⟩]⟩,
  ⟨0x078, 1, 4, [⟨17, 0, .ro, 0⟩]⟩,
  ⟨0x080, 1, 4, [⟨31, 0, .ro, 0⟩]⟩,
  ⟨0x084, 1, 4, [⟨31, 0, .ro, 0⟩]⟩,
  ⟨0x088, 1, 4, [⟨0, 0, .wo, 0⟩]⟩,
  ⟨0x100, 16, 8, [⟨19, 0, .rw, 0⟩]⟩,
  ⟨0x104, 16, 8, [⟨17, 0, .rw, 0x10000⟩]⟩
]
/-- ADC cell window registers (R407, R408, R409). -/
def adcWindowRows : List RegRow := [
  ⟨0x010, 1, 4, [⟨31, 16, .rw, 4⟩, ⟨12, 8, .rw, 0⟩, ⟨2, 0, .rw, 0⟩]⟩,
  ⟨0x014, 1, 4, [⟨3, 0, .rw, 0⟩]⟩,
  ⟨0x018, 1, 4, [⟨15, 0, .rw, 0x120⟩]⟩,
  ⟨0x01C, 1, 4, [⟨0, 0, .wo, 0⟩]⟩,
  ⟨0x020, 1, 4, [⟨31, 24, .ro, 0⟩, ⟨2, 2, .ro, 0⟩, ⟨1, 1, .ro, 0⟩, ⟨0, 0, .ro, 0⟩]⟩,
  ⟨0x024, 1, 4, [⟨31, 0, .ro, 0⟩]⟩,
  ⟨0x028, 1, 4, [⟨31, 0, .ro, 0⟩]⟩,
  ⟨0x040, 16, 4, [⟨15, 8, .rw, 0⟩, ⟨5, 4, .rw, 0⟩, ⟨3, 0, .rw, 0⟩]⟩
]
/-- FILT cell window registers (R432). -/
def filtWindowRows : List RegRow := [
  ⟨0x010, 1, 4, [⟨20, 20, .rw, 0⟩, ⟨19, 16, .rw, 0⟩, ⟨15, 15, .rw, 0⟩, ⟨12, 8, .rw, 0⟩, ⟨0, 0, .rw, 0⟩]⟩,
  ⟨0x014, 1, 4, [⟨12, 0, .rw, 1⟩]⟩,
  ⟨0x018, 1, 4, [⟨28, 16, .rw, 1⟩, ⟨12, 0, .rw, 1⟩]⟩,
  ⟨0x01C, 1, 4, [⟨28, 16, .rw, 1⟩, ⟨12, 0, .rw, 1⟩]⟩,
  ⟨0x020, 1, 4, [⟨1, 1, .wo, 0⟩, ⟨0, 0, .wo, 0⟩]⟩,
  ⟨0x024, 1, 4, [⟨31, 29, .ro, 0⟩, ⟨28, 28, .ro, 0⟩, ⟨27, 27, .ro, 0⟩, ⟨12, 0, .ro, 0⟩]⟩,
  ⟨0x028, 1, 4, [⟨31, 31, .rw, 0⟩, ⟨24, 0, .rw, 0⟩]⟩,
  ⟨0x02C, 1, 4, [⟨31, 31, .rw, 0⟩, ⟨23, 0, .rw, 0⟩]⟩,
  ⟨0x030, 1, 4, [⟨31, 31, .rw, 0⟩, ⟨23, 0, .rw, 0⟩]⟩,
  ⟨0x034, 1, 4, [⟨31, 24, .rw, 1⟩, ⟨23, 0, .rw, 0⟩]⟩,
  ⟨0x038, 1, 4, [⟨1, 1, .ro, 0⟩, ⟨0, 0, .ro, 0⟩]⟩,
  ⟨0x03C, 1, 4, [⟨31, 0, .ro, 0⟩]⟩,
  ⟨0x040, 1, 4, [⟨31, 0, .ro, 0⟩]⟩,
  ⟨0x044, 1, 4, [⟨31, 0, .ro, 0⟩]⟩,
  ⟨0x048, 1, 4, [⟨31, 0, .ro, 0⟩]⟩
]
/-- ACQ block registers (R433, R434). -/
def acqRows : List RegRow := [
  ⟨0x040, 1, 4, [⟨31, 0, .rwc, 0⟩]⟩,
  ⟨0x044, 1, 4, [⟨31, 0, .rwc, 0⟩]⟩,
  ⟨0x048, 1, 4, [⟨18, 0, .rwc, 0⟩]⟩,
  ⟨0x04C, 1, 4, [⟨12, 0, .ro, 0⟩]⟩,
  ⟨0x050, 1, 4, [⟨0, 0, .wo, 0⟩]⟩
]
/-- ACQ cell window registers (R433, R434). -/
def acqWindowRows : List RegRow := [
  ⟨0x010, 1, 4, [⟨17, 17, .rw, 0⟩, ⟨16, 16, .rw, 0⟩, ⟨12, 8, .rw, 0⟩, ⟨0, 0, .rw, 0⟩]⟩,
  ⟨0x014, 1, 4, [⟨17, 0, .rw, 0⟩]⟩,
  ⟨0x018, 1, 4, [⟨17, 0, .rw, 0⟩]⟩,
  ⟨0x01C, 1, 4, [⟨8, 0, .rw, 1⟩]⟩,
  ⟨0x020, 1, 4, [⟨27, 0, .rw, 0⟩]⟩,
  ⟨0x024, 1, 4, [⟨27, 0, .rw, 0⟩]⟩,
  ⟨0x028, 1, 4, [⟨8, 0, .rw, 1⟩]⟩,
  ⟨0x02C, 1, 4, [⟨17, 17, .rw, 0⟩, ⟨16, 16, .rw, 0⟩, ⟨12, 8, .rw, 0⟩, ⟨2, 0, .rw, 0⟩]⟩,
  ⟨0x030, 1, 4, [⟨15, 0, .rw, 0x120⟩]⟩,
  ⟨0x034, 1, 4, [⟨7, 0, .rw, 0x20⟩]⟩,
  ⟨0x038, 1, 4, [⟨1, 1, .wo, 0⟩, ⟨0, 0, .wo, 0⟩]⟩,
  ⟨0x03C, 1, 4, [⟨31, 28, .ro, 0⟩, ⟨22, 16, .ro, 1⟩, ⟨8, 0, .ro, 0⟩]⟩,
  ⟨0x040, 1, 4, [⟨24, 16, .ro, 0⟩, ⟨8, 0, .ro, 0⟩]⟩,
  ⟨0x044, 1, 4, [⟨31, 0, .ro, 0⟩]⟩,
  ⟨0x048, 1, 4, [⟨31, 0, .ro, 0⟩]⟩,
  ⟨0x04C, 1, 4, [⟨31, 0, .ro, 0⟩]⟩,
  ⟨0x050, 1, 4, [⟨31, 0, .ro, 0⟩]⟩,
  ⟨0x054, 1, 4, [⟨31, 0, .ro, 0⟩]⟩,
  ⟨0x058, 1, 4, [⟨31, 0, .ro, 0⟩]⟩,
  ⟨0x05C, 1, 4, [⟨31, 0, .ro, 0⟩]⟩
]
/-- DRAMC block registers (R450). -/
def dramcRows : List RegRow := [
  ⟨0x040, 1, 4, [⟨15, 8, .rw, 0x18⟩, ⟨0, 0, .rw, 1⟩]⟩,
  ⟨0x044, 1, 4, [⟨31, 16, .ro, 0⟩, ⟨9, 0, .ro, 0⟩]⟩,
  ⟨0x048, 1, 4, [⟨31, 0, .ro, 0⟩]⟩,
  ⟨0x04C, 1, 4, [⟨1, 0, .ro, 0⟩]⟩,
  ⟨0x050, 1, 4, [⟨31, 0, .ro, 0⟩]⟩,
  ⟨0x054, 1, 4, [⟨31, 0, .ro, 0⟩]⟩,
  ⟨0x058, 1, 4, [⟨31, 0, .ro, 0⟩]⟩,
  ⟨0x05C, 1, 4, [⟨0, 0, .wo, 0⟩]⟩,
  ⟨0x060, 1, 4, [⟨31, 0, .rwc, 0x50000000⟩]⟩,
  ⟨0x064, 1, 4, [⟨1, 0, .rwc, 3⟩]⟩
]
/-- DRAMC cell window registers (R450). -/
def dramcWindowRows : List RegRow := [
  ⟨0x010, 1, 4, [⟨31, 0, .ro, 0⟩]⟩,
  ⟨0x014, 1, 4, [⟨31, 0, .ro, 0⟩]⟩
]
/-- FLASH block registers (R452). -/
def flashRows : List RegRow := [
  ⟨0x040, 1, 4, [⟨20, 16, .ro, 0⟩, ⟨2, 2, .ro, 0⟩, ⟨1, 1, .ro, 0⟩, ⟨0, 0, .ro, 0⟩]⟩,
  ⟨0x044, 1, 4, [⟨29, 0, .rw, 0⟩]⟩,
  ⟨0x048, 1, 4, [⟨31, 0, .rw, 0⟩]⟩,
  ⟨0x04C, 1, 4, [⟨1, 0, .rw, 0⟩]⟩,
  ⟨0x050, 1, 4, [⟨29, 0, .rw, 0⟩]⟩,
  ⟨0x054, 1, 4, [⟨8, 8, .wo, 0⟩, ⟨1, 0, .wo, 0⟩]⟩,
  ⟨0x058, 1, 4, [⟨31, 31, .ro, 0⟩, ⟨7, 0, .ro, 0⟩]⟩,
  ⟨0x060, 1, 4, [⟨16, 0, .rw, 0⟩]⟩,
  ⟨0x064, 1, 4, [⟨0, 0, .wo, 0⟩]⟩,
  ⟨0x068, 1, 4, [⟨31, 28, .ro, 0⟩, ⟨25, 25, .ro, 0⟩, ⟨24, 24, .ro, 0⟩, ⟨23, 16, .ro, 0⟩, ⟨7, 0, .ro, 0⟩]⟩,
  ⟨0x06C, 1, 4, [⟨31, 0, .ro, 0⟩]⟩,
  ⟨0x070, 1, 4, [⟨31, 0, .ro, 0⟩]⟩,
  ⟨0x074, 1, 4, [⟨31, 0, .ro, 0⟩]⟩,
  ⟨0x078, 1, 4, [⟨31, 0, .ro, 0⟩]⟩
]
/-- CLKRST block registers (R472, R473). -/
def clkrstRows : List RegRow := [
  ⟨0x040, 1, 4, [⟨5, 5, .ro, 0⟩, ⟨4, 4, .ro, 0⟩, ⟨3, 3, .ro, 0⟩, ⟨2, 2, .ro, 0⟩, ⟨1, 1, .ro, 0⟩, ⟨0, 0, .ro, 0⟩]⟩,
  ⟨0x044, 1, 4, [⟨19, 16, .ro, 0⟩, ⟨6, 6, .w1c, 0⟩, ⟨5, 5, .w1c, 0⟩, ⟨4, 4, .w1c, 0⟩, ⟨3, 3, .w1c, 0⟩, ⟨2, 2, .w1c, 0⟩, ⟨1, 1, .w1c, 0⟩, ⟨0, 0, .w1c, 0⟩]⟩,
  ⟨0x048, 1, 4, [⟨15, 0, .ro, 0⟩]⟩,
  ⟨0x04C, 1, 4, [⟨31, 0, .wo, 0⟩]⟩,
  ⟨0x050, 1, 4, [⟨0, 0, .wo, 0⟩]⟩,
  ⟨0x054, 1, 4, [⟨31, 0, .ro, 0⟩]⟩,
  ⟨0x058, 1, 4, [⟨0, 0, .wo, 0⟩]⟩
]
/-- CLKRST cell window registers (R472, R473). -/
def clkrstWindowRows : List RegRow := [
  ⟨0x010, 1, 4, [⟨0, 0, .ro, 0⟩]⟩,
  ⟨0x014, 1, 4, [⟨31, 0, .ro, 0⟩]⟩
]
/-- PWRMON block registers (R474, R475). -/
def pwrmonRows : List RegRow := [
  ⟨0x040, 1, 4, [⟨31, 31, .ro, 0⟩, ⟨9, 9, .ro, 0⟩, ⟨8, 0, .ro, 0⟩]⟩,
  ⟨0x044, 1, 4, [⟨15, 8, .rwc, 0x14⟩, ⟨7, 0, .rw, 5⟩]⟩,
  ⟨0x048, 1, 4, [⟨25, 16, .ro, 0⟩, ⟨9, 0, .ro, 0⟩]⟩,
  ⟨0x04C, 1, 4, [⟨9, 0, .rw, 0⟩]⟩,
  ⟨0x050, 1, 4, [⟨31, 0, .ro, 0⟩]⟩,
  ⟨0x054, 1, 4, [⟨0, 0, .wo, 0⟩]⟩
]
/-- PWRMON cell window registers (R474, R475). -/
def pwrmonWindowRows : List RegRow := [
  ⟨0x010, 1, 4, [⟨11, 0, .rw, 0⟩]⟩,
  ⟨0x014, 1, 4, [⟨11, 0, .rwc, 0⟩]⟩,
  ⟨0x018, 1, 4, [⟨7, 0, .rw, 0xa⟩]⟩,
  ⟨0x01C, 1, 4, [⟨11, 0, .ro, 0⟩]⟩,
  ⟨0x020, 1, 4, [⟨11, 0, .ro, 0xfff⟩]⟩,
  ⟨0x024, 1, 4, [⟨31, 0, .ro, 0⟩]⟩
]

end Sys2Proof.Machine
end

