-- ==== Sys2Proof/Machine/PageMap.lean ====
section
/-! DEFINITION. Sys2Proof/Machine/PageMap.lean: the address map (R34 to R36, R40, R41), each page's identity (R15, R44),
the registers at an offset of a page (R43 to R57 and the chapters' tables) and the value each resets to. -/
namespace Sys2Proof.Machine

/-- Region number of a page (R35); guest pages report 0xF (R41). -/
def Page.region : Page → Nat
  | .chip | .clkrst | .pwrmon | .fuse | .boot | .flash | .debug | .ledger => 0
  | .region r => r
  | .port _ | .mgmt | .porter | .align | .egress | .timeu | .redun => 1
  | .keyring | .crypto | .check => 2
  | .exb n | .pcache n => 3 + n / 4
  | .dramc _ | .point | .courier | .hostif => 7
  | .adc | .filt | .acq => 8
  | .hinge | .role => 9
  | .guest _ _ => 0xF

/-- Block number of a page (R35), or guest page number. -/
def Page.block : Page → Nat
  | .chip | .region _ => 0
  | .clkrst => 1 | .pwrmon => 2 | .fuse => 3 | .boot => 4 | .flash => 5 | .debug => 6 | .ledger => 7
  | .port n => 1 + n | .mgmt => 5 | .porter => 6 | .align => 7 | .egress => 8 | .timeu => 9 | .redun => 10
  | .keyring => 1 | .crypto => 2 | .check => 3
  | .exb n => 1 + n % 4 | .pcache n => 5 + n % 4
  | .dramc n => 1 + n | .point => 3 | .courier => 4 | .hostif => 5
  | .adc => 1 | .filt => 2 | .acq => 3
  | .hinge => 1 | .role => 2
  | .guest _ p => p

/-- Kind code of a page (R35, R40). -/
def Page.kind : Page → Nat
  | .chip => 0x02 | .clkrst => 0x03 | .pwrmon => 0x04 | .fuse => 0x05 | .boot => 0x06 | .flash => 0x07 | .debug => 0x08
  | .ledger => 0x09 | .region _ => 0x01
  | .port _ => 0x10 | .mgmt => 0x11 | .porter => 0x12 | .align => 0x13 | .egress => 0x14 | .timeu => 0x15 | .redun => 0x16
  | .keyring => 0x20 | .crypto => 0x21 | .check => 0x22 | .exb _ => 0x30 | .pcache _ => 0x31
  | .dramc _ => 0x40 | .point => 0x41 | .courier => 0x42 | .hostif => 0x43
  | .adc => 0x50 | .filt => 0x51 | .acq => 0x52 | .hinge => 0x60 | .role => 0x61
  | .guest _ p => 0x70 + p

/-- Cell count of a page (R15). -/
def Page.cells : Page → Nat
  | .chip | .region _ | .guest _ _ => 0
  | .clkrst => 3 | .pwrmon => 9 | .fuse | .boot | .flash | .debug | .ledger => 1
  | .port _ | .mgmt => 1 | .porter | .align | .egress => 4 | .timeu => 6 | .redun => 2
  | .keyring => 2 | .crypto => 12 | .check => 4 | .exb _ => 16 | .pcache _ => 8
  | .dramc _ => 8 | .point => 2 | .courier => 8 | .hostif => 1
  | .adc => 4 | .filt => 16 | .acq => 4 | .hinge => 4 | .role => 1

/-- The essential blocks, marked "SAFE" in R27. -/
def Page.essential : Page → Bool
  | .chip | .clkrst | .pwrmon | .role | .porter | .align | .egress | .timeu | .redun
  | .point | .dramc _ | .keyring | .crypto => true
  | _ => false

/-- Region pages and the chip page. -/
def Page.isRegion : Page → Bool
  | .chip | .region _ => true
  | _ => false

/-- Guest pages. -/
def Page.isGuest : Page → Bool
  | .guest _ _ => true
  | _ => false

/-- The key of a page's first register in the register file: its BAR0 offset for the manager's space (R34), and
2^24 × g plus the offset in the function's own BAR0 for guest g's space (R40). -/
def Page.base : Page → Nat
  | .guest g p => g * 0x100_0000 + p * 0x1000
  | p => Page.region p * 0x10_0000 + Page.block p * 0x1000

/-- The page of the region that a block belongs to. -/
def Page.ofRegion (r : Nat) : Page := if r = 0 then .chip else .region r

/-- The page at a region and block number, R35; none where R35 lists none. -/
def Page.at (r b : Nat) : Option Page :=
  if r = 0 then
    match b with
    | 0 => some .chip | 1 => some .clkrst | 2 => some .pwrmon | 3 => some .fuse | 4 => some .boot | 5 => some .flash
    | 6 => some .debug | 7 => some .ledger | _ => none
  else if 10 ≤ r then none
  else if b = 0 then some (.region r)
  else if r = 1 then
    if b ≤ 4 then some (.port (b - 1)) else
    match b with
    | 5 => some .mgmt | 6 => some .porter | 7 => some .align | 8 => some .egress | 9 => some .timeu | 10 => some .redun
    | _ => none
  else if r = 2 then
    match b with | 1 => some .keyring | 2 => some .crypto | 3 => some .check | _ => none
  else if r ≤ 6 then
    if b ≤ 4 then some (.exb (4 * (r - 3) + (b - 1)))
    else if b ≤ 8 then some (.pcache (4 * (r - 3) + (b - 5))) else none
  else if r = 7 then
    match b with
    | 1 => some (.dramc 0) | 2 => some (.dramc 1) | 3 => some .point | 4 => some .courier | 5 => some .hostif | _ => none
  else if r = 8 then
    match b with | 1 => some .adc | 2 => some .filt | 3 => some .acq | _ => none
  else
    match b with | 1 => some .hinge | 2 => some .role | _ => none

/-- The block page of block `b` in region `r`, when it is a block and not the region page. -/
def Page.blockAt (r b : Nat) : Option Page := if b = 0 then none else Page.at r b

/-- Offset of register `o` in cell window `c` (R43). -/
abbrev win (c o : Nat) : Nat := 0x800 + c * 0x80 + o

/- Common header registers (R44 to R56). -/
abbrev HDR.PAGE_ID : Nat := 0x000
abbrev HDR.PAGE_VER : Nat := 0x004
abbrev HDR.PAGE_CTL : Nat := 0x008
abbrev HDR.PAGE_STS : Nat := 0x00C
abbrev HDR.PAGE_ERR : Nat := 0x010
abbrev HDR.PAGE_ERR_ADDR : Nat := 0x014
abbrev HDR.IRQ_STS : Nat := 0x018
abbrev HDR.IRQ_EN : Nat := 0x01C
abbrev HDR.IRQ_SET : Nat := 0x020
abbrev HDR.FAULT_STS : Nat := 0x024
abbrev HDR.FAULT_CTL : Nat := 0x028
abbrev HDR.LEDGER_CTL : Nat := 0x02C
abbrev HDR.ARB_CTL : Nat := 0x030
/-- REGION_IRQ of the chip page (R65). -/
abbrev CHIP.REGION_IRQ : Nat := 0x040
abbrev CELL.STS : Nat := 0x00
abbrev CELL.IRQ_STS : Nat := 0x04
abbrev CELL.IRQ_EN : Nat := 0x08

/-- Blocks of a region that have a page of their own. -/
def regionBlocks (r : Nat) : List Page := (List.range 11).filterMap (Page.blockAt r)

/-- The requesters an ARB_CTL weighs (R56): the cells of a block page, the blocks of a region page. -/
def Page.requester (p : Page) (i : Nat) : Bool :=
  if Page.isRegion p then (Page.blockAt (Page.region p) i).isSome else i < Page.cells p

/-- The interrupt sources SRC [23:16] that a page's chapter defines; every other SRC bit is reserved (R51). (DEDUCED, log 20). -/
def Page.srcMask : Page → Nat
  | .chip => 0x03 | .clkrst => 0x03 | .pwrmon => 0x07 | .flash => 0x07 | .debug => 0x03 | .ledger => 0x03
  | .port _ | .mgmt => 0x07 | .porter => 0xFF | .align => 0x1F | .egress => 0x03 | .timeu => 0x7F | .redun => 0x01
  | .keyring => 0x1F | .crypto => 0x07
  | .exb _ => 0x1F | .dramc _ => 0x03 | .point => 0x01 | .courier => 0x03 | .hostif => 0x01
  | .adc => 0x0F | .filt => 0x03 | .acq => 0x0F | .hinge => 0x1F | .role => 0x3F
  | .guest _ 0 => 0x07 | .guest _ 2 => 0x03 | .guest _ 3 => 0x01
  | _ => 0

/-- The sources of CELL_IRQ_STS that a block's chapter defines for a cell (R57). -/
def Page.cellSrc (p : Page) (c : Nat) : Nat :=
  match p with
  | .timeu => if 1 ≤ c ∧ c ≤ 4 then 0x3 else 0
  | .porter | .align | .hinge | .check | .dramc _ | .clkrst | .pwrmon => 0x1
  | .exb _ => 0x7 | .adc => 0x3 | .filt => 0x7 | .acq => 0x7
  | _ => 0

/-! ### Registers of a page -/

/-- Reset value of PAGE_ID (R44). -/
def Page.idWord (p : Page) : Nat :=
  Page.region p * 2 ^ 28 + Page.block p * 2 ^ 20 + Page.kind p * 2 ^ 12 + Page.cells p

/-- Mask of the ARB_CTL bits with a requester behind them (R56; all reserved in PCACHE, R220). -/
def Page.arbBits (p : Page) : List Nat :=
  match p with
  | .pcache _ => []
  | .guest _ _ => []
  | p => (List.range 16).filter (Page.requester p)

/-- The bits of a mask as single-bit fields of one access, from bit `base`. -/
def maskFields (acc : Acc) (base n mask : Nat) : List Fld :=
  ((List.range n).filter (fun i => mask.testBit i)).map (fun i => ⟨base + i, base + i, acc, 0⟩)

/-- SUM of IRQ_STS and IRQ_EN (R51): every bit of [15:0], without bit 0 in a region page, and [7:1] in the chip page. -/
def sumField (p : Page) (acc : Acc) : Fld :=
  match p with
  | .chip => ⟨7, 1, acc, 0⟩
  | .region _ => ⟨15, 1, acc, 0⟩
  | _ => ⟨15, 0, acc, 0⟩

/-- The header registers of a page (R44 to R56). PAGE_STS's fields are computed (see `view`). On guest pages the five
containment registers read 0 and take no fields (R42). (DEDUCED, log 20). -/
def headerRow (p : Page) (o : Nat) : Option (List Fld) :=
  let src := Page.srcMask p
  match o with
  | 0x000 => some [⟨31, 0, .ro, Page.idWord p⟩]
  | 0x004 => some [⟨31, 0, .ro, 0x0001_00B0⟩]
  | 0x008 =>
    if Page.isGuest p then some [⟨31, 0, .ro, 0⟩]
    else if Page.isRegion p then
      some [⟨5, 4, if Page.essential p then .ro else .rw, b2n (Page.essential p)⟩, ⟨1, 1, .wo, 0⟩, ⟨0, 0, .ro, 1⟩]
    else if Page.essential p then some [⟨5, 4, .ro, 1⟩, ⟨1, 1, .wo, 0⟩, ⟨0, 0, .ro, 1⟩]
    else some [⟨5, 4, .rw, 0⟩, ⟨1, 1, .wo, 0⟩, ⟨0, 0, .rwc, 1⟩]
  | 0x00C => some [⟨31, 16, .ro, 0⟩, ⟨3, 3, .ro, 0⟩, ⟨2, 2, .ro, 0⟩, ⟨1, 1, .ro, 0⟩, ⟨0, 0, .ro, 0⟩]
  | 0x010 => some [⟨31, 31, .w1c, 0⟩, ⟨23, 8, .ro, 0⟩, ⟨7, 0, .ro, 0⟩]
  | 0x014 => some [⟨25, 24, .ro, 0⟩, ⟨23, 0, .ro, 0⟩]
  | 0x018 => some (⟨25, 25, .w1c, 0⟩ :: ⟨24, 24, .w1c, 0⟩ :: sumField p .ro :: maskFields .w1c 16 8 src)
  | 0x01C => some (⟨25, 25, .rw, 0⟩ :: ⟨24, 24, .rw, 0⟩ :: sumField p .rw :: maskFields .rw 16 8 src)
  | 0x020 => some (⟨25, 25, .w1s, 0⟩ :: ⟨24, 24, .w1s, 0⟩ :: maskFields .w1s 16 8 src)
  | 0x024 => if Page.isGuest p then some [⟨31, 0, .ro, 0⟩]
             else some [⟨31, 28, .ro, 0⟩, ⟨16, 16, .ro, 0⟩, ⟨15, 0, .ro, 0⟩]
  | 0x028 => if Page.isGuest p then some [⟨31, 0, .ro, 0⟩]
             else if Page.isRegion p then some []
             else some [⟨8, 8, .wo, 0⟩, ⟨5, 4, .rw, 0⟩, ⟨3, 0, .rw, 0⟩]
  | 0x02C => if Page.isGuest p then some [⟨31, 0, .ro, 0⟩] else some [⟨1, 1, .rw, 1⟩, ⟨0, 0, .rw, 1⟩]
  | 0x030 => if Page.isGuest p then some [⟨31, 0, .ro, 0⟩]
             else some ((Page.arbBits p).map (fun i => ⟨2 * i + 1, 2 * i, .rw, 0⟩))
  | _ => none

/-- The block registers of a page (0x040 to 0x7FF, R43). -/
def blockRows : Page → List RegRow
  | .chip => ⟨0x040, 1, 4, [⟨9, 0, .ro, 0⟩]⟩ :: chipRows
  | .clkrst => clkrstRows | .pwrmon => pwrmonRows | .fuse => fuseRows | .boot => bootRows | .flash => flashRows
  | .debug => debugRows | .ledger => ledgerRows
  | .region _ => []
  | .port _ => portRows
  | .mgmt => portRows
  | .porter => porterRows | .align => alignRows | .egress => egressRows | .timeu => timeuRows | .redun => redunRows
  | .keyring => keyringRows | .crypto => cryptoRows | .check => checkRows
  | .exb _ => exbRows | .pcache _ => pcacheRows
  | .dramc 0 => dramcRows
  | .dramc _ => dramcRows.filter (fun r => r.first != DRAMC.GSTORE_BASE_LO && r.first != DRAMC.GSTORE_BASE_HI)
  | .point => pointRows
  | .courier => courierRows ++ gqRows.map (fun r => { r with first := r.first + 0x100 })
  | .hostif => hostifRows
  | .adc => adcRows | .filt => [⟨0x040, 1, 4, [⟨0, 0, .wo, 0⟩]⟩] | .acq => acqRows | .hinge => hingeRows | .role => roleRows
  | .guest _ 0 => gctlRows | .guest _ 1 => gstrRows | .guest _ 2 => gqRows | .guest _ 3 => glvRows
  | .guest _ _ => []

/-- The registers of a cell window beyond the common part (R57). -/
def windowRows (p : Page) (c : Nat) : List RegRow :=
  match p with
  | .timeu => if 1 ≤ c ∧ c ≤ 4 then timeuWindowRows else []
  | .redun => redunWindowRows | .egress => egressWindowRows | .porter => porterWindowRows
  | .crypto => cryptoWindowRows | .align => alignWindowRows | .exb _ => exbWindowRows | .pcache _ => pcacheWindowRows
  | .point => pointWindowRows | .hinge => hingeWindowRows | .courier => courierWindowRows
  | .keyring => keyringWindowRows | .check => checkWindowRows | .adc => adcWindowRows | .filt => filtWindowRows
  | .acq => acqWindowRows | .dramc _ => dramcWindowRows | .clkrst => clkrstWindowRows | .pwrmon => pwrmonWindowRows
  | _ => []

/-- The row of a table that covers an offset. -/
def findRow (rows : List RegRow) (o : Nat) : Option (List Fld) :=
  match rows.find? (fun r => decide (r.first ≤ o) && (o - r.first) % r.stride == 0 && decide ((o - r.first) / r.stride < r.count)) with
  | some r => some r.flds
  | none => none

/-- The MGMT page's PORT_CTL has SPEED and FEC read-only at 0 (R107). -/
def mgmtFix (p : Page) (o : Nat) (f : List Fld) : List Fld :=
  match p with
  | .mgmt => if o = PORT.PORT_CTL then f.map (fun x => if x.lo = 0 ∨ x.lo = 2 then { x with acc := .ro } else x) else f
  | _ => f

/-- Whether ALLOW entry `g` has its two words (R289): from 0x800 on the lanes' windows keep their own registers (R57, R290).
(DEDUCED, log 137). -/
def allowHeld (g : Nat) : Bool := decide (1 ≤ g) && decide (g < 256) && (decide (g < 128) || decide (192 ≤ g) || decide (4 ≤ g % 16))

/-- The offset of a word of an allowance entry. -/
def allowAt (p : Page) (o : Nat) : Bool := p == .hinge && decide (o < 0xC00) && allowHeld ((o - 0x400) / 8)

/-- An offset in a window that the page does not have (step 1 of R58). -/
def noWindow (p : Page) (o : Nat) : Bool :=
  decide (0x800 ≤ o) && decide (Page.cells p ≤ (o - 0x800) / 0x80) && !allowAt p o

/-- The fields of the register at an offset of a page; none where the offset holds no register (R43). -/
def regFields (p : Page) (o : Nat) : Option (List Fld) :=
  if o % 4 ≠ 0 then none
  else if o < 0x040 then headerRow p o
  else if o < 0x800 ∨ allowAt p o then (findRow (blockRows p) o).map (mgmtFix p o)
  else
    let c := (o - 0x800) / 0x80
    let w := (o - 0x800) % 0x80
    if Page.cells p ≤ c then none
    else match w with
      | 0x00 => some [⟨1, 1, .ro, 0⟩, ⟨0, 0, .ro, 0⟩]
      | 0x04 => some (maskFields .w1c 0 16 (Page.cellSrc p c))
      | 0x08 => some (maskFields .rw 0 16 (Page.cellSrc p c))
      | 0x0C => some []
      | _ => findRow (windowRows p c) w

/-- Reset word of a list of fields. -/
def fieldsReset (f : List Fld) : Nat := f.foldl (fun a x => a + x.rst * 2 ^ x.lo) 0

/-- Warning and reset levels of the rails in mV (R467), by PWRMON window. -/
def railLevels (c : Nat) : Nat × Nat :=
  ([(720, 698), (816, 791), (1728, 1674), (864, 837), (1152, 1116), (1008, 977), (480, 465), (1728, 1674),
    (3168, 3069)].getD c (0, 0))

/-- The page and offset of a register-file key. -/
def pageOf (a : Nat) : Option (Page × Nat) :=
  if a < 0x100_0000 then (Page.at (a / 0x10_0000) (a / 0x1000 % 0x100)).map (fun p => (p, a % 0x1000))
  else
    let g := a / 0x100_0000
    let o := a % 0x100_0000
    if o < 0x4000 ∧ g ≤ 255 then some (.guest g (o / 0x1000), o % 0x1000) else none

/-- A page that the address map holds (R35, R40): the other numbers of an indexed page name none. (DEDUCED, log 111). -/
def Page.real (p : Page) : Bool := (match p with | .guest g _ => decide (1 ≤ g) | _ => true) &&
  decide ((pageOf (Page.base p)).map Prod.fst = some p)

/-- Reset value of the register at a key of the register file (R9); 0 where there is none. -/
def resetWord (a : Nat) : Word :=
  match pageOf a with
  | none => 0
  | some (p, o) =>
    match p, o with
    | .clkrst, o => if o = CLKRST.RST_CAUSE then 1 else BitVec.ofNat 32 (((regFields p o).map fieldsReset).getD 0)
    | .pwrmon, o =>
      if o = win ((o - 0x800) / 0x80) PWRMONW.RAIL_WARN ∧ 0x800 ≤ o ∧ o < win 9 0 then
        BitVec.ofNat 32 (railLevels ((o - 0x800) / 0x80)).1
      else if o = win ((o - 0x800) / 0x80) PWRMONW.RAIL_RST ∧ 0x800 ≤ o ∧ o < win 9 0 then
        BitVec.ofNat 32 (railLevels ((o - 0x800) / 0x80)).2
      else if o = PWRMON.TEMP_CFG then if Config.orderingEB then 696 else 636
      else if o = PWRMON.TEMP_STS then if Config.orderingEB then 756 * 65536 else 696 * 65536
      else BitVec.ofNat 32 (((regFields p o).map fieldsReset).getD 0)
    | .timeu, o =>
      -- ING_LAT and EGR_LAT are those of the port's speed at reset, without FEC (R87, R102)
      if 0x880 ≤ o ∧ o < 0xA80 ∧ o % 0x80 = TIMEUW.ING_LAT then (Config.ingLat ((o - 0x880) / 0x80) 0 false).zeroExtend 32
      else if 0x880 ≤ o ∧ o < 0xA80 ∧ o % 0x80 = TIMEUW.EGR_LAT then (Config.egrLat ((o - 0x880) / 0x80) 0 false).zeroExtend 32
      else BitVec.ofNat 32 (((regFields p o).map fieldsReset).getD 0)
    | p, o => BitVec.ofNat 32 (((regFields p o).map fieldsReset).getD 0)

end Sys2Proof.Machine
end

