-- ==== Sys2Proof/Machine/State.lean ====
section
/-! DEFINITION. Sys2Proof/Machine/State.lean: the state of one unit, why a step may stop, and the state after reset. -/
namespace Sys2Proof.Machine

/-- Why the machine stops with a fault. (DESIGN CHOICE, log 10). -/
inductive Fault where
  /-- Raised by every meaning whose DRAM access lies outside the 16 GiB of R436: the spec gives no memory there (a base
  register may hold such an address). Safe: the machine stops where the spec says nothing. -/
  | dramOutsideSpace (addr : Nat)
deriving DecidableEq, Repr

/-- Why the machine refuses a command. -/
inductive Refusal where
  /-- Raised by an arm of `exec` that has no meaning yet, under its mnemonic. Safe: nothing is claimed of it. -/
  | notModelled (mnemonic : String)
deriving DecidableEq, Repr

/-- What the unit sends or drives, as it leaves: the model's own record of its outputs. (DESIGN CHOICE, log 6). -/
inductive Emission where
  /-- MSI-X message of a vector; function 0 is the physical function (R66). -/
  | msix (fn vec : Nat)
  /-- A frame at a port (4 is MGMT), with its launch marker for scheduled frames. -/
  | frame (port : Nat) (f : TxFrame) (scheduled : Bool)
  /-- The link of a port went down (R123): the frame being sent ends with an invalid FCS, and the last `n` frames handed to the
  port after it are not sent. -/
  | cut (port n : Nat)
  /-- A Hinge frame with its SEQ and FLAGS (R257). -/
  | hinge (seq : Nat) (unitB act : Bool) (f : HFrame)
  /-- A write of the device to host memory for a function (R318, R319). -/
  | hostWrite (fn addr : Nat) (bytes : List Byte)
  /-- An interrupt of a Courier completion is part of IRQ_STS; pins: TIO n, PPS_OUT, with the local time in 0.25 ns. -/
  | tio (pin : Nat) (level : Bool) (time : Nat)
  | pps (level : Bool) (time : Nat)
deriving DecidableEq, Repr

/-- The state of one unit. -/
structure State where
  /-- Commands waiting, first in first out. -/
  pending : List Instr := []
  /-- The register file: every register of every page that does not hold its reset value (R6, R9, R34, R40). -/
  regs : Tbl Word := []
  /-- Low words written and waiting for their high word (R38), by register address. -/
  shadow : Tbl Word := []
  /-- Words latched by a read for one requester (R38, R332, R375), by requester and address. -/
  latch : Tbl Word := []
  /-- Soft resets in progress, by page base (R47). -/
  srst : Tbl Bool := []
  /-- MSI-X vectors masked, and with their pending bit set, by 16 × function + vector (R66). -/
  msixMask : Tbl Bool := []
  msixPend : Tbl Bool := []
  /-- Device DRAM (R436): bytes that are not zero. -/
  dram : List Host.Cell := []
  /-- Poisoned 64-byte lines (R438). -/
  poison : Tbl Bool := []
  /-- Flash contents (R445): bytes that are not 0xFF. -/
  flash : List Host.Cell := []
  flashJob : Option FlashJob := none
  /-- Work whose flash command had been issued when other work or a supply warning arrived (R445). -/
  flashRun : Option FlashWork := none
  ckpt : CkptSt := {}
  restoredPubs : List (Nat × Nat × Nat × Nat) := []
  scrub : Tbl ScrubSt := []
  ledger : LedgerSt := {}
  /-- Single-symbol errors corrected since the last sample of metric ECC (R380), by the cell's SOURCE. -/
  ecc : Tbl Nat := []
  scans : Tbl ScanSt := []
  time : TimeSt := {}
  cells : Tbl Cell := []
  guests : Tbl Guest := []
  gcmds : Tbl GCmd := []
  patchJobs : Tbl PatchSet := []
  patchPend : Tbl PatchSet := []
  /-- Point command in progress (R221): write or read, point, data. -/
  pointJob : Option (Bool × Nat × Nat) := none
  /-- Writes of POINT's two ports in the current millisecond (R222). -/
  ptNow : Nat × Nat := (0, 0)
  /-- Points committed at the tick of the latest commit point, with what they held before it (R207). -/
  preCommit : Nat × Tbl DWord := (0, [])
  /-- COMMIT_PTS and FREEZE_PTS of each execution block as of the latest grid tick (R216, R217). -/
  exbLoad : Tbl Nat := []
  pubs : Tbl Pub := []
  addrCount : Tbl Nat := []
  pubJob : Option Nat := none
  /-- Publication entries accepted and waiting for their guest's commit point (R111). -/
  pubAccept : List (Nat × Option PubEntry) := []
  due : List DueFrame := []
  nsq : Tbl (List NsFrame) := []
  /-- Sequence number of the unit's own frames on a pair (R118). -/
  unitSeq : Nat := 0
  /-- Ports whose link is up (4 is MGMT). -/
  link : Tbl Bool := []
  /-- The frames that a port is sending, or has been given to send one after another: elapsed local time of each one's first and
  last bit (R116, R123). -/
  wire : Tbl (List (Nat × Nat)) := []
  dd : Tbl (Tbl DdEntry) := []
  porter : PorterSt := {}
  align : AlignSt := {}
  keyring : KeyringSt := {}
  hinge : HingeSt := {}
  role : RoleSt := {}
  courier : CourierSt := {}
  analog : AnalogSt := {}
  clk : ClkSt := {}
  tap : Tap := .idcode
  /-- The pads belong to the TAP until the next Test-Logic-Reset (R494). -/
  padsTaken : Bool := false
  /-- CHIP is isolated (R27): its FAULT_STS keeps no bit for it (R51, R52). -/
  chipLost : Bool := false
  /-- UNIT_SEL as sampled at reset release (R482): false is unit A. -/
  unitB : Bool := false
  /-- The model's own counter of uses of open values. -/
  freeCtr : Nat := 0
  /-- The model's own record of outputs, newest first. -/
  sent : List Emission := []
deriving DecidableEq, Repr

/-- The machine right after reset: every register at its reset value, every table, queue and engine empty, the mode BOOT
(R9, R304). (DESIGN CHOICE, log 2, 11, 12). -/
def State.reset : State := {}

end Sys2Proof.Machine
end

