-- ==== Sys2Proof/Machine/Ops.lean ====
section
/-! DEFINITION. Sys2Proof/Machine/Ops.lean: the named operations over registers, interrupts, time and memory that every
meaning is written with. -/
namespace Sys2Proof.Machine

/-- The outcome of a command. -/
abbrev Result := Host.Outcome State Fault Refusal

/-! ### Registers -/

/-- The stored word of a register (its reset value until it is written). -/
def State.rd (s : State) (p : Page) (o : Nat) : Word :=
  Tbl.get (resetWord (Page.base p + o)) (Page.base p + o) s.regs

/-- Store a register's word. -/
def State.wr (s : State) (p : Page) (o : Nat) (w : Word) : State :=
  { s with regs := Tbl.set (resetWord (Page.base p + o)) (Page.base p + o) w s.regs }

/-- A field of a stored register. -/
def State.rdf (s : State) (p : Page) (o hi lo : Nat) : Nat := bits (s.rd p o) hi lo

/-- Store a field of a register. -/
def State.wrf (s : State) (p : Page) (o hi lo v : Nat) : State := s.wr p o (setBits (s.rd p o) hi lo v)

/-- Store a number in a whole register. -/
def State.wrn (s : State) (p : Page) (o v : Nat) : State := s.wr p o (BitVec.ofNat 32 v)

/-- A 64-bit value held in two consecutive registers, low word first (R38). -/
def State.rd2 (s : State) (p : Page) (o : Nat) : Nat := (s.rd p o).toNat + 2 ^ 32 * (s.rd p (o + 4)).toNat

/-- Store a 64-bit value in two consecutive registers. -/
def State.wr2 (s : State) (p : Page) (o v : Nat) : State := (s.wrn p o v).wrn p (o + 4) (v / 2 ^ 32)

/-- Advance a saturating 32-bit counter. -/
def State.bumpBy (s : State) (p : Page) (o n : Nat) : State := s.wrn p o (satAdd 0xFFFF_FFFF (s.rd p o).toNat n)
/-- Advance a saturating 32-bit counter by 1. -/
def State.bump (s : State) (p : Page) (o : Nat) : State := s.bumpBy p o 1
/-- Advance a saturating counter field by 1. -/
def State.bumpf (s : State) (p : Page) (o hi lo : Nat) : State :=
  s.wrf p o hi lo (satAdd (2 ^ (hi + 1 - lo) - 1) (s.rdf p o hi lo) 1)

/-- Set a list of registers to 0 (a counter clear). -/
def State.zero (s : State) (p : Page) (os : List Nat) : State := os.foldl (fun t o => t.wr p o 0) s

/-! ### Interrupts (R51, R64 to R67) -/

/-- Set bits of IRQ_STS from hardware. -/
def State.raise (s : State) (p : Page) (b : Nat) : State := s.wrf p HDR.IRQ_STS b b 1
/-- Set a source of a cell's CELL_IRQ_STS. -/
def State.raiseCell (s : State) (p : Page) (c b : Nat) : State := s.wrf p (win c CELL.IRQ_STS) b b 1

/-- Pending summary of a page's cells: bit c when CELL_IRQ_STS AND CELL_IRQ_EN of cell c is not 0 (R64). -/
def State.cellSum (s : State) (p : Page) : Nat :=
  (List.range (Page.cells p)).foldl
    (fun a c => if (s.rd p (win c CELL.IRQ_STS) &&& s.rd p (win c CELL.IRQ_EN)) = 0 then a else a + 2 ^ c) 0

/-- A page is pending while IRQ_STS AND IRQ_EN is not 0, its summaries included (R64); `sum` are its summaries. -/
def State.pagePending (s : State) (p : Page) (sum : Nat) : Bool :=
  decide (((s.rd p HDR.IRQ_STS ||| BitVec.ofNat 32 sum) &&& s.rd p HDR.IRQ_EN) ≠ 0)

/-- Pending summary of a region page: bit b is block b's pending interrupt (R51). -/
def State.regionSum (s : State) (r : Nat) : Nat :=
  (List.range 16).foldl
    (fun a b => match Page.blockAt r b with
      | none => a
      | some p => if s.pagePending p (s.cellSum p) then a + 2 ^ b else a) 0

/-- REGION_IRQ[r] (R64, R65). -/
def State.regionIrq (s : State) (r : Nat) : Bool := s.pagePending (Page.ofRegion r) (s.regionSum r)

/-- The key of a vector of a function in the MSI-X tables. -/
def vecKey (fn vec : Nat) : Nat := 16 * fn + vec

/-- The summary that drives a vector: REGION_IRQ[vec] for the physical function, the guest page's pending bit for a virtual
function (R66). -/
def State.vecLevel (s : State) (fn vec : Nat) : Bool :=
  if fn = 0 then s.regionIrq vec else s.pagePending (.guest fn vec) 0

/-- Send something at the pads, unless the TAP holds them (R494). (DESIGN CHOICE, log 6). -/
def State.out (s : State) (e : Emission) : State := if s.padsTaken then s else { s with sent := e :: s.sent }

/-- Send a vector's message, or set its pending bit while it is masked (R66). (DESIGN CHOICE, log 30). -/
def State.fire (s : State) (fn vec : Nat) : State :=
  if Tbl.get false (vecKey fn vec) s.msixMask then { s with msixPend := Tbl.set false (vecKey fn vec) true s.msixPend }
  else s.out (.msix fn vec)

/-- Whether the file holds an IRQ_EN (offset 0x01C of a page) that is not 0 in the range of keys; with none, no
interrupt leaves the range. -/
def State.anyIrqEn (s : State) (lo hi : Nat) : Bool :=
  s.regs.any (fun e => decide (lo ≤ e.1) && decide (e.1 < hi) && e.1 % 0x1000 == HDR.IRQ_EN)

/-- Functions whose guest pages may raise an interrupt: those with an IRQ_EN stored. -/
def State.fnsWithEn (s : State) : List (Nat × Nat) :=
  (s.regs.filter (fun e => decide (0x100_0000 ≤ e.1) && e.1 % 0x1000 == HDR.IRQ_EN)).map
    (fun e => (e.1 / 0x100_0000, e.1 / 0x1000 % 16))

/-- Send what rises between two states: vector r when REGION_IRQ[r] goes from 0 to 1, and each guest page's vector by the
same rule (R66). (DESIGN CHOICE, log 15). -/
def settle (old new : State) : State :=
  let pf := if new.anyIrqEn 0 0x100_0000 then
      (List.range 10).foldl (fun t r => if new.regionIrq r && !old.regionIrq r then t.fire 0 r else t) new
    else new
  new.fnsWithEn.foldl (fun t e => if new.vecLevel e.1 e.2 && !old.vecLevel e.1 e.2 then t.fire e.1 e.2 else t) pf

/-- What the slot registers report of a guest: its state and the cause of its halt; none when it is not loaded. -/
def State.gview (s : State) (g : Nat) : Option (GState × Nat) := (Tbl.look g s.guests).map (fun x => (x.st, x.haltCause))

/-- The guest control pages' own sources: STATE_CHG when a guest's STATE or HALT_CAUSE changed, ROLE_CHG in every page
when the unit's mode or role changed (Guest control page, R331). A chip reset raises none: it leaves every register at its reset
value (R461). (DESIGN CHOICE, log 15; DEDUCED, log 112). -/
def guestEvents (old new : State) : State :=
  if old.clk.released && !new.clk.released then new
  else
  let gs := (old.guests.map Prod.fst ++ (new.guests.map Prod.fst).filter (fun g => (Tbl.look g old.guests).isNone)).filter
    (fun g => decide (1 ≤ g) && decide (old.gview g ≠ new.gview g))
  let s := gs.foldl (fun t g => t.raise (.guest g 0) 16) new
  if old.role.mode = new.role.mode ∧ old.role.role = new.role.role then s
  else (List.range 255).foldl (fun t i => t.raise (.guest (i + 1) 0) 17) s

/-- The next state of a command that may have raised interrupts or changed what guests see. (DESIGN CHOICE, log 4). -/
def done (old new : State) : Result := .next (settle old (guestEvents old new))

/-! ### Open values -/

/-- The next open value (a free value: the spec states none). (DESIGN CHOICE, log 7). -/
def State.draw (s : State) : BitVec 64 × State := (Config.freeValue s.freeCtr, { s with freeCtr := s.freeCtr + 1 })

/-- The next draw of the random source (R352). (DESIGN CHOICE, log 7). -/
def State.drawRandom (s : State) : BitVec 256 × State := (Config.random s.freeCtr, { s with freeCtr := s.freeCtr + 1 })

/-! ### Local time (R71 to R74) -/

/-- Units of 2^-32 ns in 1 ns, in 1 s, and in the clock's whole range. -/
def nsU : Nat := 2 ^ 32
def secU : Nat := 1000000000 * 2 ^ 32
def clockU : Nat := 2 ^ 48 * secU

/-- TIME_S, TIME_NS of a clock value. -/
def secOf (c : Nat) : Nat := c / secU
def nsOf (c : Nat) : Nat := c % secU / nsU
/-- A timestamp: local time truncated to 0.25 ns, as a count of 0.25 ns (R73). -/
def stampOf (c : Nat) : Nat := c / 2 ^ 30
/-- The local time in 0.25 ns. -/
def State.now (s : State) : Nat := stampOf s.time.clock
def State.nowS (s : State) : Nat := secOf s.time.clock
def State.nowNs (s : State) : Nat := nsOf s.time.clock
/-- A 0.25 ns count as (S, NS, SUB2). -/
def qS (q : Nat) : Nat := q / 4000000000 % 2 ^ 48
def qNs (q : Nat) : Nat := q % 4000000000 / 4
def qSub (q : Nat) : Nat := q % 4
/-- SUB2 and NS as the registers pack them. -/
def qWord (q : Nat) : Nat := qSub q * 2 ^ 30 + qNs q

/-- Signed difference of two second counts modulo 2^48 (R12, R85). -/
def sDiff (a b : Nat) : Int := signed 48 (a + 2 ^ 48 - b % 2 ^ 48)
/-- a − b of two timestamps in units of 0.25 ns, wrap-safe (R85). -/
def qDiff (a b : Nat) : Int :=
  sDiff (a / 4000000000) (b / 4000000000) * 4000000000 + ((a % 4000000000 : Nat) : Int) - ((b % 4000000000 : Nat) : Int)

/-- a − b of two clock values in units of 2^-32 ns, wrap-safe (R85). -/
def cDiff (a b : Nat) : Int := sDiff (a / secU) (b / secU) * secU + ((a % secU : Nat) : Int) - ((b % secU : Nat) : Int)

/-- Ticks of the base grid since the top of second at a time in ns (R10, R74). -/
def tickOfNs (ns : Nat) : Nat := ns * 288 / 1000000
/-- Local ns at which grid tick k begins (R74). -/
def nsOfTick (k : Nat) : Nat := ceilDiv (k * 1000000) 288
/-- The absolute tick of a clock value: S × 288,000 + k. -/
def absTick (c : Nat) : Nat := secOf c * 288000 + tickOfNs (nsOf c)
/-- The clock value of an absolute tick. -/
def clockOfTick (t : Nat) : Nat := t / 288000 * secU + nsOfTick (t % 288000) * nsU

/-- The first tick at or after a clock value. -/
def ceilTick (c : Nat) : Nat := let t := absTick c; if clockOfTick t < c then t + 1 else t

/-- Cycles of a class that a second holds (R10). -/
def cyclesPerSec (n : Nat) : Nat := ceilDiv 288000 n
/-- Length in ticks of cycle c of a class of period n (R11, R204). -/
def cycleLen (n c : Nat) : Nat := if (c + 1) * n ≤ 288000 then n else 288000 - c * n
/-- The absolute tick at which cycle (s, c) of a class starts. -/
def cycleTick (n s c : Nat) : Nat := s * 288000 + c * n
/-- The first start tick of a class at or after an absolute tick. -/
def startTickFrom (n t : Nat) : Nat :=
  let s := t / 288000
  let k := t % 288000
  let c := ceilDiv k n
  if c < cyclesPerSec n then cycleTick n s c else (s + 1) * 288000

/-! ### DRAM (R436 to R438) -/

/-- Bytes of DRAM (R436). -/
def dramSize : Nat := 2 ^ 34

/-- A byte of DRAM; unlisted bytes read 0, as boot leaves every line (R304, R441). -/
def State.byte (s : State) (a : Nat) : Byte := Tbl.get 0 a s.dram

/-- `n` bytes of DRAM from an address. -/
def State.readMem (s : State) (a : Nat) : Nat → List Byte
  | 0 => []
  | n + 1 => s.byte a :: State.readMem s (a + 1) n

/-- A little-endian number of `n` bytes in DRAM (R5). -/
def State.leMem (s : State) (a n : Nat) : Nat := ofLe (s.readMem a n)

/-- Put bytes into a byte table, from an address up. -/
def putBytes (t : List Host.Cell) (a : Nat) : List Byte → List Host.Cell
  | [] => t
  | b :: r => putBytes (Tbl.set 0 a b t) (a + 1) r

/-- The canonical form of a byte memory whose unlisted bytes read `d`: addresses strictly rising, no entry equal to `d`. -/
def Memory.wf (d : Byte) (m : List Host.Cell) : Bool := Tbl.wf (fun _ => d) m

/-- Whether a range of DRAM touches a poisoned line. -/
def State.poisoned (s : State) (a n : Nat) : Bool :=
  s.poison.any (fun e => e.2 && decide (e.1 * 64 < a + n) && decide (a < e.1 * 64 + 64))

/-- The bytes of the fill value 0x0006_0000_0000_0000 of a poisoned line's points (R438). -/
def fillLine : List Byte := (List.replicate 8 (leBytes 8 0x0006_0000_0000_0000)).flatten

/-- Clear the poison of the lines a write touches, taking the fill value in their place first (R438). -/
def State.mergePoison (s : State) (a n : Nat) : State :=
  let hit := (s.poison.filter (fun e => e.2 && decide (e.1 * 64 < a + n) && decide (a < e.1 * 64 + 64))).map Prod.fst
  hit.foldl (fun t l => { t with dram := putBytes t.dram (l * 64) fillLine, poison := Tbl.set false l false t.poison }) s

/-- Write bytes to DRAM, with the merge of R437 and R438. -/
def State.writeMem (s : State) (a : Nat) (bs : List Byte) : State :=
  let s := if s.poison = [] then s else s.mergePoison a bs.length
  { s with dram := putBytes s.dram a bs }

/-- Set a range of DRAM to zero. -/
def State.zeroMem (s : State) (a n : Nat) : State :=
  let s := if s.poison = [] then s else s.mergePoison a n
  { s with dram := s.dram.filter (fun e => !(decide (a ≤ e.1) && decide (e.1 < a + n))) }

/-- Stop with a fault when a range lies outside DRAM; otherwise go on. (DESIGN CHOICE, log 10). -/
def guardDram (a n : Nat) (k : Result) : Result :=
  if a + n ≤ dramSize then k else .fault (.dramOutsideSpace a)

/-! ### Flash bytes (R445) -/

/-- A byte of flash; unlisted bytes read 0xFF, as an erased sector does. -/
def State.fbyte (s : State) (a : Nat) : Byte := Tbl.get 0xFF a s.flash

/-- `n` bytes of flash. -/
def State.readFlash (s : State) (a : Nat) : Nat → List Byte
  | 0 => []
  | n + 1 => s.fbyte a :: State.readFlash s (a + 1) n

/-- Program bytes into flash. -/
def putFlash (t : List Host.Cell) (a : Nat) : List Byte → List Host.Cell
  | [] => t
  | b :: r => putFlash (Tbl.set 0xFF a b t) (a + 1) r

/-- Erase a range of flash. -/
def eraseFlash (t : List Host.Cell) (a n : Nat) : List Host.Cell :=
  t.filter (fun e => !(decide (a ≤ e.1) && decide (e.1 < a + n)))

end Sys2Proof.Machine
end

