-- ==== Sys2Proof/Machine/Ledger.lean ====
section
/-! DEFINITION. Sys2Proof/Machine/Ledger.lean: records, their admission and the ring (R365 to R373), which every block uses. -/
namespace Sys2Proof.Machine

/-- Whether a page is isolated: by itself or by its region (R48, R52, R53). The bits are those FAULT_STS holds; CHIP, which is its
own region's page, has one of the model's. -/
def State.isolated (s : State) (p : Page) : Bool :=
  match p with
  | .guest _ _ => false
  | .region _ => false
  | .chip => s.chipLost
  | p => bit (s.rd p HDR.FAULT_STS) 16 || bit (s.rd (Page.ofRegion (Page.region p)) HDR.FAULT_STS) (Page.block p)

/-- Whether a cell is quarantined or isolated (R52, R57). -/
def State.quarantined (s : State) (p : Page) (c : Nat) : Bool := bit (s.rd p HDR.FAULT_STS) c

/-- A block takes part in the machine's work: ENABLE 1, not in a soft reset, not isolated (R46, R47, R48). -/
def State.working (s : State) (p : Page) : Bool :=
  bit (s.rd p HDR.PAGE_CTL) 0 && !Tbl.get false (Page.base p) s.srst && !s.isolated p

/-- Event codes: code and whether it is kept (R370, R371, R448, and the analog and clock chapters' tables). -/
def eventCodes : List (Nat × Bool) :=
  [(0x000, false), (0x001, true), (0x002, true), (0x010, true), (0x011, true), (0x012, true), (0x013, true), (0x014, true),
   (0x020, true), (0x021, true), (0x022, true), (0x030, false), (0x031, false), (0x040, true), (0x041, true), (0x042, true),
   (0x050, true), (0x051, false), (0x060, true), (0x061, true), (0x062, true), (0x063, true), (0x064, true)] ++
  [(0x070, false), (0x071, false), (0x072, false), (0x073, false), (0x090, false), (0x091, false), (0x092, false),
   (0x093, false), (0x0B0, true), (0x0B1, true), (0x0B2, true), (0x0C0, true), (0x0C1, true), (0x0C2, true),
   (0x0C3, false), (0x0C4, true), (0x0C5, false)]

/-- Whether a code is kept. -/
def keptCode (c : Nat) : Bool := eventCodes.any (fun e => e.1 == c && e.2)

/-- SOURCE of a record (R366): cell window, block, region. -/
def sourceOf (p : Page) (cell : Nat) : Nat := cell + 16 * Page.block p + 4096 * Page.region p

/-- Payload bytes padded to a multiple of 16 (R366). -/
def pad16 (l : List Byte) : List Byte := l ++ List.replicate ((16 - l.length % 16) % 16) 0

/-- Token units: one token is 10^9 × 2^32 units, so a code gains RATE units per clock unit (R372). -/
def tokenU : Nat := secU

/-- BURST and RATE of a code (R387). -/
def State.codeCfg (s : State) (c : Nat) : Word := Tbl.get 0x0010_03E8 c s.ledger.codeCfg

/-- Tokens of a code's bucket now; a bucket that nothing has used is full. (DEDUCED, log 91). -/
def State.tokens (s : State) (c : Nat) : Nat :=
  let w := s.codeCfg c
  let cap := bits w 23 16 * tokenU
  match Tbl.look c s.ledger.buckets with
  | none => cap
  | some b => min cap (b.level + (s.time.elapsed - b.at_) * bits w 15 0)

/-- Records the ingest queue holds at most (R365, R373). -/
def State.ingestCap (s : State) : Nat := if s.ledger.started then 512 else 16

/-- Add 1 to a code's pending count. -/
def State.addPending (s : State) (c : Nat) : State :=
  { s with ledger := { s.ledger with
      pendingCnt := Tbl.set 0 c (satAdd 0xFFFF_FFFF (Tbl.get 0 c s.ledger.pendingCnt) 1) s.ledger.pendingCnt } }

/-- Emit a kept record: it is always admitted, and waits in its block when the ingest queue is full (R372, R373).
(DEDUCED, log 90). -/
def State.emitKept (s : State) (r : LRec) : State :=
  if s.ledger.keptWait = [] ∧ s.ledger.ingest.length < s.ingestCap then
    { s with ledger := { s.ledger with ingest := s.ledger.ingest ++ [r] } }
  else { s with ledger := { s.ledger with keptWait := s.ledger.keptWait ++ [r] } }

/-- Emit an ordinary record of a block whose REC_EN is 1: it takes a token or is suppressed, and is dropped when the ingest
queue is full (R372, R373). -/
def State.emitOrdinary (s : State) (p : Page) (r : LRec) : State :=
  if ¬ bit (s.rd p HDR.LEDGER_CTL) 0 then s
  else
    let t := s.tokens r.code
    if t < tokenU then (s.addPending r.code).bump .ledger LEDGER.SUPPRESSED
    else
      let s := { s with ledger := { s.ledger with
        buckets := Tbl.put r.code ⟨t - tokenU, s.time.elapsed⟩ s.ledger.buckets } }
      if s.ledger.ingest.length < s.ingestCap then
        { s with ledger := { s.ledger with
            ingest := s.ledger.ingest ++ [{ r with supp := Tbl.get 0 r.code s.ledger.pendingCnt }],
            pendingCnt := Tbl.set 0 r.code 0 s.ledger.pendingCnt } }
      else ((s.addPending r.code).bump .ledger LEDGER.INGEST_FULL).raise .ledger 17

/-- Emit a record of a unit with a guest and a payload, stamped now (R366, R368). -/
def State.emitAt (s : State) (p : Page) (cell code guest : Nat) (payload : List Byte) : State :=
  let r : LRec := ⟨code, guest, sourceOf p cell, s.now, s.time.stepGen, pad16 payload, 0⟩
  if keptCode code then s.emitKept r else s.emitOrdinary p r

/-- Emit a record of a block. -/
def State.emit (s : State) (p : Page) (code guest : Nat) (payload : List Byte) : State := s.emitAt p 0 code guest payload

/-- An EPOCH record (R368, R371). -/
def State.epochRec (s : State) : LRec :=
  ⟨0x002, 0, sourceOf .ledger 0, s.now, s.time.stepGen, pad16 (leBytes 6 s.nowS), 0⟩

/-- Write an EPOCH next, if the writer runs (R368). -/
def State.epoch (s : State) : State :=
  if s.ledger.running then
    { s with ledger := { s.ledger with own := s.ledger.own ++ [s.epochRec], epochHi := s.nowS / 65536 } }
  else s

/-! ### The ring -/

/-- Base and size of the ring in force (R365, R387). -/
def State.ringBase (s : State) : Nat := s.rd2 .ledger LEDGER.LG_BASE_LO
def State.ringSize (s : State) : Nat := 2 ^ bits (s.rd .ledger LEDGER.LG_CFG) 4 0

/-- The bytes of a record as R366 and R367 lay them out, with its sequence number. -/
def recBytes (r : LRec) (seq : Nat) : List Byte :=
  let supp := r.supp ≠ 0
  let body := r.payload ++ (if supp then leBytes 4 r.supp ++ List.replicate 12 0 else [])
  let len := 1 + body.length / 16
  leBytes 1 (len + 32 * b2n (decide supp) + 64 * b2n (keptCode r.code)) ++ leBytes 1 r.guest ++
    leBytes 2 (r.code + 1024 * r.gen) ++ leBytes 2 r.source ++ leBytes 2 (qS r.ts % 65536) ++
    leBytes 4 (seq % 2 ^ 32) ++ leBytes 4 (qWord r.ts) ++ body

/-- Entries of the ring index that a write of `n` bytes at `ofs` leaves whole: the tail moves past the others, oldest
first (R369). -/
def freeFor (size ofs n : Nat) : List RingEnt → List RingEnt
  | [] => []
  | e :: t =>
    -- distance from the write's start to the oldest record, going round the ring
    let gap := (e.ofs + size - ofs) % size
    if n ≤ gap then e :: t else freeFor size ofs n t

/-- Drop fillers from the front: the tail stands at a record. -/
def dropFill : List RingEnt → List RingEnt
  | [] => []
  | e :: t => if e.filler then dropFill t else e :: t

/-- Where the tail stands: at the oldest record, or at the head when the ring is empty (R375). -/
def State.setTail (s : State) : State :=
  let idx := dropFill s.ledger.idx
  { s with ledger := { s.ledger with idx := idx, tailOfs := (match idx with | [] => s.ledger.headOfs | e :: _ => e.ofs) } }

/-- Place `bs` at the head; the head advances past it only after the bytes are in DRAM (R369). -/
def State.place (s : State) (bs : List Byte) (seq guest : Nat) (filler : Bool) : State :=
  let l := s.ledger
  let size := s.ringSize
  let free := if l.idx = [] then [] else freeFor size l.headOfs bs.length l.idx
  let t := { s with ledger := { l with idx := free } }
  let t := t.writeMem (t.ringBase + l.headOfs) bs
  { t with ledger := { t.ledger with
      idx := t.ledger.idx ++ [⟨seq, l.headOfs, bs.length, guest, filler⟩], headOfs := (l.headOfs + bs.length) % size } }

/-- Write one record: a filler first when it does not fit before the end of the ring (R367), then the record under the next
sequence number (R368); the Ledger view of the guest it names sees it (R335). -/
def State.writeRec (s : State) (r : LRec) : State :=
  let seq := s.ledger.headSeq + 1
  let bs := recBytes r seq
  let gap := s.ringSize - s.ledger.headOfs
  let s := if gap < bs.length then
      s.place (leBytes 1 (gap / 16) ++ List.replicate (gap - 1) 0) 0 0 true
    else s
  let s := s.place bs seq r.guest false
  let s := ({ s with ledger := { s.ledger with headSeq := seq } } : State).setTail
  let s := s.bump .ledger LEDGER.RECORDS
  if r.guest = 0 then s
  else (s.wr2 (.guest r.guest 3) GLV.LV_HEAD_LO seq).raise (.guest r.guest 3) 16

/-- The Ledger writer runs: past BOOT, ENABLE 1, no soft reset, not isolated (R365). -/
def State.writerCan (s : State) : Bool :=
  decide (s.role.mode ≠ .boot) && bit (s.rd .ledger HDR.PAGE_CTL) 0 && !Tbl.get false (Page.base .ledger) s.srst
    && !s.isolated .ledger

/-- The next record that the writer takes: its own first, then kept ones, then ordinary ones (R365, R373). -/
def takeNext (l : LedgerSt) : Option (LRec × LedgerSt) :=
  match l.own with
  | r :: t => some (r, { l with own := t })
  | [] =>
    match l.ingest.find? (fun r => keptCode r.code) with
    | some r => some (r, { l with ingest := l.ingest.erase r })
    | none =>
      match l.keptWait with
      | r :: t => some (r, { l with keptWait := t })
      | [] =>
        match l.ingest with
        | r :: t => some (r, { l with ingest := t })
        | [] => none

end Sys2Proof.Machine
end

