-- ==== Sys2Proof/Machine/Memory.lean ====
section
/-! DEFINITION. Sys2Proof/Machine/Memory.lean: DRAM errors (R438), points in DRAM (R221, R441), check values (R383). -/
namespace Sys2Proof.Machine

/-- The controller page and window of a DRAM address (R436). -/
def dramPage (a : Nat) : Page × Nat := (.dramc (a / 2048 % 2), a / 256 % 8)

/-- An uncorrectable error found by a reader at an address (R438): the line is poisoned, counted, its address stored, IRQ UE
raised and a kept DRAM_UE record written with the reader's row of R439. -/
def State.dramUe (s : State) (a reader : Nat) : State :=
  let l := a / 64
  let (p, c) := dramPage a
  let s : State := { s with poison := Tbl.set false l true s.poison }
  let s := (s.bump p (win c DRAMCW.CH_UE)).bump p DRAMC.UE_TOTAL
  let s := s.wr2 p DRAMC.UE_ADDR_LO (l * 64)
  let s := (s.raise p 16).raiseCell p c 0
  s.emitAt p c 0x0B0 0 (leBytes 8 (l * 64) ++ [BitVec.ofNat 8 (a / 256 % 16), BitVec.ofNat 8 reader])

/-- A single-symbol error in cell `c` of a block is corrected and counted in the cell's register and for metric ECC, where the block
keeps them (R26, R215, R438). -/
def State.eccCorrect (s : State) (p : Page) (c : Nat) : State :=
  let k := sourceOf p c
  let t : State := { s with ecc := Tbl.put k (Tbl.get 0 k s.ecc + 1) s.ecc }
  match p with
  | .exb _ => t.bump p (win c EXBW.CELL_ECC_CORR)
  | .pcache _ => t.bump p (win c PCACHEW.BANK_ECC_CORR)
  | .dramc _ => (t.bump p (win c DRAMCW.CH_CE)).bump p DRAMC.CE_TOTAL
  | _ => s

/-- The poisoned lines of a range, in ascending order. -/
def State.poisonIn (s : State) (a n : Nat) : List Nat :=
  (s.poison.filter (fun e => e.2 && decide (e.1 * 64 < a + n) && decide (a < e.1 * 64 + 64))).map Prod.fst

/-- Handle the uncorrectable errors a reader meets in a range (R438). (DEDUCED, log 105). -/
def State.ueRange (s : State) (a n reader : Nat) : State :=
  (s.poisonIn a n).foldl (fun t l => t.dramUe (l * 64) reader) s

/-- Open bytes: the spec states no content for a read that is uncorrectable. -/
def State.drawBytes (s : State) : Nat → List Byte × State
  | 0 => ([], s)
  | n + 1 =>
    let (v, s) := s.draw
    let (l, s) := State.drawBytes s n
    (BitVec.ofNat 8 v.toNat :: l, s)

/-- Read bytes for a reader that R439 does not list: an uncorrectable error is handled (R438), with an open READER byte, and
what is read is open. -/
def State.readOpen (s : State) (a n : Nat) : List Byte × State :=
  if s.poisoned a n then
    let (v, s) := s.draw
    (s.ueRange a n (v.toNat % 256)).drawBytes n
  else (s.readMem a n, s)

/-! ### Points (R207, R221, R441) -/

/-- Points of the image (R32). -/
def pointCount : Nat := 2 ^ 25
/-- The fill value of a point on a poisoned line: value 0, ORIGIN expired, VAL invalid (R438). -/
def pointFill : DWord := 0x0006_0000_0000_0000

/-- DRAM address of a point (R222, R441). -/
def State.pointAddr (s : State) (p : Nat) : Nat := s.rd2 .point POINT.PIMG_BASE_LO + 8 * p

/-- The point image lies in DRAM where PIMG_BASE places it. -/
def State.imageInDram (s : State) : Bool := decide (s.rd2 .point POINT.PIMG_BASE_LO + 8 * pointCount ≤ dramSize)

/-- A point as it stands in the image. -/
def State.point (s : State) (p : Nat) : DWord :=
  if s.poisoned (s.pointAddr p) 8 then pointFill else BitVec.ofNat 64 (s.leMem (s.pointAddr p) 8)

/-- Write a point. -/
def State.setPoint (s : State) (p : Nat) (v : DWord) : State := s.writeMem (s.pointAddr p) (leBytes 8 v.toNat)

/-- A point as a freeze at absolute tick `t` sees it: a commit made at `t` itself is not in it (R207). -/
def State.pointAt (s : State) (t p : Nat) : DWord :=
  if s.preCommit.1 = t then (Tbl.look p s.preCommit.2).getD (s.point p) else s.point p

/-- The channels whose two output points meet `n` points from `p` on: FC_OUT.EN = 1 (R416). -/
def State.filtPoints (s : State) (p n : Nat) : List Nat :=
  (List.range 16).filter (fun c =>
    let w := s.rd .filt (win c FILTW.FC_OUT)
    bit w 31 && decide (p < bits w 24 0 + 2) && decide (bits w 24 0 < p + n))

/-- Whether a point lies in the status area (R173), in the span of a stream context (R201) or in that of a filter channel's
outputs (R416). -/
def State.streamPoint (s : State) (p : Nat) : Bool :=
  let b := (s.rd .align ALIGN.STATUS_BASE).toNat
  (decide (b ≤ p) && decide (p < b + 4096)) || !(s.filtPoints p 1).isEmpty ||
    s.porter.ctxs.any (fun e => decide (e.2.d.pointBase ≤ p) && decide (p < e.2.d.pointBase + e.2.d.pointCount))

/-- Whether a line of the point image holds such a point. -/
def State.streamLine (s : State) (l : Nat) : Bool := (List.range 8).any (fun i => s.streamPoint (8 * l + i))

/-! ### Check values (R383) -/

/-- Parameters of a CRC: width, polynomial, initial value, reflected, final XOR. -/
structure Crc where
  w : Nat
  poly : Nat
  init : Nat
  refl : Bool
  xor : Nat
deriving DecidableEq, Repr

/-- Reverse the low `n` bits of a number. -/
def revBits : Nat → Nat → Nat
  | 0, _ => 0
  | n + 1, v => (v % 2) * 2 ^ n + revBits n (v / 2)

/-- The four CRCs of R383. -/
def crcOf (poly : Nat) : Crc :=
  match poly with
  | 0 => ⟨32, 0x04C1_1DB7, 0xFFFF_FFFF, true, 0xFFFF_FFFF⟩
  | 1 => ⟨32, 0x1EDC_6F41, 0xFFFF_FFFF, true, 0xFFFF_FFFF⟩
  | 2 => ⟨64, 0x42F0_E1EB_A9EA_3693, 0, false, 0⟩
  | _ => ⟨16, 0x1021, 0xFFFF, false, 0⟩

/-- Eight steps of a CRC register, the top bit first; `n` counts down. -/
def crcBits (c : Crc) : Nat → Nat → Nat
  | 0, r => r
  | n + 1, r =>
    let top := r / 2 ^ (c.w - 1) % 2
    let r := r * 2 % 2 ^ c.w
    crcBits c n (if top = 1 then r ^^^ c.poly else r)

/-- One byte through a CRC register kept in the unreflected form. -/
def crcByte (c : Crc) (r : Nat) (b : Byte) : Nat :=
  let x := if c.refl then revBits 8 b.toNat else b.toNat
  crcBits c 8 (r ^^^ (x * 2 ^ (c.w - 8)))

/-- Bytes through a CRC register. -/
def crcRun (c : Crc) (r : Nat) (l : List Byte) : Nat := l.foldl (crcByte c) r

/-- The check value of a register's state. -/
def crcEnd (c : Crc) (r : Nat) : Nat := (if c.refl then revBits c.w r else r) ^^^ c.xor

/-- CRC-32C of a byte string, as the device's own formats use it (R224, R257, R260, R303, R447). -/
def crc32c (l : List Byte) : Nat := crcEnd (crcOf 1) (crcRun (crcOf 1) (crcOf 1).init l)

/-- `n` bytes of a byte string from an offset, as a little-endian number. -/
def leAt (b : List Byte) (o n : Nat) : Nat := ofLe ((b.drop o).take n)

/-- Flash size in bytes (R445, R452), 0 when none is present. -/
def State.flashSize (s : State) : Nat :=
  if bit (s.rd .flash FLASH.FL_STS) 0 then 2 ^ s.rdf .flash FLASH.FL_STS 20 16 else 0
/-- A supply warning holds (R469). -/
def State.pwrWarn (s : State) : Bool := bit (s.rd .pwrmon PWRMON.PWR_STS) 31

end Sys2Proof.Machine
end

