-- ==== Sys2Proof/Machine/Operands.lean ====
section
/-! DEFINITION. Sys2Proof/Machine/Operands.lean: an execution cell's registers, its address map, loads and stores, and program
faults (R195 to R199, R210, R226, R229). -/
namespace Sys2Proof.Machine

/-- Cell `c`, 0 to 255. -/
def State.cell (s : State) (c : Nat) : Cell := Tbl.get {} c s.cells
/-- Store a cell. -/
def State.setCell (s : State) (c : Nat) (x : Cell) : State := { s with cells := Tbl.set {} c x s.cells }
/-- Guest `g`, when it is loaded. -/
def State.guest (s : State) (g : Nat) : Option Guest := Tbl.look g s.guests
/-- Store a guest. -/
def State.setGuest (s : State) (g : Nat) (x : Guest) : State := { s with guests := Tbl.put g x s.guests }
/-- Change a guest that is loaded. -/
def State.modGuest (s : State) (g : Nat) (f : Guest → Guest) : State :=
  match s.guest g with
  | some x => s.setGuest g (f x)
  | none => s

/-- The page and window of an execution cell (R15). -/
def cellPage (c : Nat) : Page := .exb (c / 16)
/-- The cells of a guest, ascending: position p is the p-th set bit of the mask (R225). -/
def guestCells (exb mask : Nat) : List Nat := ((List.range 16).filter (fun i => mask.testBit i)).map (fun i => 16 * exb + i)
/-- The cells of a loaded guest. -/
def Guest.cellList (x : Guest) : List Nat := guestCells x.exb x.mask

/-! ### Registers (R229) -/

/-- A general register; g0 reads 0. -/
def Cell.rd (x : Cell) (r : RegNo) : DWord := if r = 0 then 0 else Tbl.get 0 r.toNat x.g
/-- Write a general register; a write of g0 is discarded. -/
def Cell.wr (x : Cell) (r : RegNo) (v : DWord) : Cell := if r = 0 then x else { x with g := Tbl.set 0 r.toNat v x.g }
/-- A vector register. -/
def Cell.vrd (x : Cell) (r : RegNo) : BitVec 512 := Tbl.get 0 r.toNat x.v
/-- Write a vector register. -/
def Cell.vwr (x : Cell) (r : RegNo) (v : BitVec 512) : Cell := { x with v := Tbl.set 0 r.toNat v x.v }
/-- Lane `n` of a vector. -/
def laneOf (v : BitVec 512) (n : Nat) : DWord := BitVec.ofNat 64 (v.toNat / 2 ^ (64 * n))
/-- A vector from its eight lanes. -/
def vecOf (f : Nat → DWord) : BitVec 512 :=
  BitVec.ofNat 512 ((List.range 8).foldl (fun a n => a + (f n).toNat * 2 ^ (64 * n)) 0)

/-! ### Issue -/

/-- Count of words issued in this window and the cycle counter: a word that opens an issue pair after the first advances the
counter by one cycle and the cycles it stalls (R195, R229). (DESIGN CHOICE, log 9; DEDUCED, log 65). -/
def Cell.issue (x : Cell) : Cell :=
  match x.lastPc with
  | none => { x with lastPc := some x.pc }
  | some l =>
    if x.pc = l + 4 ∧ x.pc % 8 = 4 then { x with lastPc := some x.pc }
    else { x with lastPc := some x.pc, cyc := (x.cyc + 1 + Config.cellStall x.cyc) % 2 ^ 64 }

/-- The next word in address order. -/
def Cell.next (x : Cell) : Cell := { x with pc := x.pc + 4 }

/-- A program fault of a kind of R219 at cell `c`: the guest's execution stops on all its cells at once (R198), and the
cell's fault registers take the kind, the word's address and the data address. -/
def State.progFault (s : State) (c kind pc addr : Nat) : State :=
  let p := cellPage c
  let w := c % 16
  let s := (s.wrf p (win w EXBW.CELL_FAULT) 3 0 kind).wrn p (win w EXBW.CELL_FAULT_PC) pc
  let s := s.wrn p (win w EXBW.CELL_FAULT_ADDR) addr
  let g := (s.cell c).guest
  match s.guest g with
  | none => s.setCell c { s.cell c with run := .stopped }
  | some x =>
    let s := x.cellList.foldl (fun t i => t.setCell i { t.cell i with run := .stopped }) s
    s.setGuest g { x with progFault := true }

/-- Execution stays in the instruction SRAM: a word address below 64 KiB (R198). -/
def inIsram (pc : Nat) : Bool := decide (pc + 4 ≤ 0x1_0000) && pc % 4 == 0

/-- Issue one word at cell `c` while it executes: `f` is the word's effect on the cell with the issue counted. A cell that
does not execute issues nothing; a PC past the last word is a program fault (R198). (DEDUCED, log 14). -/
def issueAt (c : Nat) (s : State) (f : Cell → State → State) : Result :=
  let x := s.cell c
  if x.run = .running then
    if inIsram x.pc then .next (f x.issue s) else .next (s.progFault c 4 x.pc 0)
  else .next s

/-- A word that changes its own cell only. (DEDUCED, log 14). -/
def cellOp (c : Nat) (s : State) (f : Cell → Cell) : Result := issueAt c s (fun x t => t.setCell c (f x).next)

/-! ### The address map (R197) -/

/-- Where a data access of firmware lands. -/
inductive Place where
  | data (ofs : Nat) | xch (ofs : Nat) | ctx (ofs : Nat)
deriving DecidableEq, Repr

/-- Bytes of the exchange area allotted to a cell's guest (R205). -/
def State.xchBytes (s : State) (x : Cell) : Nat :=
  match s.guest x.guest with
  | some g => 64 * g.img.xch
  | none => 0

/-- The place of an access of `n` bytes at address `a`, against the access column of R197; none is an access
violation. -/
def State.place? (s : State) (x : Cell) (a n : Nat) (store : Bool) : Option Place :=
  if 0x1000_0000 ≤ a ∧ a + n ≤ 0x1004_0000 then
    let o := a - 0x1000_0000
    if store && decide (x.inLo < o + n) && decide (o < x.inHi) then none else some (.data o)
  else if 0x2000_0000 ≤ a ∧ a + n ≤ 0x2000_0000 + s.xchBytes x then some (.xch (a - 0x2000_0000))
  else if 0x3000_0000 ≤ a ∧ a + n ≤ 0x3000_0040 ∧ ¬ store then some (.ctx (a - 0x3000_0000))
  else none

/-- `n` bytes of a byte table that reads 0 where nothing is listed. -/
def tblBytes (t : Tbl Byte) (a : Nat) : Nat → List Byte
  | 0 => []
  | n + 1 => Tbl.get 0 a t :: tblBytes t (a + 1) n

/-- The 64 bytes of the cycle context of a guest (R203). -/
def ctxBytes (g : Guest) : List Byte :=
  leBytes 8 g.cycS ++ leBytes 4 g.cycC ++ leBytes 4 g.cycLen ++
    leBytes 4 (b2n (decide (g.cycLen < g.img.n)) + 2 * b2n g.first + 4 * b2n g.stepped) ++
    leBytes 4 g.img.budget ++ List.replicate 40 0

/-- The bytes a load reads. -/
def State.loadBytes (s : State) (x : Cell) (pl : Place) (n : Nat) : List Byte :=
  match pl with
  | .data o => tblBytes x.dsram o n
  | .xch o => match s.guest x.guest with
    | some g => tblBytes g.xch o n
    | none => List.replicate n 0
  | .ctx o => match s.guest x.guest with
    | some g => ((ctxBytes g).drop o).take n
    | none => List.replicate n 0

/-- Mark the lines of a range dirty (R210). -/
def markDirty (t : Tbl Bool) (o n : Nat) : Tbl Bool :=
  (List.range (((o + n - 1) / 64) + 1 - o / 64)).foldl (fun d i => Tbl.set false (o / 64 + i) true d) t

/-- Store bytes in the cell's data SRAM, setting dirty bits. -/
def Cell.store (x : Cell) (o : Nat) (bs : List Byte) : Cell :=
  { x with dsram := putBytes x.dsram o bs, dirty := markDirty x.dirty o bs.length }

/-- Store bytes of cell `c` (whose state is `x`). -/
def State.storeBytes (s : State) (c : Nat) (x : Cell) (pl : Place) (bs : List Byte) : State :=
  match pl with
  | .data o => s.setCell c (x.store o bs)
  | .xch o => (s.setCell c x).modGuest x.guest
      (fun g => { g with xch := putBytes g.xch o bs, xchDirty := markDirty g.xchDirty o bs.length })
  | .ctx _ => s.setCell c x

/-- Effective address: register a plus the signed IMM, 64 bits (R230). -/
def Cell.ea (x : Cell) (a : RegNo) (imm : BitVec 16) : Nat := (x.rd a + imm.signExtend 64).toNat

/-- A load of `n` bytes: a misaligned access comes before an access violation (R198); otherwise `f` takes the bytes to the
cell. -/
def loadOp (c n : Nat) (a : RegNo) (imm : BitVec 16) (s : State) (f : Cell → List Byte → Cell) : Result :=
  issueAt c s (fun x t =>
    let ad := x.ea a imm
    if ad % n ≠ 0 then t.progFault c 3 x.pc ad
    else match t.place? x ad n false with
      | none => t.progFault c 2 x.pc ad
      | some pl => t.setCell c (f x (t.loadBytes x pl n)).next)

/-- A store of the `n` bytes that `f` takes from the cell. -/
def storeOp (c n : Nat) (a : RegNo) (imm : BitVec 16) (s : State) (f : Cell → List Byte) : Result :=
  issueAt c s (fun x t =>
    let ad := x.ea a imm
    if ad % n ≠ 0 then t.progFault c 3 x.pc ad
    else match t.place? x ad n true with
      | none => t.progFault c 2 x.pc ad
      | some pl => t.storeBytes c x.next pl (f x))

/-- Branch or jump of cell `c` to an address: a target outside the instruction SRAM is a program fault at the jump (R198). -/
def State.jump (s : State) (c : Nat) (x : Cell) (target : Int) : State :=
  if 0 ≤ target ∧ inIsram target.toNat then s.setCell c { x with pc := target.toNat } else s.progFault c 4 x.pc 0

/-- A conditional branch. -/
def branchOp (c : Nat) (a b : RegNo) (ofs : BitVec 16) (s : State) (cond : DWord → DWord → Bool) : Result :=
  issueAt c s (fun x t =>
    if cond (x.rd a) (x.rd b) then t.jump c x ((x.pc : Int) + 4 * ofs.toInt) else t.setCell c x.next)

end Sys2Proof.Machine
end

