-- ==== Sys2Proof/Machine/Image.lean ====
section
/-! DEFINITION. Sys2Proof/Machine/Image.lean: the cycle image, its sections and lists (R224 to R227, R241, R246) and the check
of its structure (R228). -/
namespace Sys2Proof.Machine

/-- Error codes of the cycle-program chapter (R253) and of the cell chapter (R216). -/
abbrev E_SHORT : Nat := 0x38
abbrev E_WINDOW : Nat := 0x39
abbrev E_PIN : Nat := 0x3A
abbrev E_IMAGE : Nat := 0x40
abbrev E_ISA : Nat := 0x41
abbrev E_FIT : Nat := 0x42
abbrev E_ITEM : Nat := 0x43

/-- A section table entry (R225). -/
structure Sect where
  typ : Nat
  cell : Nat
  rsvd : Nat
  ofs : Nat
  len : Nat
  target : Nat
deriving DecidableEq, Repr

/-- The section table of an image. -/
def sects (b : List Byte) (ofs : Nat) : Nat → List Sect
  | 0 => []
  | n + 1 => ⟨leAt b ofs 1, leAt b (ofs + 1) 1, leAt b (ofs + 2) 2, leAt b (ofs + 4) 4, leAt b (ofs + 8) 4,
      leAt b (ofs + 12) 4⟩ :: sects b (ofs + 16) n

/-- The bytes of a section. -/
def Sect.bytes (b : List Byte) (x : Sect) : List Byte := (b.drop x.ofs).take x.len

/-- A byte string cut into numbers of `w` bytes; a rest shorter than `w` is dropped. `n` bounds the count. -/
def words (w : Nat) : Nat → List Byte → List Nat
  | 0, _ => []
  | n + 1, l => if l.length < w then [] else ofLe (l.take w) :: words w n (l.drop w)

/-- The little-endian numbers of `w` bytes of a section. -/
def Sect.words (b : List Byte) (x : Sect) (w : Nat) : List Nat := Machine.words w (x.len / w) (x.bytes b)

/-- Output list entry (R227). -/
def outEnt (v : Nat) : OutEnt := ⟨v % 2 ^ 25, v.testBit 25, v / 2 ^ 28 % 16, v / 2 ^ 32 % 2 ^ 18⟩
/-- Reserved bits of an output list entry. -/
def outRsvd (v : Nat) : Nat := v / 2 ^ 26 % 4 + v / 2 ^ 50
/-- Retained map entry (R241). -/
def retEnt (v : Nat) : RetEnt := ⟨v % 2 ^ 32, v / 2 ^ 32 % 256, v / 2 ^ 40 % 256, v / 2 ^ 64 % 2 ^ 32, v / 2 ^ 96⟩
/-- Patch map entry (R246). -/
def patchEnt (v : Nat) : PatchEnt :=
  ⟨v % 2 ^ 16, v / 2 ^ 16 % 256, v / 2 ^ 24 % 256, v / 2 ^ 32 % 2 ^ 32, v / 2 ^ 64 % 256⟩

/-- The sections of one type, and of one type and cell. -/
def ofTyp (l : List Sect) (t : Nat) : List Sect := l.filter (fun x => x.typ == t)
def ofCell (l : List Sect) (t c : Nat) : List Sect := l.filter (fun x => x.typ == t && x.cell == c)

/-- Whether a type belongs to one cell. -/
def perCell (t : Nat) : Bool := t == 1 || t == 2 || t == 3

/-- Structure checks of class 1 (E_IMAGE). (DEDUCED, log 61). -/
def imageOk (b : List Byte) : Bool :=
  let len := leAt b 8 4
  let cells := leAt b 0x12 1
  let n := leAt b 0x1A 2
  let ofs := leAt b 0x1C 4
  let l := sects b ofs n
  decide (64 ≤ b.length) && (b.take 4 == [0x56, 0x43, 0x49, 0x31]) && leAt b 4 2 == 1 &&
  decide (64 ≤ len) && decide (len ≤ 8388608) && len % 8 == 0 && b.length == len &&
  decide (1 ≤ n) && decide (n ≤ 256) && ofs % 8 == 0 && decide (ofs + 16 * n ≤ len) &&
  (crc32c (b.take 0x0C ++ [0, 0, 0, 0] ++ b.drop 0x10)).beq (leAt b 0x0C 4) &&
  leAt b 0x13 1 == 0 && leAt b 0x28 24 == 0 &&
  l.all (fun x => decide (1 ≤ x.typ) && decide (x.typ ≤ 7) && x.rsvd == 0 && x.ofs % 8 == 0 && decide (x.ofs + x.len ≤ len) &&
    (if perCell x.typ then decide (x.cell < cells) else x.cell == 0xFF)) &&
  (List.range cells).all (fun c => (ofCell l 1 c).length == 1 && decide ((ofCell l 3 c).length ≤ 1)) &&
  decide ((ofTyp l 4).length ≤ 1) && (ofTyp l 5).length == (ofTyp l 4).length &&
  decide ((ofTyp l 6).length ≤ 1) && decide ((ofTyp l 7).length ≤ 1) &&
  (ofTyp l 3).all (fun x => (x.words b 4).all (fun v => decide (v < 2 ^ 25))) &&
  (ofTyp l 4).all (fun x => (x.words b 8).all (fun v => outRsvd v == 0)) &&
  (ofTyp l 6).all (fun x => (x.words b 16).all (fun v => v / 2 ^ 48 % 2 ^ 16 == 0)) &&
  (ofTyp l 7).all (fun x => (x.words b 16).all (fun v => v / 2 ^ 72 == 0))

/-- Parse an image whose structure stands. -/
def parse (b : List Byte) : Image :=
  let l := sects b (leAt b 0x1C 4) (leAt b 0x1A 2)
  { n := leAt b 0x10 2, cells := leAt b 0x12 1, budget := leAt b 0x14 4, xch := leAt b 0x18 2, build := leAt b 0x20 8,
    len := leAt b 8 4,
    code := (ofTyp l 1).map (fun x => (x.cell, x.bytes b)),
    data := (ofTyp l 2).map (fun x => ⟨x.cell, x.target, x.bytes b⟩),
    inputs := (ofTyp l 3).map (fun x => ⟨x.cell, x.target, x.words b 4⟩),
    outs := (ofTyp l 4).flatMap (fun x => (x.words b 8).map outEnt),
    safes := (ofTyp l 5).flatMap (fun x => (x.words b 8).map (fun v => BitVec.ofNat 64 v)),
    rets := (ofTyp l 6).flatMap (fun x => (x.words b 16).map retEnt),
    patches := (ofTyp l 7).flatMap (fun x => (x.words b 16).map patchEnt) }

/-- The input area of a section: first byte and first byte after it (R226). -/
def InputSect.area (x : InputSect) : Nat × Nat := (x.target, x.target + (8 * x.points.length + 63) / 64 * 64)

/-- The input area of a position; (0, 0) where it has none. -/
def Image.area (m : Image) (c : Nat) : Nat × Nat :=
  match m.inputs.find? (fun x => x.cell == c) with
  | some x => x.area
  | none => (0, 0)

/-- Bytes `o` to `o + n − 1` of a position lie in its data SRAM and outside its input area. -/
def Image.free (m : Image) (c o n : Nat) : Bool :=
  decide (c < m.cells) && decide (o + n ≤ 262144) && !(decide (o < (m.area c).2) && decide ((m.area c).1 < o + n))

/-- No two of a list of numbers are equal. -/
def distinct : List Nat → Bool
  | [] => true
  | a :: t => !t.contains a && distinct t

/-- Two DATA sections overlap. -/
def DataSect.overlaps (x y : DataSect) : Bool :=
  x.cell == y.cell && decide (x.target < y.target + y.bytes.length) && decide (y.target < x.target + x.bytes.length)

/-- No two DATA sections overlap (R225). -/
def disjoint : List DataSect → Bool
  | [] => true
  | x :: t => !t.any x.overlaps && disjoint t

/-- Limits of R225 and places of outputs, retained ranges and patch items, class 3 (E_FIT). -/
def fitOk (b : List Byte) (m : Image) : Bool :=
  let l := sects b (leAt b 0x1C 4) (leAt b 0x1A 2)
  (ofTyp l 1).all (fun x => decide (x.len ≤ 65536) && x.target == 0) &&
  (ofTyp l 2).all (fun x => decide (x.target + x.len ≤ 262144)) &&
  (ofTyp l 3).all (fun x => x.target % 64 == 0 && x.len % 4 == 0 && decide (x.target + (2 * x.len + 63) / 64 * 64 ≤ 262144)) &&
  (ofTyp l 4).all (fun x => x.len % 8 == 0) &&
  (ofTyp l 5).all (fun x => (ofTyp l 4).all (fun y => x.len == y.len)) &&
  (ofTyp l 6).all (fun x => x.len % 16 == 0) &&
  (ofTyp l 7).all (fun x => x.len % 16 == 0 && decide (x.len ≤ 65536)) &&
  disjoint m.data &&
  m.outs.all (fun e => e.ofs % 8 == 0 && m.free e.cell e.ofs 8) && distinct (m.outs.map (fun e => e.point)) &&
  (m.outs.zip m.safes).all (fun e => !e.1.qw || decide (e.2.toNat < 2 ^ 32)) &&
  m.rets.all (fun e => e.rid != 0 && decide (e.kind ≤ 2) && e.ofs % 8 == 0 && e.len % 8 == 0 && m.free e.cell e.ofs e.len &&
    (e.kind != 1 || e.len == 16) && (e.kind != 2 || e.len == 8)) &&
  distinct (m.rets.map (fun e => e.rid)) &&
  decide ((m.rets.map (fun e => e.len)).foldl (· + ·) 0 ≤ 1048576) &&
  m.patches.all (fun e => decide (e.kind ≤ 2) && (e.width == 1 || e.width == 2 || e.width == 4 || e.width == 8) &&
    e.ofs % e.width == 0 && (e.kind != 2 || e.width == 4) && m.free e.cell e.ofs (if e.kind = 2 then 16 else e.width)) &&
  distinct (m.patches.map (fun e => e.item))

/-- The check of R228: the first class that fails, or the image. -/
def checkImage (b : List Byte) : Except Nat Image :=
  if ¬ imageOk b then .error E_IMAGE
  else if leAt b 6 2 ≠ 1 then .error E_ISA
  else if ¬ fitOk b (parse b) then .error E_FIT
  else .ok (parse b)

/-- Input copies of an image (R226). -/
def Image.inPoints (m : Image) : Nat := (m.inputs.map (fun x => x.points.length)).foldl (· + ·) 0

/-- Add a number to a list unless it is there. -/
def addNew (l : List Nat) (a : Nat) : List Nat := if l.contains a then l else a :: l

/-- The distinct 64-byte lines of the point image that an image's inputs and outputs lie on. -/
def Image.lines (m : Image) (acc : List Nat) : List Nat :=
  let a := m.inputs.foldl (fun a x => x.points.foldl (fun a p => addNew a (p / 8)) a) acc
  m.outs.foldl (fun a e => addNew a (e.point / 8)) a

/-- BUDGET_MAX of a cycle of L ticks (R204), in CLK_CELL cycles; ⌊x × 1.6⌋. -/
def budgetMax (l : Nat) : Nat := (l * 1000000000 / 288000 - 1603) * 8 / 5

/-- Length of the short cycle of a class, 0 when it has none (R204). -/
def shortLen (n : Nat) : Nat := if 288000 % n = 0 then 0 else 288000 - (cyclesPerSec n - 1) * n

end Sys2Proof.Machine
end

