-- ==== Sys2Proof/Machine/Sums.lean ====
section
/-! DEFINITION. Sys2Proof/Machine/Sums.lean: figures that blocks compute from their state, shown by registers and used by checks:
loads and admission sums, occupancies, streams, modes' codes. -/
namespace Sys2Proof.Machine

/-- Mode codes (R261). -/
def modeCode : Mode → Nat
  | .boot => 0 | .configure => 1 | .coldStandby => 2 | .resync => 3
  | .hotStandby => 4 | .active => 5 | .test => 6 | .safe => 7

/-- PAIR_CONFLICT (R291). -/
def State.pairConflict (s : State) : Bool := bit (s.rd .role ROLE.ROLE_STS) 6

/-- The Hinge path is up (R262). -/
def State.hingePath (s : State) : Bool := s.role.hbUp && !s.isolated .hinge

/-- Fast or slow group of a guest (R270): its priority of per-cycle frames (R258). -/
def isFast (n : Nat) : Bool := decide (n < 96)

/-- SYNC_STATE code (R102). -/
def syncCode : Sync → Nat
  | .free => 0
  | .locked => 1
  | .holdover => 2

/-- The page of a port; 4 is MGMT. -/
def portPage (n : Nat) : Page := if n = 4 then .mgmt else .port n

/-- Mode of the pair a port belongs to: 0 independent, 1 PRP, 2 HSR (R105, R126). -/
def State.pairMode (s : State) (port : Nat) : Nat := if 4 ≤ port then 0 else s.rdf .redun (win (port / 2) REDUNW.PAIR_CTL) 1 0

def State.linkOf (s : State) (n : Nat) : Bool := Tbl.get false n s.link

/-- SPEED of a port (R104); MGMT runs at 1000BASE-X. -/
def State.speed (s : State) (n : Nat) : Nat := s.rdf (portPage n) PORT.PORT_CTL 1 0

/-- Wire time of one bit in units of 10 ps, and the bit rate. -/
def bitTime (speed : Nat) : Nat := match speed with | 0 => 100 | 1 => 10 | _ => 4

/-- Octets that SIGN = 1 adds to a frame. -/
def extLen (sign : Bool) : Nat := if sign then Config.gmacExt.toNat else 0

/-- Frame length in bytes with tag, redundancy octets and FCS, at least 64 (R112). -/
def frameLen (vlan red : Bool) (body : Nat) : Nat := max 64 (12 + (if vlan then 4 else 0) + (if red then 6 else 0) + body + 4)

/-- Wire time in units of 10 ps of a frame of a length (R112). -/
def wireTime (speed len : Nat) : Nat := (len + 20) * 8 * bitTime speed

/-- The HSR ring is open at the unit (R123, R126). -/
def ringOpen (mode : Nat) (a b : Bool) : Bool := mode == 2 && !(a && b)

/-- The ports of a publication's pairs. -/
def PubEntry.ports (e : PubEntry) : List Nat := (if e.pair0 then [0, 1] else []) ++ (if e.pair1 then [2, 3] else [])

/-- The publications counted in admission, with entry `i` replaced: those in effect and those accepted and waiting. -/
def State.admitted (s : State) (i : Nat) (e : PubEntry) : List PubEntry :=
  let inEffect := s.pubs.filter (fun u => u.1 != i && !u.2.stopped && !s.pubAccept.any (fun a => a.1 == u.1))
  let wait := s.pubAccept.filter (fun a => a.1 != i)
  e :: (inEffect.map (fun u => u.2.entry) ++ wait.filterMap (fun a => a.2))

/-- Frame length of a publication on a port (R112). -/
def State.pubLen (s : State) (port : Nat) (e : PubEntry) : Nat := frameLen e.tagged (s.pairMode port ≠ 0) (e.tmplLen + extLen e.sign)

/-- Wire times of the URGENT publications on a port except the largest, in 10 ps (R112, URGENT_LOAD). -/
def State.urgentLoad (s : State) (port : Nat) (l : List PubEntry) : Nat :=
  let w := (l.filter (fun e => e.urgent && e.ports.contains port)).map (fun e => wireTime (s.speed port) (s.pubLen port e))
  w.foldl (· + ·) 0 - w.foldl max 0

/-- A context's frame rate F and its share of the wire load in kbit/s (R161). -/
def StreamDesc.frames (d : StreamDesc) : Nat := if d.cls = 0 then d.rate / max 1 d.asduN else d.rate

def StreamDesc.wire (d : StreamDesc) : Nat := ceilDiv ((d.frameLen + 20) * 8 * d.frames) 1000

/-- Its shares of the other sums of R161: thousand frames, thousand values of its lane, thousand HMAC blocks. -/
def StreamDesc.kframes (d : StreamDesc) : Nat := ceilDiv d.frames 1000

def StreamDesc.kvals (d : StreamDesc) : Nat := if d.cls = 0 then ceilDiv (d.rate * d.chanN) 1000 else 0

def StreamDesc.kblocks (d : StreamDesc) : Nat :=
  if d.policy ≠ 0 ∧ d.alg = 2 then ceilDiv (d.frames * (ceilDiv (d.frameLen - 9) 64 + 1)) 1000 else 0

/-- A sum of R161 over contexts. -/
def ctxSum (l : Tbl CtxEnt) (f : Nat → StreamDesc → Nat) : Nat := l.foldl (fun a e => a + f e.1 e.2.d) 0

def portSum (l : Tbl CtxEnt) (n : Nat) : Nat := ctxSum l (fun _ d => if d.ports.testBit n then d.wire else 0)

def laneSum (l : Tbl CtxEnt) (k : Nat) : Nat := ctxSum l (fun i d => if i % 4 = k then d.kvals else 0)

def frameSum (l : Tbl CtxEnt) : Nat := ctxSum l (fun _ d => d.kframes)

def hmacSum (l : Tbl CtxEnt) : Nat := ctxSum l (fun _ d => d.kblocks)

def lineRate (speed : Nat) : Nat := match speed with | 0 => 1000000000 | 1 => 10000000000 | _ => 25000000000

/-- PORTn's sum exceeds its bound (R162). -/
def State.portOver (s : State) (n : Nat) : Bool := decide (lineRate (s.speed n) / 1000 < portSum s.porter.ctxs n)

/-- The first slot of the stash. -/
abbrev stash : Nat := 16384

/-- Held copies of a pipeline. -/
def State.heldAt (s : State) (p : Nat) : List HeldCopy := Tbl.get [] p s.porter.held

/-- Values in a lane's buffer (R189). -/
def laneDepth (l : List LaneAsdu) : Nat := (l.map (fun x => x.asdu.chans.length)).foldl (· + ·) 0

/-- The distinct lines that the guests of a block pin, guest `g` left out. -/
def State.blockLines (s : State) (exb g : Nat) : List Nat :=
  (s.guests.filter (fun e => e.2.exb == exb && e.1 != g)).foldl (fun a e => e.2.img.lines a) []

/-- Sum of a figure over the guests of a block, guest `g` left out. -/
def State.blockSum (s : State) (exb g : Nat) (f : Guest → Nat) : Nat :=
  (s.guests.filter (fun e => e.2.exb == exb && e.1 != g)).foldl (fun a e => a + f e.2) 0

/-- A guest's ALLOW entry: IN_POINTS, LINES, EXB, N when valid (R275, R289). -/
def State.allow (s : State) (g : Nat) : Option (Nat × Nat × Nat × Nat) :=
  let lo := s.rd .hinge (HINGE.ALLOW_LO g)
  let hi := s.rd .hinge (HINGE.ALLOW_HI g)
  if allowHeld g ∧ bit hi 31 then some (bits lo 28 16, bits lo 15 0, bits hi 19 16, bits hi 15 0) else none

/-- Cycle bytes B of an allowance (R275). -/
def allowBytes (inp lines : Nat) : Nat := 8 * inp + 72 * lines + 64

/-- The valid entries: guest, IN_POINTS, LINES, N. -/
def State.allowList (s : State) : List (Nat × Nat × Nat × Nat) :=
  (List.range 256).filterMap (fun g => if g = 0 then none else (s.allow g).map (fun a => (g, a.1, a.2.1, a.2.2.2)))

/-- The four sums of R275 over a list of entries: fast burst, fast image, slow burst, rate as a fraction. -/
structure MirSums where
  fast : Nat := 0
  img : Nat := 0
  slow : Nat := 0
  rate : Nat × Nat := (0, 1)
deriving DecidableEq, Repr

/-- A sum of fractions as numerator and denominator. -/
def fracAdd (a : Nat × Nat) (n d : Nat) : Nat × Nat := (a.1 * d + n * a.2, a.2 * d)

def mirSums (l : List (Nat × Nat × Nat × Nat)) : MirSums :=
  l.foldl (fun m e =>
    let b := allowBytes e.2.1 e.2.2.1
    let n := e.2.2.2
    { fast := if isFast n then m.fast + b else m.fast, img := if isFast n then m.img + 8 * e.2.1 else m.img,
      slow := if isFast n then m.slow else m.slow + b, rate := fracAdd m.rate (b * 288000) n }) {}

/-- The rate in MB/s, rounded up (R275). -/
def MirSums.mbps (m : MirSums) : Nat := ceilDiv m.rate.1 (1000000 * m.rate.2)

def KSlot.parent (k : KSlot) : Nat := k.attr / 256 % 512

/-- Number of children of a slot (R341). -/
def State.children (s : State) (n : Nat) : Nat := (s.keyring.slots.filter (fun e => e.2.parent == n)).length

/-- Attribute word of slot 0 (R340). -/
def rootAttr : Nat := 0x91

/-- LG_TAIL: the oldest whole record, or LG_HEAD + 1 while the ring holds none (R375). -/
def State.tailSeq (s : State) : Nat :=
  match s.ledger.idx with
  | [] => s.ledger.headSeq + 1
  | e :: _ => e.seq

/-- The code that LG_CODE_SEL names. -/
def State.codeSel (s : State) : Nat := s.rdf .ledger LEDGER.LG_CODE_SEL 9 0

/-- A checkpoint is WAITing, STAGING or WRITING. -/
def State.ckptRuns (s : State) : Bool := s.ckpt.state == 1 || s.ckpt.state == 2 || s.ckpt.state == 3

def State.unit (s : State) (u : Nat) : AcqUnit := (Tbl.look u s.analog.acq).getD {}

/-- A register of core `c`'s window. -/
def State.core (s : State) (c o : Nat) : Word := s.rd .adc (win c o)

def State.corest (s : State) (c : Nat) : CoreSt := (Tbl.look c s.analog.cores).getD {}

def State.stream (s : State) (k : Nat) : StreamSt := (Tbl.look k s.analog.streams).getD {}

/-- The converters are on. -/
def State.adcOn (s : State) : Bool := s.working .adc && bit (s.rd .adc ADC.ADC_CTL) 0

/-- A pair is interleaved (R390). -/
def State.il (s : State) (p : Nat) : Bool := bit (s.rd .adc (ADC.PAIR_CFG p)) 0

def State.coreTrig (s : State) (c : Nat) : Nat := bits (s.core c ADCW.CORE_CFG) 2 0

/-- A stream is present (R390, R405): an independent core's also while its last scan goes on (R395). -/
def State.present (s : State) (k : Nat) : Bool :=
  if k < 2 then s.adcOn && s.il k && !s.quarantined .adc (2 * k) && !s.quarantined .adc (2 * k + 1)
  else
    let c := k - 2
    s.adcOn && !s.il (c / 2) && !s.quarantined .adc c && (decide (s.coreTrig c ≠ 0) || (s.corest c).scan)

/-- The core converts: its stream is present. -/
def State.converts (s : State) (c : Nat) : Bool := if s.il (c / 2) then s.present (c / 2) else s.present (2 + c)

/-- The stream that a core feeds. -/
def State.streamOf (s : State) (c : Nat) : Nat := if s.il (c / 2) then c / 2 else 2 + c

/-- A calibration is running. -/
def State.calBusy (s : State) : Bool := decide (s.analog.cal.op ≠ 0)

/-- Samples carry SUPPLY now (R404). -/
def State.supply (s : State) : Bool := s.pwrWarn || bit (s.rd .adc ADC.ADC_STS) 0

/-- A register of channel `n`'s window. -/
def State.fc (s : State) (n o : Nat) : Word := s.rd .filt (win n o)

def State.fch (s : State) (n : Nat) : FiltCh := (Tbl.look n s.analog.filt).getD {}

/-- Page of queue `q`'s registers (R334). -/
def qPage (q : Nat) : Page := if q = 0 then .courier else .guest q 2

/-- Offset of a queue register in that page. -/
def qOfs (q o : Nat) : Nat := if q = 0 then 0x100 + o else o

/-- A queue register. -/
def State.qrd (s : State) (q o : Nat) : Nat := (s.rd (qPage q) (qOfs q o)).toNat

/-- The queue outside its registers, and the function of the same number. -/
def State.queue (s : State) (q : Nat) : QueueSt := Tbl.get {} q s.courier.queues

def State.fnOf (s : State) (q : Nat) : FnSt := Tbl.get {} q s.courier.fns

/-- Entries of a queue's rings (R316). -/
def State.qSize (s : State) (q : Nat) : Nat := 2 ^ (s.qrd q GQ.SQ_CFG % 16)

/-- Occupancy (R317). -/
def State.occ (s : State) (q : Nat) : Nat :=
  (s.qrd q GQ.SQ_PI + s.qSize q - s.qrd q GQ.SQ_CI % s.qSize q) % s.qSize q

/-- WEIGHT and LIMIT of a queue's share (R323). -/
def State.weight (s : State) (q : Nat) : Nat := s.rdf .courier (COURIER.Q_SHARE q) 4 0

def State.limit (s : State) (q : Nat) : Nat := s.rdf .courier (COURIER.Q_SHARE q) 27 16

/-- Transmit timestamp entries of a port. -/
def State.txts (s : State) (port : Nat) : List TxtsEntry := Tbl.get [] port s.time.txts

/-- The timestamper window of a port. -/
abbrev tsWin (port o : Nat) : Nat := win (port + 1) o

end Sys2Proof.Machine
end

