-- ==== Sys2Proof/Machine/View.lean ====
section
/-! DEFINITION. Sys2Proof/Machine/View.lean: what a read of each register returns (R6, R48, R57, R64): the stored word, with
the fields that mirror other state computed from it. -/
namespace Sys2Proof.Machine

/-- Put a value into a field of a word. -/
abbrev put (hi lo v : Nat) (w : Word) : Word := setBits w hi lo v
/-- A whole word. -/
abbrev whole (v : Nat) : Word := BitVec.ofNat 32 v
/-- The low or high word of a 64-bit value. -/
def half (hi : Bool) (v : Nat) : Word := if hi then BitVec.ofNat 32 (v / 2 ^ 32) else BitVec.ofNat 32 v

/-! ### IDLE, BLKSTS, BUSY (R48, R57, R497) -/

/-- Guests placed on a block. -/
def State.onBlock (s : State) (n : Nat) : List (Nat × Guest) := s.guests.filter (fun e => e.2.exb == n)
/-- Cells that hold a guest, as a mask. -/
def State.usedCells (s : State) (n : Nat) : Nat := (s.onBlock n).foldl (fun a e => a ||| e.2.mask) 0

/-- Descriptors wait in some queue: only a queue with a stored index can hold one. -/
def State.anyQueued (s : State) : Bool :=
  s.occ 0 != 0 || s.regs.any (fun e =>
    decide (0x100_0000 ≤ e.1) && (e.1 % 0x100_0000 == 0x2000 + GQ.SQ_PI || e.1 % 0x100_0000 == 0x2000 + GQ.SQ_CI) &&
      s.occ (e.1 / 0x100_0000) != 0)

/-- PAGE_STS.IDLE (R48, R497): the block holds no work owned by a guest or by the manager. -/
def State.idle (s : State) (p : Page) : Bool :=
  match p with
  | .chip => s.role.modeJob.isNone
  | .timeu => s.time.job.isNone && s.time.sched.isEmpty
  | .port n => (Tbl.look n s.nsq).isNone
  | .mgmt => (Tbl.look 4 s.nsq).isNone
  | .porter => s.porter.ctxs.isEmpty && s.porter.mt.isEmpty && s.porter.descJob.isNone && s.porter.ruleJob.isNone &&
      !s.porter.zeroing
  | .align => s.align.ctxs.isEmpty && s.align.lanes.isEmpty
  | .egress => s.pubs.isEmpty && s.due.isEmpty && s.pubJob.isNone && s.pubAccept.isEmpty
  | .role => s.role.demote.isNone && decide (s.role.mode ≠ .resync)
  | .hinge => s.hinge.queue.isEmpty && s.hinge.wait.isEmpty &&
      !(s.hinge.bulk.state == 1 || s.hinge.bulk.state == 2 || s.hinge.bulk.state == 3)
  | .keyring => s.keyring.job.isNone && s.keyring.commit.isNone
  | .crypto => s.porter.jobs.isEmpty
  | .check => s.scans.all (fun e => !e.2.busy)
  | .ledger => s.ledger.clr.isNone
  | .exb n => (s.onBlock n).isEmpty && (Tbl.look n s.gcmds).isNone && (Tbl.look n s.patchJobs).isNone
  | .pcache n => (s.onBlock n).isEmpty
  | .point => s.pointJob.isNone
  | .courier => s.courier.engines.isEmpty && s.courier.queues.all (fun e => e.2.runs.isEmpty) && !s.anyQueued
  | .adc => s.analog.streams.all (fun e => !e.2.on) && !s.calBusy
  | .filt => s.analog.filt.all (fun e => e.2.state == 0)
  | .acq => s.analog.acq.all (fun e => e.2.state == 0 && e.2.fifo.isEmpty && e.2.closing.isEmpty)
  | .flash => s.flashJob.isNone && !s.ckptRuns
  | .guest g 2 => s.occ g == 0
  | _ => true

/-- ROLE of ROLE_STS and G_STS (R291). -/
def State.roleCode (s : State) : Nat := s.role.role

/-- A flash command runs: the manager's, a checkpoint's, or a key store commit's (R452). -/
def State.flashBusy (s : State) : Bool :=
  s.flashJob.isSome || s.ckpt.state == 3 || s.keyring.commit.any (fun k => k.target.isSome)

/-- The work whose flash command comes next (R445): key store commits, manager commands, checkpoint sectors. While PWR_WARN holds,
a program or an erase waits, but not those of a commit that has reached step 3 (R360). -/
def State.flashPick (s : State) : Option FlashWork :=
  if s.keyring.commit.any (fun k => k.target.isSome || !s.pwrWarn) then some .keys
  else if s.flashJob.any (fun j => match j with | .read .. => true | .slotWrite _ _ st => st == 2 || !s.pwrWarn) then
    some .manager
  else if s.ckpt.state = 3 ∧ (s.ckpt.stage = 3 ∨ ¬ s.pwrWarn) then some .ckpt
  else none

/-- The work whose flash command runs: one already issued completes (R445). -/
def State.flashOwner (s : State) : Option FlashWork :=
  match s.flashRun with
  | some .keys => if s.keyring.commit.any (fun k => k.target.isSome) then some .keys else s.flashPick
  | some .manager => if s.flashJob.isSome then some .manager else s.flashPick
  | some .ckpt => if s.ckpt.state = 3 then some .ckpt else s.flashPick
  | none => s.flashPick

/-- Other work or a supply warning arrives: the flash command that runs stays issued. -/
def State.flashHold (s : State) : State := { s with flashRun := s.flashOwner }

/-- Jobs queued in the HMAC pool (R155): frames, and the tag job of a clear (R378). -/
def State.hmacQueue (s : State) : List VJob := s.porter.jobs.filter (fun j => j.hmac && j.engine.isNone && !j.late)
def State.tagQueued (s : State) : Bool := s.ledger.clr.any (fun c => c.code == 0 && c.engine.isNone)
def State.hmacDepth (s : State) : Nat := s.hmacQueue.length + b2n s.tagQueued

/-- BLKSTS of a page (R48), as bits [15:0]. -/
def State.blksts (s : State) (p : Page) : Nat :=
  match p with
  | .chip => modeCode s.role.mode
  | .timeu => syncCode s.time.sync + 4 * b2n (decide (s.time.slewPend ≠ 0))
  | .porter => b2n (bit (s.rd .porter PORTER.DESC_RESULT) 31) + 2 * b2n s.porter.ruleJob.isSome
  | .exb n => s.usedCells n
  | .point => b2n s.pointJob.isSome
  | .hinge => s.hinge.bulk.state
  | .role => s.roleCode
  | .debug => b2n (bit (s.rd .debug DEBUG.DBG_STS) 0)
  | .keyring => b2n s.keyring.job.isSome + 2 * b2n (bit (s.rd .keyring KEYRING.KR_STS) 4)
  | .ledger => b2n s.ledger.clr.isSome
  | .adc => b2n s.calBusy + 2 * b2n (bit (s.rd .adc ADC.ADC_STS) 0)
  | .flash => b2n s.flashBusy
  | .pwrmon => b2n s.pwrWarn
  | _ => 0

/-- PAGE_STS (R48). -/
def State.pageSts (s : State) (p : Page) : Word :=
  BitVec.ofNat 32 (b2n (bit (s.rd p HDR.PAGE_CTL) 0 || Page.isGuest p) + 2 * b2n (s.idle p) + 4 * b2n (s.isolated p) +
    8 * b2n (Tbl.get false (Page.base p) s.srst) + 0x10000 * (s.blksts p % 0x10000))

/-- CELL_STS.BUSY (R57): the cell holds work. -/
def State.cellBusy (s : State) (p : Page) (c : Nat) : Bool :=
  match p with
  | .exb n => decide ((s.cell (16 * n + c)).guest ≠ 0)
  | .check => (Tbl.get {} c s.scans).busy
  | .courier => (Tbl.look c s.courier.engines).isSome && bit (s.rd .courier HDR.PAGE_CTL) 0
  | .filt => (s.fch c).state != 0
  | .acq => (s.unit c).state != 0
  | .adc => s.converts c
  | .porter => !(s.heldAt c).isEmpty
  | .align => (Tbl.look c s.align.lanes).isSome
  | .crypto => s.porter.jobs.any (fun j => j.engine == some c)
  | .keyring => c == 0 && (s.keyring.job.isSome || s.keyring.commit.isSome)
  | .egress => s.due.any (fun d => d.ports.contains c)
  | .timeu => (c == 0 && s.time.job.isSome) || (c == 5 && !s.time.sched.isEmpty)
  | .port n => (Tbl.look n s.nsq).isSome
  | .mgmt => (Tbl.look 4 s.nsq).isSome
  | .point => c == 1 && s.pointJob.isSome
  | .flash => s.flashBusy
  | .ledger => s.ledger.clr.isSome
  | _ => false

/-- SUM of a page's IRQ_STS (R51, R64). -/
def State.irqSum (s : State) (p : Page) : Nat :=
  match p with
  | .chip => s.regionSum 0
  | .region r => s.regionSum r
  | .guest _ _ => 0
  | p => s.cellSum p

/-! ### Block registers -/

def viewTimeu (s : State) (o : Nat) (w : Word) : Word :=
  let t := s.time
  let c := t.capFifo.head?
  if o = TIMEU.TIME_STS then
    put 9 9 (b2n (bit (s.rd .clkrst CLKRST.CLK_STS) 2)) (put 4 3 t.stepGen (put 2 2 (b2n (decide (t.slewPend ≠ 0)))
      (put 1 0 (syncCode t.sync) w)))
  else if o = TIMEU.SLEW_PEND_LO ∨ o = TIMEU.SLEW_PEND_HI then
    -- units of 1/256 ns, toward zero
    half (o == TIMEU.SLEW_PEND_HI) (unsigned 64 (t.slewPend.tdiv (2 ^ 24)))
  else if o = TIMEU.STEP_STS then put 0 0 (b2n t.job.isSome) w
  else if o = TIMEU.CAP_STS then put 8 0 t.capFifo.length w
  else if o = TIMEU.CAP_DATA0 then whole ((c.map (fun e => qWord e.time)).getD 0)
  else if o = TIMEU.CAP_DATA1 then whole ((c.map (fun e => qS e.time)).getD 0)
  else if o = TIMEU.CAP_DATA2 then
    whole ((c.map (fun e => b2n e.loss * 2 ^ 26 + e.gen % 4 * 2 ^ 24 + b2n e.rise * 2 ^ 22 + e.src * 2 ^ 16 +
      qS e.time / 2 ^ 32)).getD 0)
  else if o = TIMEU.CAP_DATA3 then whole ((c.map CapEntry.seq).getD 0)
  else if o = TIMEU.SCH_STS then put 6 0 t.sched.length w
  else w

/-- Windows 1 to 4 of TIMEU: the port timestampers. -/
def viewTs (s : State) (port o : Nat) (w : Word) : Word :=
  let l := s.txts port
  let e := l.head?
  if o = TIMEUW.TXTS_STS then put 6 0 l.length w
  else if o = TIMEUW.TXTS_DATA0 then whole ((e.map (fun x => qWord x.time)).getD 0)
  else if o = TIMEUW.TXTS_DATA1 then whole ((e.map (fun x => qS x.time)).getD 0)
  else if o = TIMEUW.TXTS_DATA2 then
    whole ((e.map (fun x => b2n x.inserted * 2 ^ 20 + x.msgType % 16 * 2 ^ 16 + qS x.time / 2 ^ 32)).getD 0)
  else if o = TIMEUW.TXTS_DATA3 then whole ((e.map (fun x => x.status * 2 ^ 24 + x.domain * 2 ^ 16 + x.seqId)).getD 0)
  else w

/-- (DEDUCED, log 66; DESIGN CHOICE, log 38). -/
def viewPort (s : State) (n o : Nat) (w : Word) : Word :=
  if o = PORT.PORT_STS then
    let up := s.linkOf n
    let fec := bit (s.rd (portPage n) PORT.PORT_CTL) 2
    put 2 0 (b2n up + 2 * b2n (up || Config.pcsLock n s.time.elapsed) +
      4 * b2n (fec && (up || Config.fecLock n s.time.elapsed))) w
  else w

/-- Windows of REDUN: the pairs. -/
def viewPair (s : State) (c o : Nat) (w : Word) : Word :=
  if o = REDUNW.PAIR_STS then
    let a := s.linkOf (2 * c)
    let b := s.linkOf (2 * c + 1)
    whole (4 * b2n (ringOpen (s.pairMode (2 * c)) a b) + 2 * b2n b + b2n a)
  else if o = REDUNW.DD_USED then whole (Tbl.get [] c s.dd).length
  else w

/-- Entries that admission counts: in effect, and accepted and waiting (R112). -/
def State.allAdmitted (s : State) : List PubEntry :=
  (s.pubs.filter (fun u => !u.2.stopped && !s.pubAccept.any (fun a => a.1 == u.1))).map (fun u => u.2.entry) ++
    s.pubAccept.filterMap (fun a => a.2)

def viewEgress (s : State) (o : Nat) (w : Word) : Word :=
  if o = EGRESS.PUB_COUNT then whole (s.pubs.filter (fun u => !u.2.stopped)).length else w
def viewSched (s : State) (c o : Nat) (w : Word) : Word :=
  if o = EGRESSW.SCHED_STS then whole (s.due.filter (fun d => d.ports.contains c)).length
  else if o = EGRESSW.URGENT_LOAD then whole (min 65535 (s.urgentLoad c s.allAdmitted))
  else w

def viewPorter (s : State) (o : Nat) (w : Word) : Word :=
  let x := s.porter
  if o = PORTER.MT_STS then
    whole ((x.mt.filter (fun e => decide (stash ≤ e.1))).length * 2 ^ 16 + (x.mt.filter (fun e => decide (e.1 < stash))).length)
  else if o = PORTER.CTX_STS then whole ((x.ctxs.filter (fun e => e.2.d.pin)).length * 2 ^ 16 + x.ctxs.length)
  else if PORTER.ADMIT_PORT 0 ≤ o ∧ o < PORTER.ADMIT_PORT 4 then whole (portSum x.ctxs ((o - PORTER.ADMIT_PORT 0) / 4))
  else if PORTER.ADMIT_LANE 0 ≤ o ∧ o < PORTER.ADMIT_LANE 4 then whole (laneSum x.ctxs ((o - PORTER.ADMIT_LANE 0) / 4))
  else if o = PORTER.ADMIT_FRAMES then whole (frameSum x.ctxs)
  else if o = PORTER.ADMIT_HMAC then whole (hmacSum x.ctxs)
  else if o = PORTER.ADMIT_STS then
    whole ((List.range 4).foldl (fun a n => a + b2n (s.portOver n) * 2 ^ n) 0)
  else if o = PORTER.RULE_RESULT then put 30 16 (x.mt.filter (fun e => e.2.ctx.isNone)).length w
  else if o = PORTER.DISC_STS then whole x.disc.length
  else w

def viewAlignLane (s : State) (c o : Nat) (w : Word) : Word :=
  if o = ALIGNW.LANE_DEPTH then whole (laneDepth (Tbl.get [] c s.align.lanes)) else w

/-- The guest whose lowest cell is cell `i` of a block (R218). -/
def State.slotGuest (s : State) (n i : Nat) : Option (Nat × Guest) :=
  (s.onBlock n).find? (fun e => e.2.mask % 2 ^ (i + 1) == 2 ^ i)

/-- STATE codes of R218. -/
def gstateCode : GState → Nat
  | .loaded => 1 | .running => 2 | .stopped => 3 | .halted => 4

def viewExb (s : State) (n o : Nat) (w : Word) : Word :=
  if o = EXB.EXB_LOAD then whole (Tbl.get 0 n s.exbLoad)
  else if o = EXB.CELL_MAP then whole (bits (s.rd (.exb n) HDR.FAULT_STS) 15 0 * 2 ^ 16 + s.usedCells n)
  else if 0x100 ≤ o ∧ o < 0x200 then
    match s.slotGuest n ((o - 0x100) / 16) with
    | none => 0
    | some (g, x) =>
      match o % 16 with
      | 0 => whole (x.mask * 2 ^ 16 + g)
      | 4 => whole (x.haltCause * 2 ^ 20 + gstateCode x.st * 2 ^ 16 + x.img.n)
      | 8 => whole x.img.budget
      | _ => whole x.haltC
  else if o = EXB.GCMD_RESULT then put 16 16 (b2n ((s.guest (bits w 15 8)).any (fun x => x.runPend.isSome))) w
  else w
def viewCell (s : State) (n c o : Nat) (w : Word) : Word :=
  if o = EXBW.CELL_GUEST then whole (s.cell (16 * n + c)).guest else w

def viewPcache (s : State) (n o : Nat) (w : Word) : Word :=
  if o = PCACHE.PIN_LINES then whole (s.blockLines n 0).length
  else if o = PCACHE.XCH_LINES then whole (s.blockSum n 0 (fun x => x.img.xch))
  else w
/-- BANK_FRAMES (R220): two frames per pinned line, one per exchange line; their spread over the banks is open.
(DESIGN CHOICE, log 67). -/
def viewBank (s : State) (n c o : Nat) (w : Word) : Word :=
  if o = PCACHEW.BANK_FRAMES then
    let all := 2 * (s.blockLines n 0).length + s.blockSum n 0 (fun x => x.img.xch)
    whole (min all (Config.bankFrames n c all).toNat)
  else w

def viewHinge (s : State) (o : Nat) (w : Word) : Word :=
  let h := s.hinge
  if o = HINGE.HINGE_STS then put 7 4 h.lock (put 2 2 (b2n s.role.hbUp) (put 1 1 (b2n h.link) w))
  else if o = HINGE.MIR_RATE then whole (mirSums s.allowList).mbps
  else if o = HINGE.MIR_FAST then whole (mirSums s.allowList).fast
  else if o = HINGE.MIR_SLOW then whole (mirSums s.allowList).slow
  else if o = HINGE.MIR_FAST_IMG then whole (mirSums s.allowList).img
  else if o = HINGE.BULK_STS then whole (h.bulk.state * 2 ^ 28 + h.bulk.bytes / 2 ^ 20 % 2 ^ 24)
  else w
def viewLane (s : State) (c o : Nat) (w : Word) : Word :=
  if o = HINGEW.LANE_STS then whole (3 * b2n (s.hinge.lock.testBit c)) else w

def viewRole (s : State) (o : Nat) (w : Word) : Word :=
  let r := s.role
  if o = ROLE.ROLE_STS then
    put 31 27 (2 * modeCode r.partnerMode + b2n r.partnerSeen) (put 23 16 r.rsCode (put 11 7 (2 * modeCode r.mode + b2n r.degraded)
      (put 5 0 (b2n r.netLost * 32 + b2n r.hingeLost * 16 + b2n r.unmirrored * 8 + b2n r.isolated * 4 + s.roleCode) w)))
  else if o = ROLE.PHASE then whole (r.k % 32 * 2 ^ 24 + r.f % 4096)
  else if o = ROLE.UNIT_STS then whole (b2n s.unitB)
  else w

def viewChip (s : State) (o : Nat) (w : Word) : Word :=
  let r := s.role
  if o = CHIP.REGION_IRQ then whole ((List.range 10).foldl (fun a i => a + b2n (s.regionIrq i) * 2 ^ i) 0)
  else if o = CHIP.CHIP_STS then
    whole (r.safeCause * 2 ^ 24 + b2n r.noState * 1024 + b2n r.restored * 512 + b2n r.pwRunning * 256 + modeCode r.mode)
  else w

def viewDebug (s : State) (o : Nat) (w : Word) : Word :=
  if o = DEBUG.DBG_STS then put 2 1 (b2n (bit (s.rd .fuse FUSE.FUSE_STS) 3) + 2 * b2n (decide (s.tap = .debug))) w else w

/-- Fence count of a function (R329): its DRAM reads, DRAM writes and host writes that engines have issued. A segment from the host that
was not dropped is a host read, which does not count. -/
def State.fence (s : State) (g : Nat) : Nat :=
  (s.courier.engines.filter (fun e => e.2.queue == g && (e.2.op != 1 || e.2.issued))).length

/-- The registers of a queue (R334), at their offsets in the queues page. -/
def viewQueue (s : State) (q o : Nat) (w : Word) : Word :=
  let x := s.queue q
  if o = GQ.Q_STS then
    whole (b2n (x.stopped || s.isolated .courier) * 2 ^ 31 + b2n x.resetting * 2 ^ 30 +
      s.fence q * 2 ^ 16 + s.occ q)
  else if o = GQ.Q_SHARE_RD then whole (s.limit q * 2 ^ 16 + s.weight q)
  else w
def viewGuest (s : State) (g p o : Nat) (w : Word) : Word :=
  match p with
  | 0 =>
    let x := s.guest g
    if o = GCTL.G_STS then
      whole (modeCode s.role.mode * 2 ^ 28 + s.roleCode * 2 ^ 26 +
        ((x.map (fun y => y.haltCause * 2 ^ 20 + gstateCode y.st * 2 ^ 16)).getD 0) + g)
    else if o = GCTL.G_CYC_C then whole ((x.map Guest.lastC).getD 0)
    else if o = GCTL.G_CYC_S_LO ∨ o = GCTL.G_CYC_S_HI then half (o == GCTL.G_CYC_S_HI) ((x.map Guest.lastS).getD 0)
    else if o = GCTL.G_BUILD_LO ∨ o = GCTL.G_BUILD_HI then half (o == GCTL.G_BUILD_HI) ((x.map (fun y => y.img.build)).getD 0)
    else w
  | 2 => viewQueue s g o w
  | _ => w
/-- FN_STS (R337): bits [2:0], which the table gives to FENCE too, show the flags. (DEDUCED, log 110). -/
def viewHostif (s : State) (o : Nat) (w : Word) : Word :=
  let g := s.rdf .hostif HOSTIF.FN_SEL 7 0
  let f := s.fnOf g
  if o = HOSTIF.FN_STS then
    whole (min 65535 f.resets * 2 ^ 16 + s.fence g / 8 * 8 + b2n (s.queue g).resetting * 4 + b2n f.bme * 2 + b2n s.courier.vfEnable)
  else if o = HOSTIF.FN_WIN_CTL then whole (b2n f.write)
  else if 0x060 ≤ o ∧ o < 0x080 then
    let k := (o - 0x060) / 8
    if o % 8 = 0 then whole (Tbl.get 0 k f.grantFirst)
    else whole (b2n (Tbl.get false k f.grantEn) * 2 ^ 31 + Tbl.get 0 k f.grantCount)
  else if o = HOSTIF.HI_IDS then put 15 0 (bits (s.rd .fuse FUSE.FUSE_IDS) 15 0) w
  else w
def viewEngine (s : State) (c o : Nat) (w : Word) : Word :=
  if o = COURIERW.ENG_QUEUE then
    match Tbl.look c s.courier.engines with
    | some g => whole (256 * b2n (bit (s.rd .courier HDR.PAGE_CTL) 0) + g.queue)
    | none => w
  else w

/-- Ordinary slots in use; the slot that KR_QSEL names (R341, R362). -/
def viewKeyring (s : State) (o : Nat) (w : Word) : Word :=
  let n := s.rdf .keyring KEYRING.KR_QSEL 8 0
  let k := Tbl.look n s.keyring.slots
  if o = KEYRING.KR_STS then put 24 16 s.keyring.slots.length w
  else if o = KEYRING.KR_QATTR then whole (if n = 0 then rootAttr else (k.map KSlot.attr).getD 0)
  else if o = KEYRING.KR_QLABEL then whole ((k.map KSlot.label).getD 0)
  else if o = KEYRING.KR_QCHILD then whole (s.children n)
  else w

def viewLedger (s : State) (o : Nat) (w : Word) : Word :=
  let l := s.ledger
  if o = LEDGER.LG_HEAD_LO ∨ o = LEDGER.LG_HEAD_HI then half (o == LEDGER.LG_HEAD_HI) l.headSeq
  else if o = LEDGER.LG_HEAD_OFS then whole l.headOfs
  else if o = LEDGER.LG_TAIL_LO ∨ o = LEDGER.LG_TAIL_HI then half (o == LEDGER.LG_TAIL_HI) s.tailSeq
  else if o = LEDGER.LG_TAIL_OFS then whole l.tailOfs
  else if o = LEDGER.LG_CODE_CFG then put 30 30 (b2n (keptCode s.codeSel)) (s.codeCfg s.codeSel)
  else if o = LEDGER.LG_CODE_STS then whole (Tbl.get 0 s.codeSel l.pendingCnt)
  else if o = LEDGER.LG_CLR_STS then put 31 31 (b2n l.clr.isSome) w
  else w

def viewFlash (s : State) (o : Nat) (w : Word) : Word :=
  if o = FLASH.FL_STS then put 2 1 (b2n s.flashBusy + 2 * b2n (s.flashBusy && s.pwrWarn && s.flashOwner.isNone)) w
  else if o = FLASH.FL_RESULT then put 31 31 (b2n s.flashJob.isSome) w
  else if o = FLASH.CKPT_STS then put 31 28 s.ckpt.state (put 25 25 (b2n (s.ckpt.state == 3 && s.pwrWarn && s.flashOwner != some .ckpt)) w)
  else w

/-- The boot sequencer runs (R302). -/
def State.booting (s : State) : Bool :=
  s.role.mode == .boot && s.clk.released && s.rdf .boot BOOT.BOOT_STS 31 28 != 7

/-- BOOT_STS.STAGE while the sequencer runs, by the time since reset release, each step at its bound. (DESIGN CHOICE, log 148). -/
def State.bootStage (s : State) : Nat :=
  let us := (s.time.elapsed - s.clk.releasedAt) / (1000 * nsU)
  if us < 50 then 0 else if us < 1000 then 1 else if us < 3000 then 2 else if us < 35000 then 3 else if us < 140000 then 4
  else if us < 145000 then 5 else 6

/-- SerDes PLL `n` is locked (R455): as CLK_STS shows it, from STAGE 2 of boot on (R304). -/
def State.sdLocked (s : State) (n : Nat) : Bool :=
  bit (s.rd .clkrst CLKRST.CLK_STS) (4 + n) || (s.booting && decide (2 ≤ s.bootStage))

/-- SEQ of a boot slot's header (R303). -/
def State.bootSeq (s : State) (n : Nat) : Nat := leAt (s.readFlash (n * 0x10_0000) 16) 8 4

/-- BOOT's registers while the sequencer runs (R304): the stage, and the headers' SEQ once they are read; the PLLs lock with
STAGE 2. -/
def viewBoot (s : State) (o : Nat) (w : Word) : Word :=
  if ¬ s.booting then w
  else if o = BOOT.BOOT_STS then put 31 28 s.bootStage w
  else if 3 ≤ s.bootStage ∧ (o = BOOT.BOOT_SEQ0 ∨ o = BOOT.BOOT_SEQ1) then whole (s.bootSeq ((o - BOOT.BOOT_SEQ0) / 4))
  else w

def viewAdc (s : State) (o : Nat) (w : Word) : Word :=
  if o = ADC.ADC_STS then put 2 1 (2 * b2n s.calBusy + b2n s.supply) w else w
def viewCore (s : State) (c o : Nat) (w : Word) : Word :=
  if o = ADCW.CORE_STS then
    whole (min 255 (max (s.stream (s.streamOf c)).settle (s.stream (s.streamOf c)).late) * 2 ^ 24 + 4 * b2n (s.corest c).scan + 2 * b2n (s.il (c / 2)) +
      b2n (s.converts c))
  else w

def viewFilt (s : State) (n o : Nat) (w : Word) : Word :=
  let c := s.fch n
  if o = FILTW.FC_STS then
    whole (c.state * 2 ^ 29 + b2n c.pend * 2 ^ 28 + b2n c.bank * 2 ^ 27 + (if c.state = 3 then (c.xk - c.j) % 8192 else 0))
  else if o = FILTW.FC_THR_STS then whole (2 * b2n c.hi + b2n c.lo)
  else if o = FILTW.FC_LAST then whole ((c.last.map FSample.word).getD 0)
  else if o = FILTW.FC_INDEX then whole c.index
  else w

def viewAcq (s : State) (u o : Nat) (w : Word) : Word :=
  let x := s.unit u
  if o = ACQW.AU_STS then whole (x.state * 2 ^ 28 + x.red % 128 * 2 ^ 16 + x.fifo.length % 512)
  else if o = ACQW.AU_SEG_PTR then whole (x.full.headD 0 % 512 * 2 ^ 16 + x.full.length % 512)
  else w

/-- A register of a page with its computed fields; `w` is the stored word. -/
def State.live (s : State) (p : Page) (o : Nat) (w : Word) : Word :=
  let c := (o - 0x800) / 0x80
  let r := (o - 0x800) % 0x80
  if o < 0x040 then (if o = HDR.IRQ_STS then put 15 0 (s.irqSum p) w else w)
  else if o < 0x800 then
    match p with
    | .timeu => viewTimeu s o w
    | .port n => viewPort s n o w
    | .mgmt => viewPort s 4 o w
    | .egress => viewEgress s o w
    | .porter => viewPorter s o w
    | .crypto => if o = CRYPTO.HMAC_Q then
        put 8 0 s.hmacDepth w else w
    | .exb n => viewExb s n o w
    | .pcache n => viewPcache s n o w
    | .hinge => viewHinge s o w
    | .role => viewRole s o w
    | .chip => viewChip s o w
    | .debug => viewDebug s o w
    | .guest g q => viewGuest s g q o w
    | .courier => if 0x140 ≤ o ∧ o < 0x16C then viewQueue s 0 (o - 0x100) w else w
    | .hostif => viewHostif s o w
    | .keyring => viewKeyring s o w
    | .ledger => viewLedger s o w
    | .flash => viewFlash s o w
    | .boot => viewBoot s o w
    | .clkrst => if s.booting ∧ 2 ≤ s.bootStage ∧ o = CLKRST.CLK_STS then w ||| 0x31#32 else w
    | .adc => viewAdc s o w
    | .dramc n => if o = DRAMC.SCRUB_STS then put 9 0 ((Tbl.get {} n s.scrub).pos * 1000 / 2 ^ 27) w else w
    | _ => w
  else if allowAt p o then w
  else if Page.cells p ≤ c then 0
  else if r = CELL.STS then whole (2 * b2n (s.quarantined p c) + b2n (s.cellBusy p c))
  else match p with
    | .timeu => if 1 ≤ c ∧ c ≤ 4 then viewTs s (c - 1) r w else w
    | .redun => viewPair s c r w
    | .egress => viewSched s c r w
    | .porter => if r = PORTERW.PIPE_HELD then whole (s.heldAt c).length else w
    | .align => viewAlignLane s c r w
    | .exb n => viewCell s n c r w
    | .pcache n => viewBank s n c r w
    | .hinge => viewLane s c r w
    | .courier => viewEngine s c r w
    | .clkrst => if s.booting ∧ 2 ≤ s.bootStage ∧ r = CLKRSTW.PLL_STS ∧ c < 3 then w ||| 1#32 else w
    | .adc => viewCore s c r w
    | .filt => viewFilt s c r w
    | .acq => viewAcq s c r w
    | _ => w

/-- The word at a register of a page, as a read returns it; an isolated block's registers beyond the header read 0 (R53). -/
def State.view (s : State) (p : Page) (o : Nat) : Word :=
  if 0x040 ≤ o ∧ s.isolated p then 0
  else if o = HDR.PAGE_STS then s.pageSts p
  else s.live p o (s.rd p o)

end Sys2Proof.Machine
end

