-- ==== Sys2Proof/Machine/Bus.lean ====
section
/-! DEFINITION. Sys2Proof/Machine/Bus.lean: register accesses (R36 to R42, R58 to R60): the checks of a write in the order of
R58, what a rejection records, and the storing of fields. A chapter's register brings its own checks and its action as a
`Rule`. -/
namespace Sys2Proof.Machine

/-- Shared error codes (R61). -/
abbrev E_RANGE : Nat := 0x01
abbrev E_RESERVED : Nat := 0x02
abbrev E_BUSY : Nat := 0x03
abbrev E_MODE : Nat := 0x04
abbrev E_LOCKED : Nat := 0x05
abbrev E_ALIGN : Nat := 0x06
abbrev E_PERM : Nat := 0x07
abbrev E_NOKEY : Nat := 0x08
abbrev E_REVOKED : Nat := 0x09
abbrev E_FULL : Nat := 0x0A
abbrev E_CONFLICT : Nat := 0x0B
abbrev E_SEQ : Nat := 0x0C
abbrev E_BUDGET : Nat := 0x0D
abbrev E_ORPHAN : Nat := 0x0E
abbrev E_AUTH : Nat := 0x0F

/-- What a register's chapter says of a write of value `v`: fields whose value is illegal (low bit, code), whether its target
is busy, the chapter's own checks, the part of the action that needs the old fields (`pre`), and the action, taken after the
fields are stored. For a field held in two registers,
`v` is the whole 64-bit value at the write of the high word. -/
structure Rule where
  legal : State → Src → Nat → List (Nat × Nat) := fun _ _ _ => []
  busy : State → Src → Nat → Bool := fun _ _ _ => false
  check : State → Src → Nat → Option Nat := fun _ _ _ => none
  pre : State → Src → Nat → State := fun s _ _ => s
  apply : State → Src → Nat → State := fun s _ _ => s

/-- Bits [hi:lo] of a number. -/
def fld (v hi lo : Nat) : Nat := v / 2 ^ lo % 2 ^ (hi + 1 - lo)

/-- The low registers of the fields wider than 32 bits that software writes (R38). (DEDUCED, log 16). -/
def wideRegs (p : Page) : List Nat :=
  match p with
  | .timeu => [TIMEU.INCR_LO, TIMEU.SLEW_LO, TIMEU.STEP_S_LO, TIMEU.LEAP_AT_LO, TIMEU.SCH_S_LO]
  | .egress => [EGRESS.MAC_BASE_LO, EGRESS.PUB_BASE_LO]
  | .porter => [PORTER.SDT_BASE_LO, PORTER.DESC_STAGE_LO] ++ (List.range 4).map PORTER.Q_BASE_LO
  | .point => [POINT.PIMG_BASE_LO, POINT.PT_DATA_LO]
  | .exb _ => [EXB.GCMD_IMG_LO, EXB.PATCH_LIST_LO]
  | .hinge => (List.range 16).map HINGE.BULK_BASE_LO ++ (List.range 16).map HINGE.BULK_LEN_LO ++
      ((List.range 256).filter allowHeld).map HINGE.ALLOW_LO
  | .guest _ 2 => [GQ.SQ_BASE_LO, GQ.CQ_BASE_LO]
  | .courier => [0x100 + GQ.SQ_BASE_LO, 0x100 + GQ.CQ_BASE_LO]
  | .guest _ 3 => [GLV.LV_SEL_LO]
  | .hostif => [HOSTIF.FN_WIN_BASE_LO, HOSTIF.FN_WIN_LEN_LO]
  | .ledger => [LEDGER.LG_SEL_LO]
  | .check => (List.range 4).map (fun c => win c CHECKW.CK_ADDR_LO)
  | .acq => [ACQ.ACQ_WIN_BASE_LO]
  | .dramc 0 => [DRAMC.GSTORE_BASE_LO]
  | .flash => [FLASH.FL_DRAM_LO]
  | _ => []

/-- The low registers of the read-only fields wider than 32 bits (R38). -/
def wideReadOnly (p : Page) : List Nat :=
  match p with
  | .timeu => [TIMEU.SNAP_S_LO, TIMEU.SLEW_PEND_LO]
  | .align => [ALIGN.CTX_FILLED_LO]
  | .boot => [BOOT.BOOT_ID_LO]
  | .fuse => [FUSE.DSN_LO]
  | .guest _ 0 => [GCTL.G_CYC_S_LO, GCTL.G_BUILD_LO]
  | .guest _ 3 => [GLV.LV_HEAD_LO]
  | .keyring => [KEYRING.KR_SEQ_LO, KEYRING.KR_RES_SEQ_LO, KEYRING.KR_STORE_SEQ_LO]
  | .ledger => [LEDGER.LG_BASE_LO, LEDGER.LG_HEAD_LO, LEDGER.LG_TAIL_LO, LEDGER.HIST_COUNT_LO, LEDGER.HIST_SUM_LO, LEDGER.HIST_MIN_S_LO,
      LEDGER.HIST_MAX_S_LO]
  | .check => (List.range 4).flatMap (fun c => [win c CHECKW.CK_DONE_LO, win c CHECKW.CK_RES_LO])
  | .dramc _ => [DRAMC.UE_ADDR_LO]
  | .flash => [FLASH.CKPT_SEQ_LO, FLASH.CKPT_LEN_LO]
  | _ => []

/-- Code of a source in PAGE_ERR_ADDR.SRC (R50). -/
def srcCode : Src → Nat
  | .pf | .fn _ => 0
  | .debug => 1
  | .boot => 2

/-- The agent that PAGE_STS-style latches belong to, as a number: 0 the physical function, 1 to 255 a guest, 256 the debug
port, 257 the BOOT sequencer. -/
def srcKey : Src → Nat
  | .pf => 0
  | .fn g => g
  | .debug => 256
  | .boot => 257

/-- Host accesses of a function reach the device: HOSTIF is not isolated (R331) and the function is not in D3hot (R443).
(DEDUCED, log 31). -/
def State.hostAccess (s : State) (fn : Nat) : Bool := !s.isolated .hostif && !(Tbl.get {} fn s.courier.fns).d3

/-- Whether a source's accesses reach a page: the manager's space from the physical function, from the debug port once it is
unlocked (R310) while DEBUG works (R27, R46), and from the BOOT sequencer; a guest's pages from its own function while virtual functions are enabled
(R40, R313). (DEDUCED, log 31, 121). -/
def State.reaches (s : State) (src : Src) (p : Page) : Bool :=
  Page.real p && match src with
  | .fn g => (match p with
    | .guest h _ => g == h && decide (1 ≤ g) && decide (g ≤ 255) && s.courier.vfEnable && s.hostAccess g
    | _ => false)
  | .debug => !Page.isGuest p && bit (s.rd .debug DEBUG.DBG_STS) 0 && s.working .debug
  | .pf => !Page.isGuest p && s.hostAccess 0
  | .boot => !Page.isGuest p && decide (s.role.mode = .boot)

/-- A rejected write (R59): PAGE_ERR with its count and code, PAGE_ERR_ADDR, and IRQ_STS.ERR. `a` is the write's offset in
its space. (DEDUCED, log 21). -/
def State.reject (s : State) (p : Page) (a : Nat) (src : Src) (code : Nat) : State :=
  let n := satAdd 0xFFFF (s.rdf p HDR.PAGE_ERR 23 8) 1
  let s := s.wrn p HDR.PAGE_ERR (2 ^ 31 + n * 256 + code)
  let s := s.wrn p HDR.PAGE_ERR_ADDR (srcCode src * 2 ^ 24 + a % 2 ^ 24)
  s.wrf p HDR.IRQ_STS 25 25 1

/-- The illegal fields of a word against a field table (R6, R7): (low bit, code). (DEDUCED, log 18). -/
def State.illegal (s : State) (flds : List Fld) (cur w : Word) : List (Nat × Nat) :=
  flds.filterMap (fun f =>
    match f.acc with
    | .ro => if bits w f.hi f.lo = bits cur f.hi f.lo then none else some (f.lo, E_PERM)
    | .rwc => if bits w f.hi f.lo = bits cur f.hi f.lo ∨ s.role.mode = .configure then none else some (f.lo, E_MODE)
    | _ => none) ++
  (match (List.range 32).find? (fun i => bit w i && !flds.any (fun f => decide (f.lo ≤ i) && decide (i ≤ f.hi))) with
   | some i => [(i, E_RESERVED)]
   | none => [])

/-- The code of the lowest illegal bit (R8). -/
def lowest : List (Nat × Nat) → Option Nat
  | [] => none
  | (b, c) :: t => match t.foldl (fun a e => if e.1 < a.1 then e else a) (b, c) with | (_, c) => some c

/-- The stored word after a write: RW and RWC fields take the new value, W1C fields lose the bits written 1, W1S fields gain
them, RO fields keep theirs, WO fields store nothing (R6). -/
def stored (flds : List Fld) (old w : Word) : Word :=
  flds.foldl (fun a f =>
    let n := bits w f.hi f.lo
    let o := bits old f.hi f.lo
    match f.acc with
    | .rw | .rwc => setBits a f.hi f.lo n
    | .w1c => setBits a f.hi f.lo (o &&& (2 ^ (f.hi + 1 - f.lo) - 1 - n))
    | .w1s => setBits a f.hi f.lo (o ||| n)
    | .ro | .wo => a) old

/-- The value that a rule sees: for the high word of a wide field the low word waiting in its shadow joins it (R38). -/
def State.written (s : State) (p : Page) (o : Nat) (w : Word) : Nat :=
  if (wideRegs p).contains (o - 4) ∧ 4 ≤ o then
    (Tbl.get (s.rd p (o - 4)) (Page.base p + (o - 4)) s.shadow).toNat + 2 ^ 32 * w.toNat
  else w.toNat

/-- Whether a page's header offset takes a write while its block is isolated: PAGE_ERR, IRQ_STS and IRQ_SET (R53). -/
def openWhenIsolated (o : Nat) : Bool := o == HDR.PAGE_ERR || o == HDR.IRQ_STS || o == HDR.IRQ_SET

/-- Illegal fields of the low word that waits for the write of its high word: a field that changes whole is changed by that write
(R38), so it is judged in the mode of that write. (DEDUCED, log 16). -/
def State.illegalLow (s : State) (p : Page) (o : Nat) : List (Nat × Nat) :=
  if (wideRegs p).contains (o - 4) ∧ 4 ≤ o then
    match Tbl.look (Page.base p + (o - 4)) s.shadow with
    | some w => s.illegal ((regFields p (o - 4)).getD []) (s.rd p (o - 4)) w
    | none => []
  else []

/-- The outcome of the checks of R58 on a 32-bit write that meets R37, at an offset of a page, under a rule. Of two codes at one
bit, such as E_MODE and E_RANGE of an RWC field, the kind that R58 names first stands. (DEDUCED, log 17, 120). -/
def State.verdict (s : State) (r : Rule) (src : Src) (p : Page) (o : Nat) (w : Word) : Option Nat :=
  if o = HDR.PAGE_ERR then none
  else if noWindow p o then some E_RANGE
  else if s.role.mode = .boot ∧ p ≠ .chip ∧ p ≠ .boot ∧ src ≠ .boot then some E_MODE
  else if s.isolated p ∧ ¬ openWhenIsolated o then some E_LOCKED
  else match regFields p o with
  | none => some E_RESERVED
  | some flds =>
    let v := s.written p o w
    match lowest (s.illegalLow p o ++ s.illegal flds (s.view p o) w ++ r.legal s src v) with
    | some c => some c
    | none =>
      if (Tbl.get false (Page.base p) s.srst ∧ 0x040 ≤ o) ∨ r.busy s src v then some E_BUSY
      else r.check s src v

/-- A word that waits in its shadow until another register's write brings it in: the low word of a wide field (R38), both words of
LG_BASE for LG_CFG (R387), those of FN_WIN_BASE for FN_WIN_LEN (R337), a coefficient's offset word for its gain word (R408). -/
def waits (p : Page) (o : Nat) : Bool :=
  (wideRegs p).contains o || (p == .ledger && (o == LEDGER.LG_BASE_LO || o == LEDGER.LG_BASE_HI)) ||
    (p == .hostif && (o == HOSTIF.FN_WIN_BASE_LO || o == HOSTIF.FN_WIN_BASE_HI)) ||
    (p == .adc && decide (0x100 ≤ o) && decide (o < 0x180) && o % 8 == 0)

/-- Store an accepted word: a word that waits goes into its shadow; a high word brings its low word in (R38); IRQ_SET sets bits
of IRQ_STS (R51); PAGE_ERR loses CODE, COUNT and STICKY when bit 31 is written 1 (R49). -/
def State.storeReg (s : State) (p : Page) (o : Nat) (w : Word) : State :=
  if o = HDR.PAGE_ERR then if bit w 31 then s.wr p o 0 else s
  else if o = HDR.IRQ_SET then s.wr p HDR.IRQ_STS (s.rd p HDR.IRQ_STS ||| w)
  else
    let flds := (regFields p o).getD []
    if waits p o then
      { s with shadow := Tbl.put (Page.base p + o) w s.shadow }
    else if (wideRegs p).contains (o - 4) ∧ 4 ≤ o then
      let v := s.written p o w
      let lo := (regFields p (o - 4)).getD []
      let s := { s with shadow := Tbl.del (Page.base p + (o - 4)) s.shadow }
      (s.wr p (o - 4) (stored lo (s.rd p (o - 4)) (BitVec.ofNat 32 v))).wr p o (stored flds (s.rd p o) w)
    else s.wr p o (stored flds (s.rd p o) w)

/-- A 32-bit write at an offset of a page under its register's rule: rejected as a whole and recorded, or stored and acted
on (R58, R59). (DEDUCED, log 16, 17). -/
def State.writeReg (s : State) (r : Rule) (src : Src) (p : Page) (o : Nat) (w : Word) : State :=
  if ¬ s.reaches src p then s
  else match s.verdict r src p o w with
  | some c => s.reject p (Page.base p % 0x100_0000 + o) src c
  | none =>
    let v := s.written p o w
    if (wideRegs p).contains o then s.storeReg p o w
    else r.apply ((r.pre s src v).storeReg p o w) src v

/-- The page that records a write to no page (R36, R41): the region's own page, the chip page for an unmapped region, the
guest control page. -/
def errPage (src : Src) (a : Nat) : Page :=
  match src with
  | .fn g => .guest g 0
  | _ => if a / 0x10_0000 % 16 < 10 then Page.ofRegion (a / 0x10_0000 % 16) else .chip

/-- The page of a byte address in a source's space (R34, R40). -/
def pageFor (src : Src) (a : Nat) : Option (Page × Nat) :=
  match src with
  | .fn g => if a < 0x4000 then some (.guest g (a / 0x1000), a % 0x1000) else none
  | _ => if a < 0x100_0000 then (Page.at (a / 0x10_0000) (a / 0x1000 % 0x100)).map (fun p => (p, a % 0x1000)) else none

/-- A write of a source to an unmapped address of its space, or one that breaks R37 (steps 1 and 2 of R58). -/
def State.rejectAt (s : State) (src : Src) (p : Page) (a code : Nat) : State :=
  if s.reaches src p then s.reject p a src code else s

/-- What a read of a register returns to a source (R38, R43, R60, R304): the latched word where one waits for it. -/
def State.readReg (s : State) (src : Src) (p : Page) (o : Nat) : Word :=
  if ¬ s.reaches src p then 0
  else if s.role.mode = .boot ∧ p ≠ .chip ∧ p ≠ .boot ∧ src ≠ .boot then 0
  else match regFields p o with
  | none => 0
  | some _ => Tbl.get (s.view p o) (srcKey src * 2 ^ 33 + Page.base p + o) s.latch

/-- Latch the word at a register for a source: the source's next read of it returns this word. (DEDUCED, log 32). -/
def State.latchReg (s : State) (src : Src) (p : Page) (o : Nat) : State :=
  { s with latch := Tbl.put (srcKey src * 2 ^ 33 + Page.base p + o) (s.view p o) s.latch }

end Sys2Proof.Machine
end

