-- ==== Sys2Proof/Machine/HingeOps.lean ====
section
/-! DEFINITION. Sys2Proof/Machine/HingeOps.lean: what HINGE and ROLE offer the other blocks: queueing Hinge frames, the
partner's state, mirroring, phase offsets, flags and mode changes (R255 to R270, R291 to R294). -/
namespace Sys2Proof.Machine

/-- The mode of a code. -/
def modeOf (n : Nat) : Mode :=
  match n with
  | 0 => .boot | 1 => .configure | 2 => .coldStandby | 3 => .resync
  | 4 => .hotStandby | 5 => .active | 6 => .test | _ => .safe

/-- The partner's mode while a heartbeat path is up; a unit with PAIR_CONFLICT treats the partner as absent (R266). -/
def State.partner (s : State) : Option Mode :=
  if (s.role.hbUp || s.role.netUp) && s.role.partnerSeen && !s.pairConflict then some s.role.partnerMode else none

/-- The active has a partner to which it mirrors a running pair's state: HOT_STANDBY, with the Hinge path up (R266, R272). -/
def State.mirrorsTo (s : State) (m : Mode) : Bool :=
  decide (s.role.mode = .active) && s.hingePath && !s.role.hingeFailed && decide (s.partner = some m)

/-- The active has a partner in a mode, whatever path reports it (R276, R284). -/
def State.mirrorOwed (s : State) (m : Mode) : Bool := decide (s.role.mode = .active) && decide (s.partner = some m)

/-- Write an allowance entry that has its words. -/
def State.setAllow (s : State) (g : Nat) (lo hi : Word) : State :=
  if allowHeld g then (s.wr .hinge (HINGE.ALLOW_LO g) lo).wr .hinge (HINGE.ALLOW_HI g) hi else s

/-- Commands and lines go to a partner in HOT_STANDBY or RESYNC (R244, R274, R282). -/
def State.mirrored (s : State) : Bool := s.mirrorsTo .hotStandby || s.mirrorsTo .resync

/-- The unit is a standby that follows the active's mirror (R213, R273). -/
def State.follows (s : State) : Bool := decide (s.role.mode = .hotStandby) && !s.role.unmirrored && s.hingePath

/-- The unit is the standby and the Hinge is up (R243, R247, R289). -/
def State.standbyWithHinge (s : State) : Bool :=
  (decide (s.role.mode = .hotStandby) || decide (s.role.mode = .resync)) && s.hingePath

/-- Put a frame among waiting frames: after every frame of its priority or a more urgent one (R258). -/
def enqueue (f : HFrame) : List HFrame → List HFrame
  | [] => [f]
  | h :: t => if f.prio < h.prio then f :: h :: t else h :: enqueue f t

/-- The frames that a unit in a mode may send (R293, R299): nothing in BOOT; heartbeats; in COLD_STANDBY the RESYNC request too, and
the counts that unit B owes from before it stopped (R268). (DEDUCED, log 138). -/
def HBody.sendable (m : Mode) (b : HBody) : Bool :=
  match m, b with
  | .boot, _ => false
  | _, .heartbeat .. => true
  | .coldStandby, .role kind _ _ => kind == 1
  | .coldStandby, .control _ _ _ _ (.counts _) => true
  | .resync, _ | .hotStandby, _ | .active, _ => true
  | _, _ => false

/-- Queue a Hinge frame while the link is up, as far as the mode sends it (R256, R258, R293). -/
def State.sendHinge (s : State) (prio : Nat) (cseq : Nat) (b : HBody) : State :=
  if s.hinge.link && !s.isolated .hinge && b.sendable s.role.mode then
    { s with hinge := { s.hinge with queue := enqueue ⟨prio, cseq, b⟩ s.hinge.queue } }
  else s

def cyclePrio (n : Nat) : Nat := if isFast n then 4 else 5

/-- K ticks for a slow guest, none for a fast one (R270). -/
def State.kTicks (s : State) (n : Nat) : Nat := if isFast n then 0 else s.role.k

/-- The local clock with the unit's fractional offset F taken off (R270). -/
def State.clockF (s : State) : Nat := s.time.clock - s.role.f * nsU

/-- The absolute base-grid tick at or before now, F taken off (R271). -/
def State.tickF (s : State) : Nat := absTick s.clockF

/-- The absolute tick of a class's own time line: K taken off for slow guests. -/
def State.classTick (s : State) (n : Nat) : Nat := s.tickF - s.kTicks n

/-- The clock value at which an absolute tick of a class's time line falls on the unit (R270, R271). -/
def State.instantOf (s : State) (n t : Nat) : Nat := clockOfTick (t + s.kTicks n) + s.role.f * nsU

/-- The cycle (S, C) of a class in which a tick lies (R10). -/
def cycleAt (n t : Nat) : Nat × Nat := (t / 288000, t % 288000 / n)

/-- The order of cycle indices (R12). -/
def cycLt (a b : Nat × Nat) : Bool := decide (sDiff a.1 b.1 < 0) || (a.1 == b.1 && decide (a.2 < b.2))

/-- Whether the start tick of a cycle index lies before now on the unit's time line of a class, by the order of R12. -/
def State.passed (s : State) (n : Nat) (i : Nat × Nat) : Bool :=
  let now := cycleAt n (s.classTick n)
  cycLt i now || (i == now && decide (cycleTick n i.1 i.2 < s.classTick n))

/-- FLAGS of a heartbeat and of the flag records (R259, R371). -/
def RoleSt.flags (r : RoleSt) : Nat := b2n r.isolated + 2 * b2n r.unmirrored + 4 * b2n r.netLost + 8 * b2n r.degraded

/-- Change ROLE's flags with the matching sources and counters (R266, R291); a change of mode that goes with it writes the
record. -/
def State.withFlags (s : State) (f : RoleSt → RoleSt) : State :=
  let r := f s.role
  let old := s.role
  let t : State := { s with role := r }
  let t := if r.isolated != old.isolated then t.raise .role 19 else t
  let t := if r.isolated && !old.isolated then t.bump .role ROLE.ISOLATIONS else t
  let t := if r.netLost != old.netLost then t.raise .role 18 else t
  let t := if r.netLost && !old.netLost then t.bump .role ROLE.NET_LOSSES else t
  if r.flags ≠ old.flags then t.raise .role 16 else t

/-- Change ROLE's flags without a change of mode: one ROLE_FLAGS record (R266, R292, R371). -/
def State.setFlags (s : State) (f : RoleSt → RoleSt) : State :=
  let t := s.withFlags f
  if t.role.flags ≠ s.role.flags then
    t.emit .role 0x050 0 [BitVec.ofNat 8 s.role.flags, BitVec.ofNat 8 t.role.flags]
  else t

/-- The role a mode shows in ROLE_STS (R291): 1 active, 2 standby, 0 none. -/
def roleOf : Mode → Nat
  | .active => 1
  | .hotStandby => 2
  | _ => 0

/-- Change the unit's mode: one MODE_CHG record with its event, CHIP_STS.MODE, IRQ MODE_CHG, and ROLE_CHG when the role
changes (R292, R294). The commit sequence restarts when the unit leaves CONFIGURE or COLD_STANDBY (R257); SIM_SEEN lasts
until the unit leaves TEST (R147). Waiting Hinge frames that the new mode does not send are dropped (R293). -/
def State.toMode (s : State) (m : Mode) (event : Nat) : State :=
  let old := s.role.mode
  if m = old then s
  else
    let s := s.emit .chip 0x010 0 [BitVec.ofNat 8 (modeCode old), BitVec.ofNat 8 (modeCode m),
      BitVec.ofNat 8 s.role.safeCause, BitVec.ofNat 8 event]
    let s := s.raise .chip 16
    let s := if roleOf m ≠ s.role.role then s.raise .role 16 else s
    let s : State := { s with
      role := { s.role with mode := m, role := roleOf m },
      hinge := { s.hinge with
        queue := s.hinge.queue.filter (fun f => f.body.sendable m), wait := s.hinge.wait.filter (fun w => w.frame.body.sendable m) } }
    let s : State := if old = .test then
        { s with porter := { s.porter with
          ctxs := s.porter.ctxs.map (fun e => (e.1, { e.2 with st := { e.2.st with simSeen := false } })) } }
      else s
    if old = .configure ∨ old = .coldStandby then { s with hinge := { s.hinge with cseq := 0 } } else s

/-- Bytes of CFG_DIGEST's string (R260): descriptor bytes 0x00–0x03 and 0x06–0x7F of every valid context from the table in
DRAM, MAC_BASE in network order, LAUNCH_OFS, STATUS_BASE, PIMG_BASE. -/
def State.cfgBytes (s : State) : List Byte :=
  let base := s.rd2 .porter PORTER.SDT_BASE_LO
  (s.porter.ctxs.flatMap (fun e =>
    s.readMem (base + 256 * e.1) 4 ++ s.readMem (base + 256 * e.1 + 6) 122)) ++
  beBytes 6 (s.rd2 .egress EGRESS.MAC_BASE_LO) ++ leBytes 2 (s.rd .egress EGRESS.LAUNCH_OFS).toNat ++
  leBytes 4 (s.rd .align ALIGN.STATUS_BASE).toNat ++ leBytes 8 (s.rd2 .point POINT.PIMG_BASE_LO)

/-- CFG_DIGEST (R259, R260). -/
def State.cfgDigest (s : State) : Nat := crc32c s.cfgBytes

/-- MAC_BASE (R117). -/
def State.macBase (s : State) : Nat := s.rd2 .egress EGRESS.MAC_BASE_LO
/-- The unit's own address (R117). -/
def State.unitAddr (s : State) : Nat := s.macBase + (if s.unitB then 0xFF else 0xFE)

end Sys2Proof.Machine
end

