-- ==== Sys2Proof/Machine/Egress.lean ====
section
/-! DEFINITION. Sys2Proof/Machine/Egress.lean: publications as a guest's commit point drives them (R110, R113 to R118, R268,
R286). -/
namespace Sys2Proof.Machine

/-- A publication entry from its 64 bytes (R110). -/
def pubOfBytes (b : List Byte) : PubEntry :=
  let ctl := ofLe (b.take 4)
  let at_ := fun o n => ofLe ((b.drop o).take n)
  let vlan := at_ 4 2
  { typ := ctl / 2 % 4, urgent := ctl.testBit 3, pair0 := ctl.testBit 4, pair1 := ctl.testBit 5, sign := ctl.testBit 6,
    srcIdx := ctl / 256 % 256, guest := ctl / 65536 % 256, vid := vlan % 4096, pcp := vlan / 4096 % 8,
    tagged := vlan.testBit 15, appid := at_ 6 2, dst := ofBe ((b.drop 8).take 6), tmplLen := at_ 0xE 2,
    tmplAddr := at_ 0x10 8, mapAddr := at_ 0x18 8, mapCount := at_ 0x20 1, ofsT := at_ 0x22 2, ofsA := at_ 0x24 2,
    ofsB := at_ 0x26 2, ofsTal := at_ 0x28 2, t1 := at_ 0x2A 2, t0 := at_ 0x2C 4, keySlot := at_ 0x30 2 % 512 }

/-- A map entry (R110): point, template offset, width in bytes. -/
structure MapEnt where
  point : Nat
  ofs : Nat
  width : Nat
deriving DecidableEq, Repr

def mapEnt (v : Nat) : MapEnt := ⟨v % 2 ^ 25, v / 2 ^ 32 % 2 ^ 11, 2 ^ (v / 2 ^ 46 % 4)⟩

/-- The map entries of a publication, read from DRAM. -/
def State.pubMap (s : State) (e : PubEntry) : List MapEnt :=
  (List.range e.mapCount).map (fun i => mapEnt (s.leMem (e.mapAddr + 8 * i) 8))

/-- Replace bytes of a template at an offset. -/
def overlay (t : List Byte) (o : Nat) (b : List Byte) : List Byte :=
  if o + b.length ≤ t.length then t.take o ++ b ++ t.drop (o + b.length) else t

/-- The mapped bytes of a publication as the committed points give them, in network order (R110). -/
def State.mapped (s : State) (e : PubEntry) : List (Nat × List Byte) :=
  (s.pubMap e).map (fun m => (m.ofs, beBytes m.width (s.point m.point).toNat))

/-- Lay mapped bytes over a template. -/
def layMap (t : List Byte) (l : List (Nat × List Byte)) : List Byte := l.foldl (fun a m => overlay a m.1 m.2) t

/-- The SYNC_STATE that fills a guest's time-quality fields (R115): the active's, mirrored with its commits, on a unit that
is mirrored; its own otherwise. -/
def State.pubSync (s : State) (x : Guest) : Nat :=
  match (if s.follows then x.mirSync else none) with
  | some c => c
  | none => syncCode s.time.sync

/-- The quality byte of an IEC 61850 TimeStamp (R83): LeapSecondsKnown, ClockFailure, ClockNotSynchronized, TimeAccuracy,
from the most significant bit down. -/
def State.timeQuality (s : State) (sync : Nat) : Nat :=
  128 * s.rdf .timeu TIMEU.TQ_CFG 8 8 + 64 * b2n (bit (s.rd .clkrst CLKRST.CLK_STS) 2) +
    (if sync = 0 then 32 + 31 else s.rdf .timeu TIMEU.TQ_CFG 4 0)

/-- The TimeStamp of a grid tick (R74, R84): SecondSinceEpoch, FractionOfSecond, quality. -/
def State.timeStamp (s : State) (tick sync : Nat) : List Byte :=
  let utc := signed 16 (s.rdf .timeu TIMEU.UTC_CFG 15 0)
  let sec := unsigned 32 (((tick / 288000 : Nat) : Int) - utc)
  let ns := nsOfTick (tick % 288000)
  beBytes 4 sec ++ beBytes 3 (ns * 2 ^ 24 / 1000000000) ++ [BitVec.ofNat 8 (s.timeQuality sync)]

/-- The template of a publication with its APPID at offset 2, whatever its TYPE and, in TEST, the Simulation bit of GOOSE and SV frames (R110, R115).
(DEDUCED, log 116;
DESIGN CHOICE, log 129). -/
def State.template (s : State) (e : PubEntry) : List Byte :=
  let t := overlay (s.readMem e.tmplAddr e.tmplLen) 2 (beBytes 2 e.appid)
  if s.role.mode = .test ∧ e.typ ≠ 2 then overlay t 6 [(t.getD 6 0) ||| 0x80] else t

/-- stNum and sqNum advance by 1 and wrap from 2^32 − 1 to 1 (R113). -/
def wrapNext (n : Nat) : Nat := if n + 1 < 2 ^ 32 then n + 1 else 1

/-- Whether, and how, a guest's publications act now: none where the unit publishes nothing (R293, R127, R266); `some false`
where counts advance and nothing is sent (R28, R213, R273, R286, R301). While PUB_EN is 0 no count and no repeat moves. Whether the
partner runs the guest is judged by the mode it reports. (DESIGN CHOICE, log 130, 131). -/
def State.sendState (s : State) (x : Guest) : Option Bool :=
  let m := s.role.mode
  if ¬ (m = .hotStandby ∨ m = .active ∨ m = .test ∨ m = .safe) ∨ ¬ bit (s.rd .egress EGRESS.EGR_CTL) 0 ∨ x.left then none
  else
    let pRuns := s.partner = some .active ∨ s.partner = some .hotStandby
    let said := s.role.partnerSeen ∧ (s.role.partnerMode = .active ∨ s.role.partnerMode = .hotStandby)
    some (¬ (x.degraded ∨ x.mute ∨ s.role.holdFrom.isSome ∨ (x.st = .halted ∧ x.haltCause = 4 ∧ pRuns ∧ s.hingePath) ∨
      (m = .safe ∧ said)))

/-- The transmit state of publication `i` after one more frame, and the frame put among those due: it takes the address
count as its number and both counts advance (R118). A suppressed frame is not put there; one whose data DRAM lost is
skipped at its launch (R439). It launches LAUNCH_OFS after the commit point `cp`, a clock value (R113). -/
def State.due1 (s : State) (i : Nat) (u : Pub) (body : List Byte) (cp : Nat) (send : Bool) : State :=
  let e := u.entry
  let pb := s.rd2 .egress EGRESS.PUB_BASE_LO + 64 * i
  let bad := s.poisoned pb 64 || s.poisoned e.tmplAddr e.tmplLen || s.poisoned e.mapAddr (8 * e.mapCount)
  let s := if bad then ((s.ueRange pb 64 3).ueRange e.tmplAddr e.tmplLen 3).ueRange e.mapAddr (8 * e.mapCount) 3 else s
  let seq := Tbl.get 0 e.srcIdx s.addrCount
  let d : DueFrame := ⟨i, e.guest, e.urgent, e.srcIdx, seq % 65536, if e.tagged then some (e.vid, e.pcp) else none, e.dst,
    body, if e.sign then some e.keySlot else none, bad, e.ports,
    cp + (s.rd .egress EGRESS.LAUNCH_OFS).toNat * nsU⟩
  { s with addrCount := Tbl.set 0 e.srcIdx (seq + 1) s.addrCount, due := if send then s.due ++ [d] else s.due,
           pubs := Tbl.put i { u with count := u.count + 1 } s.pubs }

/-- A GOOSE frame of publication `i` at grid tick `grid`: a change frame, or a repeat (R113), which keeps t and its TimeQuality
octet as the change frame had them. (DEDUCED, log 45; DESIGN CHOICE, log 132). -/
def State.goose (s : State) (i : Nat) (u : Pub) (map : List (Nat × List Byte)) (change : Bool)
    (grid cp sync : Nat) (send : Bool) : State :=
  let e := u.entry
  let iv := if change then e.t1 else min (2 * u.interval) e.t0
  let u : Pub := if change then
      { u with stNum := wrapNext u.stNum, sqNum := 0, tField := s.timeStamp grid sync, force := false }
    else { u with sqNum := wrapNext u.sqNum }
  let u := { u with interval := iv, repeatAt := some (grid + 288 * iv), last := some map }
  let b := layMap (s.template e) map
  let b := overlay (overlay (overlay (overlay b e.ofsT u.tField) e.ofsA (beBytes 4 u.stNum)) e.ofsB (beBytes 4 u.sqNum))
    e.ofsTal (beBytes 4 (2 * iv))
  s.due1 i u b cp send

/-- What publication `i` does at a commit point of its guest: `c` is the committed cycle, `grid` the commit point's grid
tick and `cp` the commit point itself (R113). A raw publication sends at every commit point. (DESIGN CHOICE, log 129). -/
def State.publish1 (s : State) (i : Nat) (u : Pub) (c grid cp sync : Nat) (send : Bool) : State :=
  let e := u.entry
  let map := s.mapped e
  if e.typ = 0 then
    let change := u.force || u.last.map (fun l => (l.map Prod.snd).flatten) != some (map.map Prod.snd).flatten
    if change then s.goose i u map true grid cp sync send
    else if u.repeatAt = some grid then s.goose i u map false grid cp sync send
    else { s with pubs := Tbl.put i { u with last := some map } s.pubs }
  else
    let b := layMap (s.template e) map
    let b := if e.typ = 1 then
        overlay (overlay b e.ofsA (beBytes 2 (c % 65536))) e.ofsB [if sync = 0 then 0 else 2]
      else b
    s.due1 i u b cp send

/-- The publications of a guest in the order of R116: urgent first, then the others, each in ascending index. -/
def State.pubsOf (s : State) (g : Nat) : List (Nat × Pub) :=
  let l := s.pubs.filter (fun e => e.2.entry.guest == g && !e.2.stopped)
  l.filter (fun e => e.2.entry.urgent) ++ l.filter (fun e => !e.2.entry.urgent)

/-- Entries in effect change at their guest's commit point: a changed entry keeps its transmit state, a new one starts, an
invalid one goes with its transmit state (R111, R114). A restored transmit state waits for the first entry of its index:
the same guest takes it, another discards it (R447). -/
def State.pubEffect (s : State) (i : Nat) (e : Option PubEntry) : State :=
  match e with
  | none => { s with pubs := Tbl.del i s.pubs }
  | some e =>
    let u : Pub := match Tbl.look i s.pubs with
      | some u => { u with entry := e, stopped := false }
      | none =>
        match s.restoredPubs.find? (fun r => r.1 == i && r.2.1 == e.guest) with
        | some r => { entry := e, stNum := r.2.2.1, count := r.2.2.2 }
        | none => { entry := e }
    { s with pubs := Tbl.put i u s.pubs, restoredPubs := s.restoredPubs.filter (fun r => r.1 != i) }

/-- The guest of an accepted entry: its own, or that of the publication it removes. -/
def State.acceptGuest (s : State) (a : Nat × Option PubEntry) : Nat :=
  match a.2 with
  | some e => e.guest
  | none => match Tbl.look a.1 s.pubs with | some u => u.entry.guest | none => 0

/-- Accepted entries of guest `g` take effect (R111). (DEDUCED, log 43). -/
def State.acceptPubs (s : State) (g : Nat) : State :=
  let now := s.pubAccept.filter (fun a => s.acceptGuest a == g)
  let t : State := { s with pubAccept := s.pubAccept.filter (fun a => s.acceptGuest a != g) }
  now.foldl (fun t a => t.pubEffect a.1 a.2) t

/-- The pending merge of address counts (R268): unit A takes the larger of its own count and B's by the signed 16-bit
difference, plus 64; with contact over the network alone it adds 1,024. (DEDUCED, log 73). -/
def State.mergeCounts (s : State) : State :=
  match s.role.merge with
  | none => s
  | some m =>
    let own := fun a => Tbl.get 0 a s.addrCount
    let new := fun a => match m with
      | some b => (if 0 < signed 16 (Tbl.get 0 a b + 65536 - own a % 65536) then Tbl.get 0 a b else own a) + 64
      | none => own a + 1024
    let t := (List.range 254).foldl (fun t a => Tbl.set 0 a (new a) t) s.addrCount
    { s with addrCount := t, role := { s.role with merge := none } }

/-- The publications of guest `g` at its commit point (R113). -/
def State.publish (s : State) (g : Nat) (x : Guest) (c grid : Nat) : State :=
  let s := (s.mergeCounts).acceptPubs g
  match s.sendState x with
  | none => s
  | some send =>
    (s.pubsOf g).foldl (fun t e => t.publish1 e.1 e.2 c grid (s.instantOf x.img.n grid) (s.pubSync x) send) s

/-- The string of EGR_DIGEST of a guest (R260): the interval of a publication whose repeat is pending is the one the repeat was
set with (R113); an entry whose guest was unloaded reads VALID = 1 (R124) and counts. (DEDUCED, log 44, 45). -/
def State.egrBytes (s : State) (g : Nat) : List Byte :=
  let l := s.pubs.filter (fun e => e.2.entry.guest == g)
  let addrs := (List.range 254).filter (fun a => l.any (fun e => e.2.entry.srcIdx == a))
  l.flatMap (fun e => leBytes 2 e.1 ++ leBytes 8 e.2.count ++ leBytes 4 e.2.stNum ++ leBytes 4 e.2.sqNum ++
    leBytes 4 (if e.2.repeatAt.isSome then e.2.interval else 0)) ++
  addrs.flatMap (fun a => leBytes 1 a ++ leBytes 8 (Tbl.get 0 a s.addrCount))

/-- EGR_DIGEST of a guest (R258, R260). -/
def State.egrDigest (s : State) (g : Nat) : Nat := crc32c (s.egrBytes g)

end Sys2Proof.Machine
end

