-- ==== Sys2Proof/Machine/GuestOps.lean ====
section
/-! DEFINITION. Sys2Proof/Machine/GuestOps.lean: what every guest command and cycle event is written with: outputs and safe
values, the guest's stores, loading its cells, restarts, halts (R28, R29, R205 to R213, R227, R240, R241, R249, R250, R442). -/
namespace Sys2Proof.Machine

/-! ### Outputs (R208, R209, R299) -/

/-- The test bit of an output's quality word, set by the commit mover in TEST (R299). -/
def State.testBit (s : State) : DWord := if s.role.mode = .test then 1#64 <<< 43 else 0

/-- The adjustment of an output that carries a quality word (R208): ORIGIN computed, bits [23] and [31:24] zero, VAL 0b10
becomes 0b01. -/
def adjust (v : DWord) : DWord :=
  let q := v.toNat / 2 ^ 32
  let val := q / 2 ^ 18 % 4
  let q := q % 2 ^ 15 + 7 * 2 ^ 15 + (if val = 2 then 1 else val) * 2 ^ 18 + q / 2 ^ 20 % 8 * 2 ^ 20
  BitVec.ofNat 64 (v.toNat % 2 ^ 32 + q * 2 ^ 32)

/-- The safe value of an output (R209). -/
def safeValue (e : OutEnt) (v : DWord) : DWord :=
  if e.qw then BitVec.ofNat 64 (v.toNat % 2 ^ 32 + (5 * 2 ^ 15 + 2 ^ 18) * 2 ^ 32) else v

/-- What the commit mover commits for an output whose buffer word is `v`. -/
def State.outValue (s : State) (e : OutEnt) (v : DWord) : DWord := if e.qw then adjust v ||| s.testBit else v

/-- The safe values of a guest, point by point. -/
def State.safes (s : State) (x : Guest) : List (Nat × DWord) :=
  (x.img.outs.zip x.img.safes).map (fun e => (e.1.point, safeValue e.1 e.2 ||| (if e.1.qw then s.testBit else 0)))

/-- The cell that runs position `p` of a guest (R225). -/
def Guest.cellAt (x : Guest) (p : Nat) : Nat := x.cellList.getD p 0

/-- The outputs of a guest as its buffer words stand. -/
def State.outputs (s : State) (x : Guest) : List (Nat × DWord) :=
  x.img.outs.map (fun e =>
    (e.point, s.outValue e (BitVec.ofNat 64 (ofLe (tblBytes (s.cell (x.cellAt e.cell)).dsram e.ofs 8)))))

/-- Whether a guest pins a line of the point image. -/
def Guest.pins (x : Guest) (l : Nat) : Bool :=
  x.img.outs.any (fun e => e.point / 8 == l) || x.img.inputs.any (fun i => i.points.any (fun p => p / 8 == l))

/-- Every point cache that pins a line counts the update, except that of the block whose commit mover wrote it (R205, R208, R220). -/
def State.updateLine (s : State) (own : Option Nat) (l : Nat) : State :=
  let exbs := (s.guests.filter (fun e => e.2.pins l && own != some e.2.exb)).foldl (fun a e => addNew a e.2.exb) []
  exbs.foldl (fun t n => t.bump (.pcache n) PCACHE.UPDATES) s

/-- A commit of points of block `exb` at absolute tick `t`, all at one instant: what they held before stays visible to the freezes
of the same tick (R207, R208). -/
def State.commitPoints (s : State) (t exb : Nat) (l : List (Nat × DWord)) : State :=
  let old := if s.preCommit.1 = t then s.preCommit.2 else []
  let pre := l.foldl (fun a e => if (Tbl.look e.1 a).isSome then a else Tbl.put e.1 (s.point e.1) a) old
  let s := l.foldl (fun a e => (a.setPoint e.1 e.2).bump .point POINT.COMMIT_WRITES) s
  let s : State := { s with ptNow := (s.ptNow.1, s.ptNow.2 + l.length) }
  let s := (l.foldl (fun a e => addNew a (e.1 / 8)) []).foldl (fun a n => a.updateLine (some exb) n) s
  { s with preCommit := (t, pre) }

/-! ### Stores in DRAM (R240, R442) -/

def State.gstore (s : State) : Nat := s.rd2 (.dramc 0) DRAMC.GSTORE_BASE_LO
/-- Guest g's image store and retained store. -/
def State.imgStore (s : State) (g : Nat) : Nat := s.gstore + (g - 1) * 8388608
def State.retStore (s : State) (g : Nat) : Nat := s.gstore + 2147483648 + (g - 1) * 1048576

/-- Where each retained entry lies in the store: the entries back to back, in map order. -/
def retPlaces (l : List RetEnt) : List (RetEnt × Nat) :=
  (l.foldl (fun a e => (a.1 ++ [(e, a.2)], a.2 + e.len)) ([], 0)).1

/-- Bytes of all retained ranges. -/
def retLen (l : List RetEnt) : Nat := (l.map (fun e => e.len)).foldl (· + ·) 0

/-- Write the part of a data SRAM line that retained ranges cover into the store (R240). -/
def State.retainLine (s : State) (g pos line : Nat) (bytes : List Byte) (l : List RetEnt) : State :=
  (retPlaces l).foldl (fun t e =>
    let lo := max e.1.ofs (64 * line)
    let hi := min (e.1.ofs + e.1.len) (64 * line + 64)
    if e.1.cell = pos ∧ lo < hi then
      t.writeMem (t.retStore g + e.2 + (lo - e.1.ofs)) ((bytes.drop (lo - 64 * line)).take (hi - lo))
    else t) s

/-- Write every retained range from data SRAM: the store takes the image's map (R249, R250). -/
def State.retainAll (s : State) (g : Nat) (x : Guest) : State :=
  (retPlaces x.img.rets).foldl (fun t e =>
    t.writeMem (t.retStore g + e.2) (tblBytes (t.cell (x.cellAt e.1.cell)).dsram e.1.ofs e.1.len)) s

/-! ### Dirty lines (R210) -/

/-- The dirty lines of a guest: data SRAM lines in position order, then exchange lines. -/
def State.dirtyLines (s : State) (x : Guest) : List MLine :=
  (List.range x.cellList.length).flatMap (fun p =>
    let c := s.cell (x.cellAt p)
    (c.dirty.filter (fun e => e.2)).map (fun e => ⟨p, false, e.1, tblBytes c.dsram (64 * e.1) 64⟩)) ++
  (x.xchDirty.filter (fun e => e.2)).map (fun e => ⟨0, true, e.1, tblBytes x.xch (64 * e.1) 64⟩)

/-- Clear a guest's dirty bits. -/
def State.clearDirty (s : State) (g : Nat) (x : Guest) : State :=
  (x.cellList.foldl (fun t c => t.setCell c { t.cell c with dirty := [] }) s).modGuest g (fun y => { y with xchDirty := [] })

/-- Write a mirrored line over the guest's own (R273). -/
def State.putLine (s : State) (g : Nat) (x : Guest) (m : MLine) : State :=
  if m.xch then s.modGuest g (fun y => { y with xch := putBytes y.xch (64 * m.line) m.bytes })
  else
    let c := x.cellAt m.pos
    s.setCell c { s.cell c with dsram := putBytes (s.cell c).dsram (64 * m.line) m.bytes }

/-- Whether a mirrored line differs from the guest's own. -/
def State.lineDiffers (s : State) (x : Guest) (m : MLine) : Bool :=
  (if m.xch then tblBytes x.xch (64 * m.line) 64 else tblBytes (s.cell (x.cellAt m.pos)).dsram (64 * m.line) 64) != m.bytes

/-! ### Loading a guest's cells (R225, R249, R250) -/

/-- Position `p` of a guest as its image loads it: code, DATA sections, zero elsewhere. -/
def loadCell (g p : Nat) (m : Image) : Cell :=
  let code := match m.code.find? (fun e => e.1 == p) with | some e => e.2 | none => []
  let data := (m.data.filter (fun d => d.cell == p)).foldl (fun t d => putBytes t d.target d.bytes) []
  { guest := g, pos := p, isram := putBytes [] 0 code, dsram := data, inLo := (m.area p).1, inHi := (m.area p).2 }

/-- Load every cell of a guest from its image. -/
def State.loadCells (s : State) (g : Nat) (x : Guest) : State :=
  (List.range x.cellList.length).foldl (fun t p => t.setCell (x.cellAt p) (loadCell g p x.img)) s

/-- Whether a stored retained entry serves a new one (R250). -/
def RetEnt.matches (a b : RetEnt) : Bool := a.rid == b.rid && a.kind == b.kind && a.len == b.len

/-- Retained ranges taken from the store by RID (R249, R250), with RET_STS. -/
def State.warmRanges (s : State) (g : Nat) (x : Guest) : State :=
  let places := retPlaces x.storeRets
  let s := x.img.rets.foldl (fun t e =>
    match places.find? (fun q => q.1.matches e) with
    | some q =>
      let c := x.cellAt e.cell
      t.setCell c { t.cell c with dsram := putBytes (t.cell c).dsram e.ofs (t.readMem (t.retStore g + q.2) e.len) }
    | none => t) s
  let mis := (x.img.rets.filter (fun e => !places.any (fun q => q.1.matches e))).length
  let drop := (x.storeRets.filter (fun e => !x.img.rets.any (fun r => r.rid == e.rid))).length
  s.wrn (.exb x.exb) EXB.RET_STS (min mis 65535 * 65536 + min drop 65535)

/-- The guest enters RUNNING by a WARM or COLD restart (R249): cells, exchange area, retained ranges, FIRST. -/
def State.enterRunning (s : State) (g : Nat) (x : Guest) (warm : Bool) : State :=
  let s := s.loadCells g x
  let s := if warm then s.warmRanges g x else s
  s.setGuest g { x with
    st := .running, haltCause := 0, haltC := 0, runPend := none, restart := none, first := true,
    storeFresh := !warm || x.exchanged || x.storeFresh, exchanged := false, progFault := false, fail := 0, safeDue := false, stopReq := false,
    xch := [], xchDirty := [], patched := [], phase := .idle, late := false }

/-! ### Halts and stops -/

/-- A pending patch set of a guest that leaves RUNNING is discarded: PATCH_STS reads E_MODE (R252). -/
def State.dropPatch (s : State) (g : Nat) (x : Guest) : State :=
  match Tbl.look x.exb s.patchPend with
  | some p =>
    if p.guest = g then
      ({ s with patchPend := Tbl.del x.exb s.patchPend } : State).wrn (.exb x.exb) EXB.PATCH_STS (g * 256 + E_MODE)
    else s
  | none => s

/-- Stop a guest's cells: nothing executes on them. -/
def State.stopCells (s : State) (x : Guest) : State :=
  x.cellList.foldl (fun t c => t.setCell c { t.cell c with run := .stopped }) s

/-- CLK_CELL cycles that a guest's cells have counted in the window: to the last END, or as far as they ran (R211, R212). -/
def State.cycles (s : State) (x : Guest) : Nat :=
  x.cellList.foldl (fun a c => max a (if (s.cell c).run = .finished then (s.cell c).endCyc else (s.cell c).cyc)) 0

/-- The cycles counted in the cycle in progress: none before its execute window (R203, R371). -/
def State.counted (s : State) (x : Guest) : Nat := if x.phase = .execute ∨ x.phase = .commit then s.cycles x else 0

/-- The GUEST_HALT record (R212, R371). -/
def State.haltRecord (s : State) (g : Nat) (x : Guest) (cause cycles : Nat) : State :=
  s.emit (.exb x.exb) 0x041 g
    (leBytes 1 cause ++ leBytes 1 x.exb ++ [0, 0] ++ leBytes 4 x.cycC ++ leBytes 6 x.cycS ++ [0, 0] ++ leBytes 8 cycles)

/-- A guest moves to HALTED with a cause (R28, R212, R301): its cells stop, its slot records the cause and the cycle's C, a
record is written, and its safe values are due. A guest that is not RUNNING stays as it is. -/
def State.haltGuest (s : State) (g cause cycles : Nat) : State :=
  match s.guest g with
  | none => s
  | some x =>
    if x.st ≠ .running then s
    else
      let s := (s.stopCells x).dropPatch g x
      let s := s.setGuest g { x with
        st := .halted, haltCause := cause, haltC := x.cycC, safeDue := true, restart := none,
        stopReq := false, staged := [] }
      s.haltRecord g x cause cycles

/-- A RUNNING guest stops as STOP does, with RUN_PEND set for its return (R242, R295): a cycle in progress commits first. -/
def State.stopGuest (s : State) (g : Nat) : State :=
  match s.guest g with
  | none => s
  | some x =>
    if x.st ≠ .running then s
    else if x.phase ≠ .idle then s.setGuest g { x with stopReq := true, runPend := some true }
    else
      let s := (s.stopCells x).dropPatch g x
      s.setGuest g { x with
        st := .stopped, safeDue := true, stopReq := false, restart := none, runPend := some true }

/-- Unload a guest: its cells, lines and stores are freed, its publications stop (R124, R242). (DEDUCED, log 44). -/
def State.unloadGuest (s : State) (g : Nat) : State :=
  match s.guest g with
  | none => s
  | some x =>
    let s := x.cellList.foldl (fun t c => t.setCell c {}) (s.dropPatch g x)
    { s with guests := Tbl.del g s.guests,
             pubs := s.pubs.map (fun e => if e.2.entry.guest = g then (e.1, { e.2 with stopped := true }) else e) }

/-- Numbers of the loaded guests. -/
def State.loaded (s : State) : List Nat := s.guests.map Prod.fst

/-- Unload every guest (R295, R300). -/
def State.unloadAll (s : State) : State := s.loaded.foldl (fun t g => t.unloadGuest g) s

/-- Halt every guest with a cell of a block, as a cell fault (R27, R28). -/
def State.haltBlock (s : State) (exb : Nat) : State :=
  (s.guests.filter (fun e => e.2.exb == exb)).foldl (fun t e => t.haltGuest e.1 4 (t.counted e.2)) s

/-- RUNNING guests that a cell or block fault halts, counted for the CONTAIN record. -/
def State.runningOn (s : State) (exb : Nat) (cell : Option Nat) : List Nat :=
  (s.guests.filter (fun e => e.2.exb == exb && decide (e.2.st = .running) &&
    (match cell with | some c => e.2.mask.testBit c | none => true))).map Prod.fst

end Sys2Proof.Machine
end

