-- ==== Sys2Proof/Machine/Align.lean ====
section
/-! DEFINITION. Sys2Proof/Machine/Align.lean: the placement of samples on the grid, cut-offs, the quality word and the lock states
(R169 to R194). -/
namespace Sys2Proof.Machine

/-! ### Grid instants (R170, R180) -/

/-- DEPTH of an SV context (R171). -/
def StreamDesc.depth (d : StreamDesc) : Nat := d.pointCount / max 1 d.chanN
/-- The stride D in ticks (R170). -/
def StreamDesc.stride (d : StreamDesc) : Nat := 288000 / max 1 d.rate
/-- The smpCnt modulus M (R174). -/
def StreamDesc.modulus (d : StreamDesc) : Nat := if d.rate ≤ 65536 then max 1 d.rate else 65536

/-- T(g) in ns since second 0 (R170). -/
def StreamDesc.tNs (d : StreamDesc) (g : Nat) : Nat :=
  g / max 1 d.rate * 1000000000 + nsOfTick (d.stride * (g % max 1 d.rate))

/-- The highest g with T(g) at or before a time in ns; none before second 0. -/
def StreamDesc.lastAt (d : StreamDesc) (ns : Int) : Option Nat :=
  if ns < 0 then none
  else
    let n := ns.toNat
    some (n / 1000000000 * d.rate + min (tickOfNs (n % 1000000000) / max 1 d.stride) (d.rate - 1))

/-- The highest position whose cut-off lies at or before a clock value (R180): 400 ns before the first grid tick at or after
T(g) + PUB_DELAY + PATH_DLY + FILL_MARGIN. -/
def State.lastCut (s : State) (d : StreamDesc) (clock : Nat) : Option Nat :=
  let t := absTick (clock + 400 * nsU)
  let tick256 : Int := (t / 288000 * 1000000000 + nsOfTick (t % 288000)) * 256
  let delay : Int := ((d.pubDelay + s.rdf .align ALIGN.FILL_MARGIN 15 0) * 256 + d.pathDly : Nat)
  d.lastAt ((tick256 - delay) / 256)

/-! ### The quality word (R183, R184) -/

/-- VAL of a stream's value: 0 good, 1 invalid, 3 questionable. -/
def valOf (srcq auth origin : Nat) (unsync timing : Bool) : Nat :=
  if origin = 2 ∨ origin = 4 ∨ srcq % 4 = 1 ∨ srcq % 4 = 2 then 1
  else if origin = 1 ∨ origin = 3 ∨ auth = 2 ∨ auth = 3 ∨ unsync ∨ timing ∨ srcq % 4 = 3 then 3
  else 0

/-- A quality word. -/
def qualityWord (srcq auth origin : Nat) (unsync timing sim : Bool) : Nat :=
  srcq % 2 ^ 13 + 2 ^ 13 * (auth % 4) + 2 ^ 15 * origin + 2 ^ 18 * valOf srcq auth origin unsync timing +
    2 ^ 20 * b2n unsync + 2 ^ 21 * b2n timing + 2 ^ 22 * b2n sim

/-- A point of a value and a quality word (R172). -/
def qPoint (v q : Nat) : DWord := BitVec.ofNat 64 (v % 2 ^ 32 + 2 ^ 32 * q)

/-! ### Writes (R173, R179) -/

/-- Writes of ALIGN and Porter through POINT's ingress port. -/
def State.ingress (s : State) (l : List (Nat × DWord)) : State :=
  let s := l.foldl (fun t e => t.setPoint e.1 e.2) s
  let s : State := { s with ptNow := (s.ptNow.1 + l.length, s.ptNow.2) }
  let s := s.bumpBy .point POINT.INGRESS_WRITES l.length
  (l.foldl (fun a e => addNew a (e.1 / 8)) []).foldl (fun a n => a.updateLine none n) s

/-- The status point of a context (R173). -/
def State.statusPoint (s : State) (i : Nat) : Nat := (s.rd .align ALIGN.STATUS_BASE).toNat + i

/-- The first point of position `g` (R171). -/
def StreamDesc.slot (d : StreamDesc) (g : Nat) : Nat := d.pointBase + g % max 1 d.depth * d.chanN

/-- The context's alignment state. -/
def State.actx (s : State) (i : Nat) : AlignCtx := (Tbl.look i s.align.ctxs).getD {}
def State.setActx (s : State) (i : Nat) (a : AlignCtx) : State :=
  { s with align := { s.align with ctxs := Tbl.put i a s.align.ctxs } }

/-- Count values of a lane for LANE_VALUES (R193). -/
def State.laneValues (s : State) (i n : Nat) : State :=
  { s with align := { s.align with
      valuesNow := Tbl.set 0 (i % 4) (Tbl.get 0 (i % 4) s.align.valuesNow + n) s.align.valuesNow } }

/-- SIM_SEEN of a context. -/
def State.simSeen (s : State) (i : Nat) : Bool := (Tbl.look i s.porter.ctxs).any (fun e => e.st.simSeen)

/-- The status write of a cut-off: FILLED_G and the quality word of channel 0 at that position. -/
def State.statusWrite (s : State) (i : Nat) (d : StreamDesc) (g : Nat) : State :=
  s.ingress [(s.statusPoint i, BitVec.ofNat 64 (g % 2 ^ 32 + (s.point (d.slot g)).toNat / 2 ^ 32 * 2 ^ 32))]

/-! ### Cut-offs (R180, R181, R186) -/

/-- The substitute of one channel (R181): its value and quality word. -/
def subst (d : StreamDesc) (last : Option Placed) (held sim : Bool) (c : Nat) : DWord :=
  let (v, q) := match last with | some p => p.chans.getD c (0, 0) | none => (0, 0)
  if held then qPoint v (qualityWord q (match last with | some p => p.auth | none => 0) 1 false false sim)
  else
    let w := match d.subst with | 0 => v | 2 => 0x8000_0000 | _ => 0
    qPoint w (qualityWord 0 0 2 false false sim)

/-- Write the substitute of position `g`. -/
def State.fill (s : State) (i : Nat) (d : StreamDesc) (a : AlignCtx) (g : Nat) (held : Bool) : State :=
  (s.ingress ((List.range d.chanN).map (fun c => (d.slot g + c, subst d a.last held (s.simSeen i) c)))).laneValues i d.chanN

/-- A context enters LOST (R186, R194). -/
def State.lostEvent (s : State) (i g : Nat) : State :=
  (s.raise .align 16).emit .align 0x030 0 (leBytes 2 i ++ List.replicate 6 0 ++ leBytes 8 g)

/-- The cut-off of the next position of context `i` (R180, R181, R186). -/
def State.cutOff (s : State) (i : Nat) (d : StreamDesc) : State :=
  let a := s.actx i
  let g := a.next
  match a.ahead.find? (fun p => p.g == g) with
  | some p =>
    (s.setActx i { a with next := g + 1, last := some p, ahead := a.ahead.filter (fun q => q.g != g) }).statusWrite i d g
  | none =>
    let h := a.hold + 1
    let held := decide (d.subst ≠ 3) && decide (h ≤ d.holdMax) && decide (a.state ≠ 3)
    let st := if held then 2 else 3
    let s := s.fill i d a g held
    let s := s.setActx i { a with next := g + 1, hold := h, state := st, subst := satAdd 0xFFFF_FFFF a.subst 1 }
    let s := (s.bump .align ALIGN.SUBST).statusWrite i d g
    if st = 3 ∧ a.state ≠ 3 then s.lostEvent i g else s

/-- Cut-offs of context `i` up to position `g`, oldest first; `n` bounds them. -/
def State.cutOffs (s : State) (i : Nat) (d : StreamDesc) (g : Nat) : Nat → State
  | 0 => s
  | n + 1 => if g < (s.actx i).next then s else State.cutOffs (s.cutOff i d) i d g n

/-- Pass over positions before `g` without writing them: a placed sample among them still becomes the last one. -/
def AlignCtx.skipTo (a : AlignCtx) (g : Nat) : AlignCtx :=
  { a with
    next := g, ahead := a.ahead.filter (fun p => decide (g ≤ p.g)),
    last := (a.ahead.filter (fun p => decide (p.g < g))).foldl
      (fun l p => match l with | some q => if q.g < p.g then some p else l | none => some p) a.last }

/-- CUT_OFF (R180): the cut-off of the next position of SV context `i`, once its instant is reached (R190). A context that has placed
no sample since it entered IDLE has none. -/
def execCutOff (i : Nat) (s : State) : Result :=
  match Tbl.look i s.porter.ctxs with
  | some e =>
    if e.d.cls = 0 ∧ (s.actx i).state ≠ 0 ∧ (s.lastCut e.d s.time.clock).any (fun g => decide ((s.actx i).next ≤ g)) then
      done s (s.cutOff i e.d)
    else .next s
  | none => .next s

/-! ### Placing a sample (R174 to R178, R186) -/

/-- The candidate numbers of a counter value about a second (R174): (second, number within the second). -/
def StreamDesc.candidates (d : StreamDesc) (sec : Int) (cnt : Nat) : List (Int × Nat) :=
  [sec - 1, sec, sec + 1].flatMap (fun t =>
    (List.range (ceilDiv (d.rate - cnt) d.modulus)).map (fun j => (t, cnt + j * d.modulus)))

/-- The instant of a candidate in 1/256 ns since second 0. -/
def StreamDesc.instant (d : StreamDesc) (c : Int × Nat) : Int :=
  (c.1 * 1000000000 + ((nsOfTick (d.stride * c.2) : Nat) : Int)) * 256

/-- The candidate nearest an instant; ties go to the earlier, which stands first in the list (R174). -/
def StreamDesc.nearest (d : StreamDesc) (est : Int) : List (Int × Nat) → Option (Int × Nat)
  | [] => none
  | c :: t => some (t.foldl (fun b x => if (est - d.instant x).natAbs < (est - d.instant b).natAbs then x else b) c)

/-- The global number of a candidate (R170). -/
def StreamDesc.number (d : StreamDesc) (c : Int × Nat) : Nat := unsigned 48 c.1 * d.rate + c.2

/-- The number whose instant lies nearest, whatever the counter (R175). -/
def StreamDesc.nearestAny (d : StreamDesc) (est : Int) : Int × Nat :=
  let sec := est / 256000000000
  let ns := (est % 256000000000).toNat / 256
  let k := min (tickOfNs ns / max 1 d.stride) (d.rate - 1)
  let l := (if k = 0 then [(sec - 1, d.rate - 1)] else [(sec, k - 1)]) ++ [(sec, k)] ++
    (if k + 1 < d.rate then [(sec, k + 1)] else [(sec + 1, 0)])
  (d.nearest est l).getD (sec, k)

/-- The instant of a global number on the time line near an estimate, in 1/256 ns: its second taken nearest the estimate's
modulo 2^48 (R85). -/
def StreamDesc.instantOf (d : StreamDesc) (est : Int) (g : Nat) : Int :=
  let sec := est / 256000000000
  let ds := sDiff (g / max 1 d.rate) (unsigned 48 sec)
  d.instant (sec + ds, g % max 1 d.rate)

/-- What a sample names (R174, R175): its number, its residual in 1/256 ns, the new free-running count and offset, and whether
the offset was chosen anew. `fresh` asks for a new offset. -/
def State.locate (s : State) (d : StreamDesc) (a : AlignCtx) (x : LaneAsdu) (fresh : Bool) : Nat × Int × Nat × Int × Bool :=
  let est : Int := (x.stamp : Int) * 64 - ((d.pubDelay * 256 + d.pathDly : Nat) : Int)
  if x.asdu.smpSynch ≠ 0 then
    let c := (d.nearest est (d.candidates (est / 256000000000) x.asdu.smpCnt)).getD (0, 0)
    (d.number c, est - d.instant c, a.n, a.ofs, false)
  else
    let n := if fresh then a.n else a.n + (x.asdu.smpCnt + d.modulus - a.lastCnt % d.modulus) % d.modulus
    let g := unsigned 64 ((n : Int) + a.ofs)
    let e := est - d.instantOf est g
    let tol : Int := (s.rdf .align ALIGN.LOCK_TOL 19 0 * 256 : Nat)
    if fresh ∨ (x.gen = s.time.stepGen ∧ tol < (e.natAbs : Int)) then
      let c := d.nearestAny est
      (d.number c, est - d.instant c, n, (d.number c : Int) - n, true)
    else (g, e, n, a.ofs, false)

/-- A relock (R175, R186, R194): RELOCK_LEFT becomes 4 and the relock is counted and reported. (DEDUCED, log 56). -/
def State.relockEvent (s : State) (i g : Nat) : State :=
  let a := s.actx i
  let s := s.setActx i { a with relockLeft := 4, relocks := satAdd 0xFFFF_FFFF a.relocks 1 }
  ((s.bump .align ALIGN.RELOCKS).raise .align 17).emit .align 0x031 0 (leBytes 2 i ++ List.replicate 6 0 ++ leBytes 8 g)

/-- Write a placed sample and what it changes (R176, R183, R186). -/
def State.putSample (s : State) (i : Nat) (d : StreamDesc) (x : LaneAsdu) (g : Nat) (e : Int) : State :=
  let a := s.actx i
  let free := decide (x.asdu.smpSynch = 0)
  let tol := s.rdf .align ALIGN.LOCK_TOL 19 0 * 256
  let timing := !free && x.gen == s.time.stepGen && decide (tol < e.natAbs)
  let pts := (List.range d.chanN).map (fun c =>
    let v := x.asdu.chans.getD c (0, 0)
    (d.slot g + c, qPoint v.1 (qualityWord v.2 x.auth (if 0 < a.relockLeft then 3 else 0) free timing (s.simSeen i))))
  let s := (s.ingress pts).laneValues i d.chanN
  let s := s.setActx i { a with
    state := 1, free := free, hold := 0, relockLeft := a.relockLeft - 1, relockPend := false, lastCnt := x.asdu.smpCnt,
    ahead := a.ahead ++ [⟨g, x.auth, x.asdu.chans⟩],
    resid := max (-2147483648) (min 2147483647 e),
    timing := if timing then satAdd 0xFFFF_FFFF a.timing 1 else a.timing }
  if timing then (s.bump .align ALIGN.TIMING).raise .align 18 else s

/-- A sample that is discarded and counted (R178). -/
def State.lateSample (s : State) (i : Nat) : State :=
  let a := s.actx i
  ((s.setActx i { a with late := satAdd 0xFFFF_FFFF a.late 1 }).bump .align ALIGN.LATE).raise .align 19
def State.earlySample (s : State) (i : Nat) : State :=
  let a := s.actx i
  (s.setActx i { a with early := satAdd 0xFFFF_FFFF a.early 1 }).bump .align ALIGN.EARLY
def State.dupSample (s : State) (i : Nat) : State :=
  let a := s.actx i
  (s.setActx i { a with dup := satAdd 0xFFFF_FFFF a.dup 1 }).bump .align ALIGN.DUP

/-- Fill the positions before `g` as substituted, at most the last DEPTH of them, and let FILLED_G be g − 1 (R186).
(DEDUCED, log 56). -/
def State.fillTo (s : State) (i : Nat) (d : StreamDesc) (g : Nat) : State :=
  let a := s.actx i
  if g ≤ a.next then s
  else
    let lo := max a.next (g - d.depth)
    let s := (List.range (g - lo)).foldl (fun t j =>
      let p := lo + j
      if a.ahead.any (fun q => q.g == p) then t else t.fill i d { a with last := (a.skipTo p).last } p false) s
    (s.setActx i (a.skipTo g)).statusWrite i d (g - 1)

/-- Place one ASDU of SV context `i` (R174 to R178, R186, R190). A change of method is handled as the sample of LOST; a
free-running relock counts whether or not the window then takes the sample. -/
def State.placeSample (s : State) (i : Nat) (d : StreamDesc) (x : LaneAsdu) : State :=
  let a := s.actx i
  let free := decide (x.asdu.smpSynch = 0)
  let changed := decide (a.state ≠ 0) && a.free != free
  let st := if changed then 3 else a.state
  let fresh := free && (st == 0 || changed || a.relockPend)
  let (g, e, n, ofs, chosen) := s.locate d a x fresh
  let keep := fun (t : State) => t.setActx i { t.actx i with n := n, ofs := ofs, lastCnt := x.asdu.smpCnt, free := free }
  if st = 0 then
    let t := s.setActx i { a with n := n, ofs := ofs, next := g, ahead := [], last := none, relockLeft := 4 }
    (if a.relockPend then t.relockEvent i g else t).putSample i d x g e
  else if st = 3 then
    if g < a.next then
      let t := if a.state = 3 then s else (s.setActx i { a with state := 3 }).lostEvent i (a.next - 1)
      (keep t).lateSample i
    else if a.ahead.any (fun p => p.g == g) then (keep s).dupSample i
    else (((keep s).fillTo i d g).relockEvent i g).putSample i d x g e
  else
    let t := if free ∧ chosen ∧ ¬ fresh then (keep s).relockEvent i g else keep s
    if g < a.next then t.lateSample i
    else if a.next + d.depth / 2 ≤ g then t.earlySample i
    else if a.ahead.any (fun p => p.g == g) then t.dupSample i
    else (if a.relockPend then t.relockEvent i g else t).putSample i d x g e

/-- ALIGN_CTL.EN and the buffer of R189 decide whether an ASDU enters its lane. -/
def State.laneIn (s : State) (x : LaneAsdu) : State :=
  let l := x.ctx % 4
  let q := Tbl.get [] l s.align.lanes
  if ¬ bit (s.rd .align ALIGN.ALIGN_CTL) 0 then s.bump .align ALIGN.DISABLED_DROP
  else if 65536 < laneDepth q + x.asdu.chans.length then
    ((s.bump .align (win l ALIGNW.LANE_FULL)).raise .align 20).raiseCell .align l 0
  else
    let q := q ++ [x]
    let s : State := { s with align := { s.align with lanes := Tbl.put l q s.align.lanes } }
    if (s.rd .align (win l ALIGNW.LANE_PEAK)).toNat < laneDepth q then s.wrn .align (win l ALIGNW.LANE_PEAK) (laneDepth q) else s

/-- A change of descriptor that restarts an SV context (R186). -/
def StreamDesc.restarts (old new : StreamDesc) : Bool :=
  old.cls != new.cls || old.rate != new.rate || old.chanN != new.chanN || old.pointBase != new.pointBase ||
    old.pointCount != new.pointCount

/-- ASDU_PLACE (R169, R174): lane `l` takes the oldest ASDU from its buffer and places it under the descriptor its frame met (R136); one
whose context has restarted since is discarded and counted, as those in the buffer at the restart are (R191). A lane out of service takes
none (R30). (DEDUCED, log 57). -/
def execAsduPlace (l : Nat) (s : State) : Result :=
  if s.quarantined .align l then .next s else
  match Tbl.get [] l s.align.lanes with
  | [] => .next s
  | x :: rest =>
    let t : State := { s with align := { s.align with lanes := Tbl.set [] l rest s.align.lanes } }
    match Tbl.look x.ctx s.porter.ctxs with
    | some e =>
      if e.d.cls ≠ 0 ∨ x.d.restarts e.d then .next (t.bump .porter PORTER.REMOVED_INFLIGHT) else done s (t.placeSample x.ctx x.d x)
    | none => .next t

/-! ### Creation, change, removal, steps (R190, R191) -/

/-- Discard a context's ASDUs in its lane's buffer, counted in REMOVED_INFLIGHT. -/
def State.laneFlush (s : State) (i : Nat) : State :=
  let q := Tbl.get [] (i % 4) s.align.lanes
  let out := (q.filter (fun x => x.ctx == i)).length
  ({ s with align := { s.align with lanes := Tbl.set [] (i % 4) (q.filter (fun x => x.ctx != i)) s.align.lanes } } :
    State).bumpBy .porter PORTER.REMOVED_INFLIGHT out

/-- The quality word of a context of ORIGIN expired and VAL invalid, with its SIM (R183). -/
def State.expiredWord (s : State) (i : Nat) : Nat := qualityWord 0 0 4 false false (s.simSeen i)

/-- A context is created (R191): its span and status point are written, its alignment state starts anew. -/
def State.alignCreate (s : State) (i : Nat) (d : StreamDesc) : State :=
  let v : DWord := if d.cls = 0 then qPoint 0 (s.expiredWord i) else 0
  let s := s.ingress (((List.range d.pointCount).map (fun k => (d.pointBase + k, v))) ++ [(s.statusPoint i, qPoint 0 (s.expiredWord i))])
  if d.cls = 0 then s.setActx i {} else { s with align := { s.align with ctxs := Tbl.del i s.align.ctxs } }

/-- A context is removed (R191). -/
def State.alignRemove (s : State) (i : Nat) : State :=
  let old := (s.point (s.statusPoint i)).toNat % 2 ^ 32
  let s := (s.laneFlush i).ingress [(s.statusPoint i, qPoint old (s.expiredWord i))]
  { s with align := { s.align with ctxs := Tbl.del i s.align.ctxs } }

/-- An accepted change of a context (R186, R191): a restart of an SV context, or cut-offs that moved earlier at once.
(DEDUCED, log 57). -/
def State.alignChange (s : State) (i : Nat) (old new : StreamDesc) : State :=
  if old.cls = 1 ∧ new.cls = 1 then s
  else if old.restarts new then (s.laneFlush i).alignCreate i new
  else if (s.actx i).state ≠ 0 then
    match s.lastCut new s.time.clock, s.lastCut old s.time.clock with
    | some g, some h => if h < g then s.cutOffs i new g (g - h) else s
    | some g, none => s.cutOffs i new g (g + 1 - (s.actx i).next)
    | none, _ => s
  else s

/-- What an applied step does to context `i` (R190): the cut-offs it passed are made at once, those before the last DEPTH of them
without a write; the next placed sample relocks. -/
def State.alignStep1 (s : State) (i : Nat) (d : StreamDesc) : State :=
  let s := if (s.actx i).state = 0 then s
    else match s.lastCut d s.time.clock with
    | some g =>
      let a := s.actx i
      if a.next + d.depth < g + 1 then
        let o := g + 1 - d.depth
        let held := (a.ahead.filter (fun p => decide (p.g < o))).length
        let s := (s.setActx i { a.skipTo o with hold := a.hold + (o - a.next - held) }).cutOffs i d g (d.depth + 1)
        if (s.actx i).state = 3 then s else (s.setActx i { s.actx i with state := 3 }).lostEvent i g
      else s.cutOffs i d g (d.depth + 1)
    | none => s
  s.setActx i { s.actx i with relockPend := true }

/-- An applied step acts on every SV context (R190). -/
def State.alignStep (s : State) : State :=
  s.porter.ctxs.foldl (fun t e => if e.2.d.cls = 0 then t.alignStep1 e.1 e.2.d else t) s

/-! ### Registers (R192) -/

/-- CTX_SEL (R192): a context that is not valid has nothing to latch. -/
def ctxSelRule : Rule where
  check := fun s _ v => if (Tbl.look (fld v 11 0) s.porter.ctxs).isSome then none else some E_ORPHAN
  apply := fun s _ v =>
    let i := fld v 11 0
    let a := s.actx i
    let goose := (Tbl.look i s.porter.ctxs).any (fun e => decide (e.d.cls = 1))
    let s := s.wrn .align ALIGN.CTX_STATE (2 ^ 16 * a.relockLeft + 256 * min a.hold 255 + 16 * b2n a.relockPend +
      8 * b2n (a.free && decide (a.state ≠ 0)) + (if goose then 4 else a.state))
    let s := s.wr2 .align ALIGN.CTX_FILLED_LO (if a.state = 0 then 0 else (a.next + 2 ^ 64 - 1) % 2 ^ 64)
    let s := (s.wrn .align ALIGN.CTX_RESID (unsigned 32 a.resid)).wrn .align ALIGN.CTX_LATE a.late
    let s := (s.wrn .align ALIGN.CTX_EARLY a.early).wrn .align ALIGN.CTX_DUP a.dup
    let s := (s.wrn .align ALIGN.CTX_TIMING a.timing).wrn .align ALIGN.CTX_SUBST a.subst
    s.wrn .align ALIGN.CTX_RELOCKS a.relocks

/-- CTX_SEL (R192): a write of CTX_SEL latches the selected context's state. -/
def execCtxSel (src : Src) (w : Word) (s : State) : Result := done s (s.writeReg ctxSelRule src .align ALIGN.CTX_SEL w)

/-- STATUS_BASE, LOCK_TOL, FILL_MARGIN (R192). -/
def statusBaseRule : Rule where
  legal := fun _ _ v => if v % 4096 ≠ 0 then [(0, E_ALIGN)] else []
  check := fun s _ _ => if s.porter.ctxs = [] then none else some E_CONFLICT
def lockTolRule : Rule where
  legal := fun _ _ v => if fld v 19 0 < 100 ∨ 1000000 < fld v 19 0 then [(0, E_RANGE)] else []
def fillMarginRule : Rule where
  legal := fun _ _ v => if fld v 15 0 < 1000 then [(0, E_RANGE)] else []

end Sys2Proof.Machine
end

