-- ==== Sys2Proof/Machine/Acq.lean ====
section
/-! DEFINITION. Sys2Proof/Machine/Acq.lean: the acquisition units (R421 to R435): stored words and blocks, triggers, capture, the
record in its segment, front arrival, and the commands of ACQ. -/
namespace Sys2Proof.Machine

/-- Change the analog die's state. -/
def State.modAna (s : State) (f : AnalogSt → AnalogSt) : State := { s with analog := f s.analog }

/-- 1 µs of local time. -/
def usU : Nat := 1000 * nsU

/-- A register of unit `u`'s window. -/
abbrev auWin (u o : Nat) : Nat := win u o
def State.au (s : State) (u o : Nat) : Word := s.rd .acq (auWin u o)

def State.setUnit (s : State) (u : Nat) (x : AcqUnit) : State :=
  s.modAna (fun a => { a with acq := Tbl.set {} u x a.acq })

/-- Round a/d to nearest, ties towards +∞ (R402, R412). -/
def roundDiv (a d : Int) : Int := if d < 0 then (2 * -a + -d) / (2 * -d) else (2 * a + d) / (2 * d)

/-- The instant midway between two instants, the first not after the second, truncated to 0.25 ns (R413, R423). -/
def midway (a b : Nat) : Nat := (((a : Int) + qDiff b a / 2) % ((2 ^ 48 * 4000000000 : Nat) : Int)).toNat

/-- EFF in force (R422): AVG × RED. -/
def State.eff (s : State) (u : Nat) : Nat := max 1 (bits (s.au u ACQW.AU_AVG) 8 0) * (s.unit u).red
/-- PRE and POST. -/
def State.pre (s : State) (u : Nat) : Nat := bits (s.au u ACQW.AU_PRE) 27 0
def State.post (s : State) (u : Nat) : Nat := bits (s.au u ACQW.AU_POST) 27 0

/-- Block units and words that a segment of `n` × 4 KiB holds (R421). -/
def segUnits (n : Nat) : Nat := (n * 4096 - 64) / 96
def segCap (n : Nat) : Nat := 16 * segUnits n

/-- DRAM address of a segment of unit `u` (R421). -/
def State.segBase (s : State) (u seg : Nat) : Nat :=
  s.rd2 .acq ACQ.ACQ_WIN_BASE_LO + 4096 * (bits (s.au u ACQW.AU_BUF_OFS) 17 0 + seg * bits (s.au u ACQW.AU_SEG_LEN) 17 0)

/-- Nominal spacing of a source's samples in 0.25 ns (R390, R412). -/
def State.srcPeriod (s : State) : Nat → Nat → Nat
  | 0, _ => 0
  | f + 1, src =>
    if src < 2 then 40
    else if src < 6 then 20 * bits (s.rd .adc (win (src - 2) ADCW.CORE_CFG)) 31 16
    else State.srcPeriod s f (bits (s.rd .filt (win (src - 16) FILTW.FC_CFG)) 12 8) *
      bits (s.rd .filt (win (src - 16) FILTW.FC_DEC)) 12 0

/-! ### Counting words -/

def AcqBlk.count (b : AcqBlk) : Nat := b.words.length
/-- Words of a list of blocks. -/
def wordsIn (l : List AcqBlk) : Nat := (l.map AcqBlk.count).foldl (· + ·) 0
/-- Words of a block before, and from, an ordinal on. -/
def AcqBlk.before (b : AcqBlk) (o : Nat) : Nat := min b.count (o - b.no)
def AcqBlk.fromOn (b : AcqBlk) (o : Nat) : Nat := b.count - b.before o
def wordsBefore (o : Nat) (l : List AcqBlk) : Nat := (l.map (fun b => b.before o)).foldl (· + ·) 0
def wordsFrom (o : Nat) (l : List AcqBlk) : Nat := (l.map (fun b => b.fromOn o)).foldl (· + ·) 0

/-- Drop the oldest blocks that are not needed for `pre` words before ordinal `o`. -/
def keepPre (o pre : Nat) : List AcqBlk → List AcqBlk
  | [] => []
  | b :: t => if pre ≤ wordsBefore o t ∧ b.fromOn o = 0 then keepPre o pre t else b :: t

/-- Drop the oldest blocks beyond the newest `n` words. -/
def keepNewest (n : Nat) : List AcqBlk → List AcqBlk
  | [] => []
  | b :: t => if n ≤ wordsIn t then keepNewest n t else b :: t

/-- The blocks an armed segment goes on holding: those of the newest PRE words, with the 32 words of margin that R434 leaves in
a segment, in at most the segment's units less the one being filled (R427). -/
def AcqRec.trim (r : AcqRec) (pre : Nat) : AcqRec :=
  let l := match r.trig with
    | some ⟨_, _, some o, _, _⟩ => keepPre o pre r.blocks
    | _ => keepNewest (pre + 32) r.blocks
  match r.trig with
  | some ⟨_, _, some _, _, _⟩ => { r with blocks := l }
  | _ => { r with blocks := l.drop (l.length - (r.units - 1)) }

/-! ### Bytes of a record (R398, R423, R424) -/

/-- A stamp (R398). -/
def stampBytes (t stream gen : Nat) (start : Bool) (count index : Nat) : List Byte :=
  leBytes 4 (qWord t) ++ leBytes 6 (qS t) ++ leBytes 1 stream ++ leBytes 1 (gen % 4 + 4 * b2n start + 8 * (count - 1)) ++
    leBytes 4 (index % 2 ^ 32)

/-- PERIOD of a block in 0.25 ns: the spacing of its first two words, the nominal spacing for a block of one word. -/
def AcqBlk.period (b : AcqBlk) (nominal : Nat) : Nat :=
  match b.words with
  | x :: y :: _ => (qDiff y.t x.t).toNat
  | _ => nominal * b.eff

/-- A block unit as DRAM holds it (R423): `trig` is the trigger word's ordinal when known, `seq` its BSEQ. -/
def AcqBlk.bytes (b : AcqBlk) (src nominal : Nat) (trig : Option Nat) (seq : Nat) : List Byte :=
  let holds := match trig with | some o => decide (b.no ≤ o) && decide (o < b.no + b.count) | none => false
  let pre := match trig with | some o => decide (b.no + b.count ≤ o) | none => true
  let pos := match trig with | some o => if holds then o - b.no else 0 | none => 0
  stampBytes ((b.words.head?.map AcqWord.t).getD 0) src b.gen b.start b.count b.index ++
    leBytes 2 b.eff ++ leBytes 1 b.count ++ leBytes 1 (b2n pre + 2 * b2n holds + 4 * b2n b.retrig + 8 * b2n b.red) ++
    leBytes 1 pos ++ leBytes 3 0 ++ leBytes 4 (b.period nominal * 64) ++ leBytes 4 seq ++
    (b.words.map (fun w => leBytes 4 w.w)).flatten ++ List.replicate (4 * (16 - b.count)) 0

/-- SETTLE, SUPPLY and CLIP of a stored word: an ADC word or a filter word (R397, R414). -/
def wordFlags (adc : Bool) (w : Nat) : Bool × Bool × Bool :=
  if adc then (w.testBit 16, w.testBit 17, w.testBit 18) else (w.testBit 24, w.testBit 27, w.testBit 28)

/-- CODE of an ADC word. -/
def codeOf (w : Nat) : Int := signed 16 w

/-- The first crossing of the level in a list of words (R429): the instant of word i, z(i) and z(i+1), where z is the word's
distance from the level times `d`, and `n` is `d` times the level. -/
def crossing (d n : Int) : List AcqWord → Option (Nat × Int × Int)
  | a :: b :: t =>
    let x := d * codeOf a.w - n
    let y := d * codeOf b.w - n
    if x * y < 0 ∨ y = 0 then some (a.t, x, y) else crossing d n (b :: t)
  | _ => none

/-- The front's arrival in 0.25 ns (R429), on a record without a step: `at_` is the index of the trigger word in the record's
words, `w` the plateau distance. -/
def arrival (bs : List AcqBlk) (at_ pre w : Nat) : Option Nat :=
  let words := bs.flatMap (fun b => b.words.map (fun x => (x, b.eff)))
  let span := (words.drop (at_ - 16)).take (min at_ 16 + w + 1)
  let base := (words.drop (at_ - min 64 pre)).take (min 64 pre)
  match words[at_ + w]? with
  | none => none
  | some p =>
    if pre = 0 ∨ span.any (fun x => x.2 != 1 || (wordFlags true x.1.w).1 || (wordFlags true x.1.w).2.2) then none
    else
      let nb : Int := (base.length : Nat)
      let sb := (base.map (fun x => codeOf x.1.w)).foldl (· + ·) 0
      let pc := codeOf p.1.w
      if (pc * nb - sb).natAbs < 256 * nb.natAbs then none
      else match crossing (2 * nb) (sb + pc * nb) (span.map Prod.fst) with
        | none => none
        | some (t, x, y) => some (t + 40 * x.natAbs / (y - x).natAbs)

/-! ### Blocks and the FIFO (R422, R423, R425) -/

/-- A change of RED: RATE and its record (R425, R435). (DEDUCED, log 114). -/
def State.setRed (s : State) (u red : Nat) : State :=
  let x := s.unit u
  let s := (s.setUnit u { x with red := red, halve := false, lowAt := s.time.elapsed }).raise .acq 18
  s.emitAt .acq u 0x093 0 ([BitVec.ofNat 8 u, BitVec.ofNat 8 red, 0, 0] ++ leBytes 4 x.fifo.length)

/-- Close the block being filled: it goes to the FIFO, or is dropped when the FIFO is full (R425). -/
def State.pushBlk (s : State) (u : Nat) : State :=
  let x := s.unit u
  match x.cur, x.rec_ with
  | some b, some r =>
    if 256 ≤ x.fifo.length then
      ((s.setUnit u { x with cur := none, rec_ := some { r with lost := true } }).bump .acq (auWin u ACQW.AU_FIFO_DROP)).raise
        .acq 19
    else
      let b := { b with bseq := r.next, gap := r.lost }
      let r := { r with blocks := r.blocks ++ [b], next := r.next + 1, lost := false }
      let fifo := x.fifo ++ [(r.base, b.bseq % max 1 r.units, b)]
      let s := s.setUnit u { x with cur := none, rec_ := some (r.trim (s.pre u)), fifo := fifo }
      if (s.au u ACQW.AU_FIFO_PEAK).toNat < fifo.length then s.wrn .acq (auWin u ACQW.AU_FIFO_PEAK) fifo.length else s
  | _, _ => s.setUnit u { x with cur := none }

/-- The record in progress ends (R427): its blocks wait for the FIFO, and the unit goes to ARMING or, when it is off, IDLE. -/
def State.endRecord (s : State) (u next : Nat) : State :=
  let s := s.pushBlk u
  let x := s.unit u
  match x.rec_ with
  | none => s.setUnit u { x with state := next }
  | some r =>
    let last := (r.blocks.getLast?.bind (fun b => b.words.getLast?)).map AcqWord.t
    s.setUnit u { x with
      state := next, rec_ := none, acc := [], closing := x.closing ++ [r],
      prevLast := match last with | some t => some t | none => x.prevLast }

/-- Words stored from the trigger word on, in the record in progress. -/
def AcqUnit.postCount (x : AcqUnit) : Nat :=
  match x.rec_ with
  | some r => (match r.trig with
    | some ⟨_, _, some o, _, _⟩ => wordsFrom o (r.blocks ++ x.cur.toList)
    | _ => 0)
  | none => 0

/-- End the record when it is complete, or its segment's ring is full (R427). -/
def State.checkEnd (s : State) (u : Nat) : State :=
  let x := s.unit u
  if x.state ≠ 3 then s
  else if (x.rec_.bind AcqRec.trig).any (fun t => t.word.isSome) ∧ s.post u ≤ x.postCount then s.endRecord u 1
  else if x.cur.isNone ∧ x.rec_.any (fun r => decide (r.units ≤ r.blocks.length)) then s.endRecord u 1
  else s

/-- A stored-block boundary: the block closes, RED moves where R425 asks, and the record may end. -/
def State.closeBlk (s : State) (u : Nat) : State :=
  if (s.unit u).cur.isNone then s
  else
    let s := s.pushBlk u
    let x := s.unit u
    let s := if 192 ≤ x.fifo.length ∧ x.red < 64 then s.setRed u (2 * x.red)
      else if x.halve ∧ 1 < x.red then s.setRed u (x.red / 2) else s
    s.checkEnd u

/-- Take the trigger word where it has come (R427): the first stored word whose interval ends at or after the instant. -/
def findWord (t : Nat) (l : List AcqBlk) : Option Nat :=
  (l.flatMap (fun b => (List.range b.count).map (fun i => (b.no + i, (b.words[i]?.map AcqWord.t1).getD 0)))).find?
    (fun e => decide (0 ≤ qDiff e.2 t)) |>.map Prod.fst

/-- Look for the trigger word among the words held. -/
def State.seekWord (s : State) (u : Nat) : State :=
  let x := s.unit u
  match x.rec_ with
  | some r => (match r.trig with
    | some t =>
      if t.word.isSome then s
      else
        let w := findWord t.t (r.blocks ++ x.cur.toList)
        s.setUnit u { x with rec_ := some (({ r with trig := some { t with word := w } } : AcqRec).trim (s.pre u)) }
    | none => s)
  | none => s

/-- Store one word (R422, R423). -/
def State.storeWord (s : State) (u : Nat) (w : AcqWord) (x0 : FSample) (stepped : Bool) : State :=
  let x := s.unit u
  match x.rec_ with
  | none => s
  | some r =>
    let eff := s.eff u
    let b := match x.cur with
      | some b => { b with words := b.words ++ [w] }
      | none =>
        { bseq := r.next, no := r.no, eff := eff, red := decide (1 < x.red), gen := x0.gen, start := x0.start,
          index := x0.index, words := [w], retrig := false, stepped := stepped, gap := false }
    let s := (s.setUnit u { x with cur := some b, rec_ := some { r with no := r.no + 1 } }).seekWord u
    if 16 ≤ b.count then s.closeBlk u else s.checkEnd u

/-- A source sample reaches unit `u` (R422): an interval that a START or a step cuts is dropped, and the block closes there. -/
def State.acqSample (s : State) (u : Nat) (y : FSample) : State :=
  let x := s.unit u
  let step := x.lastGen.any (fun g => g != y.gen)
  let s := s.setUnit u { x with lastGen := some y.gen }
  if x.state ≠ 2 ∧ x.state ≠ 3 then s
  else
    let s := if y.start ∨ step then
        let s := if x.acc ≠ [] then (s.setUnit u { s.unit u with acc := [] }).bump .acq (auWin u ACQW.AU_AVG_DROP) else s
        s.closeBlk u
      else s
    let x := s.unit u
    if x.state ≠ 2 ∧ x.state ≠ 3 then s
    else
      let eff := s.eff u
      let acc := y :: x.acc
      if acc.length < eff then s.setUnit u { x with acc := acc }
      else
        let s := s.setUnit u { x with acc := [] }
        let x0 := acc.getLastD y
        let w : AcqWord :=
          if eff = 1 then ⟨y.word, y.t, y.t, y.t⟩
          else
            let sum := (acc.map FSample.x).foldl (· + ·) 0
            let fl := (acc.map FSample.flags).foldl (· ||| ·) 0
            ⟨unsigned 24 (roundDiv sum eff) + fl * 2 ^ 24, midway x0.t y.t, x0.t, y.t⟩
        s.storeWord u w x0 step

/-- Unit `u` captures a source. -/
def State.acqTakes (s : State) (u src : Nat) : Bool :=
  s.working .acq && !s.quarantined .acq u && bit (s.au u ACQW.AU_CFG) 0 && decide (bits (s.au u ACQW.AU_CFG) 12 8 = src)

/-- The source's stream ends (R422, R427): the interval in progress is dropped and a capture ends. -/
def State.acqSrcEnd (s : State) (u : Nat) : State :=
  let x := s.unit u
  if x.state ≠ 2 ∧ x.state ≠ 3 then s
  else
    let s := if x.acc ≠ [] then (s.setUnit u { x with acc := [] }).bump .acq (auWin u ACQW.AU_AVG_DROP) else s
    if x.state = 3 then s.endRecord u 1 else s

/-- Every unit that captures a source loses it. -/
def State.acqLose (s : State) (src : Nat) : State :=
  (List.range 4).foldl (fun t u => if t.acqTakes u src then t.acqSrcEnd u else t) s

/-! ### Triggers (R426, R427) -/

/-- A record stamped with an instant of its own (R427). -/
def State.emitStamped (s : State) (p : Page) (cell code ts : Nat) (payload : List Byte) : State :=
  s.emitOrdinary p ⟨code, 0, sourceOf p cell, ts, s.time.stepGen, pad16 payload, 0⟩

/-- A trigger at an instant reaches unit `u`; an accepted one reaches the units that follow it (TSRC 4). `n` bounds the chain.
(DEDUCED, log 103). -/
def State.acqTrig (s : State) (t : Nat) : Nat → Nat → State
  | 0, _ => s
  | n + 1, u =>
    let x := s.unit u
    if ¬ s.working .acq ∨ s.quarantined .acq u ∨ x.state = 0 ∨ x.lastTrig.any (fun l => l / 20 == t / 20) then s
    else
      let tsrc := bits (s.au u ACQW.AU_TRIG) 2 0
      let x := { x with lastTrig := some t }
      match x.state, x.rec_ with
      | 2, some r =>
        let s := s.setUnit u { x with state := 3, rec_ := some { r with trig := some { t := t, gen := s.time.stepGen } } }
        let s := (s.seekWord u).checkEnd u
        (List.range 4).foldl (fun a v =>
          let w := a.au v ACQW.AU_TRIG
          if v ≠ u ∧ bit (a.au v ACQW.AU_CFG) 0 ∧ bits w 2 0 = 4 ∧ bits w 12 8 = u then State.acqTrig a t n v else a) s
      | 3, some r =>
        let r := { r with trig := r.trig.map (fun g =>
          { g with retrigs := satAdd 0xFFFF g.retrigs 1, rt := match g.rt with | some y => some y | none => some t }) }
        let cur := x.cur.map (fun b => { b with retrig := true })
        (s.setUnit u { x with rec_ := some r, cur := cur }).bump .acq (auWin u ACQW.AU_RETRIGS)
      | _, _ =>
        let s := ((s.setUnit u x).bump .acq (auWin u ACQW.AU_REARM_TRIGS)).raise .acq 17
        (s.raiseCell .acq u 1).emitStamped .acq u 0x092 t
          ([BitVec.ofNat 8 u, BitVec.ofNat 8 x.state, BitVec.ofNat 8 tsrc, 0] ++
            leBytes 4 (s.au u ACQW.AU_REARM_TRIGS).toNat)

/-- A trigger reaches every unit whose AU_TRIG selects it. -/
def State.acqTrigAll (s : State) (t : Nat) (sel : Word → Bool) : State :=
  (List.range 4).foldl (fun a u =>
    if bit (a.au u ACQW.AU_CFG) 0 && sel (a.au u ACQW.AU_TRIG) then a.acqTrig t 4 u else a) s

/-- A threshold event of a channel (R420). -/
def State.acqThr (s : State) (t n : Nat) (lo set : Bool) : State :=
  s.acqTrigAll t (fun w => decide (bits w 2 0 = 1) && decide (bits w 12 8 = n) && bit w 16 == lo && bit w 17 == !set)
/-- An edge captured on a pin. (DEDUCED, log 103). -/
def State.acqTio (s : State) (t pin : Nat) : State :=
  s.acqTrigAll t (fun w => decide (bits w 2 0 = 2) && decide (bits w 12 8 = pin))
/-- Tick k of the base grid begins. -/
def State.acqTick (s : State) (t k : Nat) : State :=
  (List.range 4).foldl (fun a u =>
    if bit (a.au u ACQW.AU_CFG) 0 ∧ bits (a.au u ACQW.AU_TRIG) 2 0 = 3 ∧ k % max 1 (bits (a.au u ACQW.AU_GRID_N) 15 0) = 0 then
      a.acqTrig t 4 u
    else a) s

/-! ### Segments and records (R424, R427, R428) -/

/-- The record of unit `u` as it is armed in segment `i`, with the settings of that instant. (DESIGN CHOICE, log 145). -/
def State.armRec (s : State) (u i base : Nat) (prevLast : Option Nat) : AcqRec :=
  let cfg := s.au u ACQW.AU_CFG
  { seg := i, base := base, units := segUnits (bits (s.au u ACQW.AU_SEG_LEN) 17 0), prevLast := prevLast,
    src := bits cfg 12 8, avg := bits (s.au u ACQW.AU_AVG) 8 0, pre := s.pre u, post := s.post u,
    tsrc := bits (s.au u ACQW.AU_TRIG) 2 0, front := if bit cfg 17 then some (bits (s.au u ACQW.AU_FRONT_W) 7 0) else none }

/-- A unit whose FIFO becomes `fifo` at elapsed time `now`: it holds 32 blocks or fewer from when it came down to them (R425). -/
def AcqUnit.drain (x : AcqUnit) (fifo : List (Nat × Nat × AcqBlk)) (now : Nat) : AcqUnit :=
  { x with fifo := fifo, lowAt := if 32 < x.fifo.length ∧ fifo.length ≤ 32 then now else x.lowAt }

/-- ACQ_ARMED (R427): an arming unit finds a free segment, zeroes its header and is armed; without one it waits, or reuses the
oldest full one. The search starts after the segment armed last. (DESIGN CHOICE, log 145). -/
def execAcqArmed (u : Fin 4) (s : State) : Result :=
  let x := s.unit u.val
  let n := bits (s.au u.val ACQW.AU_NSEG) 8 0
  if x.state ≠ 1 ∨ ¬ s.working .acq ∨ s.quarantined .acq u.val then .next s
  else
    let free := ((List.range n).map (fun i => (x.nextSeg + i) % max 1 n)).find?
      (fun i => !x.full.contains i && !x.closing.any (fun r => r.seg == i))
    let arm := fun (s : State) (x : AcqUnit) (i : Nat) =>
      let base := s.segBase u.val i
      guardDram base 64 (done s ((s.zeroMem base 64).setUnit u.val { x with
        state := 2, nextSeg := (i + 1) % max 1 n, acc := [], cur := none, lastGen := none,
        rec_ := some (s.armRec u.val i base x.prevLast) }))
    match free with
    | some i => arm s x i
    | none =>
      if bit (s.au u.val ACQW.AU_CFG) 16 then
        match x.full with
        | i :: rest => arm (s.bump .acq (auWin u.val ACQW.AU_LOST)) { x with full := rest } i
        | [] => .next s
      else done s ((s.setUnit u.val { x with state := 4 }).raiseCell .acq u.val 2)

/-- ACQ_BLOCK_WRITE (R425): the write port takes the oldest block of a unit's FIFO into its segment. -/
def execAcqBlockWrite (u : Fin 4) (s : State) : Result :=
  let x := s.unit u.val
  match x.fifo with
  | [] => .next s
  | (base, i, b) :: rest =>
    if ¬ s.working .acq ∨ s.quarantined .acq u.val then .next s
    else
      let owner := (x.rec_.toList ++ x.closing).find? (fun r => r.base == base)
      let trig := (owner.bind AcqRec.trig).bind AcqTrig.word
      let src := (owner.map AcqRec.src).getD (bits (s.au u.val ACQW.AU_CFG) 12 8)
      let a := base + 64 + 96 * i
      guardDram a 96 (.next (((s.setUnit u.val (x.drain rest s.time.elapsed)).writeMem a
        (b.bytes src (s.srcPeriod 17 src) trig b.bseq)).modAna (fun n => { n with acqNow := n.acqNow + 96 })))

/-- A record's header (R424) and its FLAGS. `b` are the blocks it holds. -/
def State.header (s : State) (u : Nat) (r : AcqRec) (b : List AcqBlk) : List Byte × Nat :=
  let src := r.src
  let avg := r.avg
  let g := r.trig.getD { t := 0, gen := 0 }
  let pre := match g.word with | some o => min r.pre (wordsBefore o b) | none => min r.pre (wordsIn b)
  let post := match g.word with | some o => wordsFrom o b | none => 0
  let complete := g.word.isSome && decide (r.post ≤ post)
  let fl := b.flatMap (fun k => k.words.map (fun w => wordFlags (decide (k.eff = 1) && decide (src < 6)) w.w))
  let step := (b.drop 1).any AcqBlk.stepped
  let arr := match g.word, r.front with
    | some o, some w => if src < 2 ∧ ¬ step then arrival b (wordsBefore o b) pre w else none
    | _, _ => none
  let flags := b2n complete + 2 * b2n g.rt.isSome + 4 * b2n (decide (pre < r.pre)) + 8 * b2n (!complete) +
    16 * b2n (b.any AcqBlk.red) + 32 * b2n (fl.any (fun f => f.2.1)) + 64 * b2n (fl.any (fun f => f.1)) +
    128 * b2n (fl.any (fun f => f.2.2)) + 256 * b2n step + 512 * b2n ((b.drop 1).any AcqBlk.gap || r.lost) +
    1024 * b2n arr.isSome
  let first := b.head?
  let dead := match r.prevLast, first with
    | some l, some k =>
      min 0xFFFF_FFFF (max 0 (qDiff ((k.words.head?.map AcqWord.t).getD 0) l - k.period (s.srcPeriod 17 src)) / 4).toNat
    | _, _ => 0xFFFF_FFFF
  let rt := match g.rt with | some y => min 0xFFFF_FFFF (max 0 (qDiff y g.t) / 4).toNat | none => 0
  let ofs := match arr with | some a => unsigned 32 (qDiff a g.t * 64) | none => 0
  let body := [0x58, 0x41, 0x52, 0x31] ++ leBytes 1 u ++ leBytes 1 src ++ leBytes 2 flags ++ leBytes 4 ((s.unit u).seq + 1) ++
    leBytes 1 r.tsrc ++ leBytes 1 g.gen ++ leBytes 2 g.retrigs ++ leBytes 4 (qWord g.t) ++
    leBytes 6 (qS g.t) ++ leBytes 2 avg ++ leBytes 4 pre ++ leBytes 4 post ++
    leBytes 4 ((first.map AcqBlk.bseq).getD 0 % max 1 r.units) ++ leBytes 4 b.length ++ leBytes 4 dead ++ leBytes 4 ofs ++
    leBytes 4 rt ++ leBytes 1 ((b.map (fun k => k.eff / max 1 avg)).foldl max 1) ++ leBytes 3 0
  (body ++ leBytes 4 (crc32c body), flags)

/-- ACQ_RECORD_CLOSE (R424): with every block of the unit's oldest ended record in DRAM, its block units take their final flags
and numbers, its header is written and its segment is full. -/
def execAcqRecordClose (u : Fin 4) (s : State) : Result :=
  let x := s.unit u.val
  match x.closing with
  | [] => .next s
  | r :: rest =>
    if x.fifo.any (fun e => e.1 == r.base) ∨ ¬ s.working .acq ∨ s.quarantined .acq u.val then .next s
    else
      let word := r.trig.bind AcqTrig.word
      let b := match word with
        | some o => keepPre o r.pre r.blocks
        | none => keepNewest r.pre r.blocks
      let src := r.src
      let (h, flags) := s.header u.val r b
      let post := match word with | some o => wordsFrom o b | none => 0
      guardDram r.base (64 + 96 * r.units) (
        let t := (List.range b.length).foldl (fun t i =>
          match b[i]? with
          | some k => t.writeMem (r.base + 64 + 96 * (k.bseq % max 1 r.units)) (k.bytes src (s.srcPeriod 17 src) word i)
          | none => t) s
        let t := t.writeMem r.base h
        let t := t.setUnit u.val { x with closing := rest, full := x.full ++ [r.seg], seq := x.seq + 1 }
        let t := ((t.bump .acq (auWin u.val ACQW.AU_RECORDS)).raise .acq 16).raiseCell .acq u.val 0
        done s (t.emitAt .acq u.val 0x091 0 ([BitVec.ofNat 8 u.val, 0] ++ leBytes 2 r.seg ++ leBytes 4 (x.seq + 1) ++
          leBytes 2 flags ++ leBytes 2 0 ++ leBytes 4 post)))

/-- ACQ_RED_HALVE (R425): the FIFO has held 32 blocks or fewer for 100 µs, counted anew from each change of RED. An averaging interval in progress is finished first.
(DEDUCED, log 114). -/
def execAcqRedHalve (u : Fin 4) (s : State) : Result :=
  let x := s.unit u.val
  if x.red ≤ 1 ∨ 32 < x.fifo.length ∨ s.time.elapsed < x.lowAt + 100 * usU ∨ ¬ s.working .acq ∨ s.quarantined .acq u.val then .next s
  else if x.cur.isNone ∧ x.acc = [] then done s (s.setRed u.val (x.red / 2))
  else if x.acc = [] then done s ((s.setUnit u.val { x with halve := true }).closeBlk u.val)
  else .next (s.setUnit u.val { x with halve := true })

/-- A unit stops (R427, R431): a record in capture is closed with SHORT, an armed segment is freed. A quarantined unit loses its
record. -/
def State.acqStop (s : State) (u : Nat) (lost : Bool) : State :=
  let x := s.unit u
  if lost then s.setUnit u { x with state := 0, rec_ := none, cur := none, acc := [], fifo := [], closing := [], halve := false }
  else if x.state = 3 then s.endRecord u 0
  else
    let base := (x.rec_.map AcqRec.base).getD 0
    s.setUnit u ({ x with state := 0, rec_ := none, cur := none, acc := [], halve := false }.drain
      (x.fifo.filter (fun e => x.rec_.isNone || e.1 != base)) s.time.elapsed)

/-! ### Registers (R433, R434) -/

/-- Some unit is on. -/
def State.anyUnit (s : State) : Bool := (List.range 4).any (fun u => bit (s.au u ACQW.AU_CFG) 0)
def State.unitOn (s : State) (u : Nat) : Bool := bit (s.au u ACQW.AU_CFG) 0

def acqBaseRule : Rule where
  legal := fun _ _ v => if v % 4096 ≠ 0 then [(0, E_ALIGN)] else []
  busy := fun s _ _ => s.anyUnit
def acqLenRule : Rule where
  legal := fun s _ v =>
    if 262144 < v ∨ 2 ^ 34 < s.rd2 .acq ACQ.ACQ_WIN_BASE_LO + 4096 * v then [(0, E_RANGE)] else []
  busy := fun s _ _ => s.anyUnit
  check := fun s _ v =>
    let a := s.rd2 .acq ACQ.ACQ_WIN_BASE_LO
    let e := a + 4096 * v
    let p := s.rd2 .point POINT.PIMG_BASE_LO
    if v ≠ 0 ∧ ((a < p + 8 * pointCount ∧ p < e) ∨ (a < s.ringBase + s.ringSize ∧ s.ringBase < e)) then some E_CONFLICT else none

/-- First and last 4 KiB unit, exclusive, of a unit's segments in the window. (DEDUCED, log 102). -/
def State.segSpan (s : State) (u : Nat) : Nat × Nat :=
  let o := bits (s.au u ACQW.AU_BUF_OFS) 17 0
  (o, o + bits (s.au u ACQW.AU_NSEG) 8 0 * bits (s.au u ACQW.AU_SEG_LEN) 17 0)

/-- AU_CFG: EN ← 1 is checked against the unit's settings; while EN is 1 only EN ← 0 is taken (R427, R434). (DEDUCED, log 102). -/
def auCfgRule (u : Nat) : Rule where
  legal := fun _ _ v => if fld v 0 0 = 1 ∧ 6 ≤ fld v 12 8 ∧ fld v 12 8 < 16 then [(8, E_RANGE)] else []
  busy := fun s _ v => s.unitOn u && decide (v - fld v 0 0 ≠ (s.au u ACQW.AU_CFG).toNat - 1)
  check := fun s _ v =>
    if fld v 0 0 = 0 ∨ s.unitOn u then none
    else if s.post u = 0 then some E_CONFLICT
    else
      let (a, b) := s.segSpan u
      if bits (s.rd .acq ACQ.ACQ_WIN_LEN) 18 0 < b then some E_RANGE
      else if (List.range 4).any (fun v => v != u && decide (a < (s.segSpan v).2) && decide ((s.segSpan v).1 < b)) then
        some E_CONFLICT
      else none
  pre := fun s _ v => if fld v 0 0 = 0 ∧ s.unitOn u then s.acqStop u false else s
  apply := fun s _ v =>
    let x := s.unit u
    if fld v 0 0 = 1 ∧ x.state = 0 then s.setUnit u { x with state := 1, red := 1, prevLast := none, lastTrig := none } else s

/-- A setting of a unit: no write while it is on. -/
def auRule (u : Nat) (legal : State → Nat → List (Nat × Nat)) (check : State → Nat → Option Nat) : Rule where
  legal := fun s _ v => legal s v
  busy := fun s _ _ => s.unitOn u
  check := fun s _ v => check s v

/-- PRE + POST + 32 words do not fit a segment of `n` × 4 KiB. -/
def tooLong (n pre post : Nat) : Bool := decide (segCap n < pre + post + 32)

/-- REL frees the oldest full segment; SWTRIG is a trigger at the local time of the write (R426, R427). -/
def auCmdRule (u : Nat) : Rule where
  check := fun s _ v =>
    if fld v 1 1 = 1 ∧ (s.unit u).full = [] then some E_SEQ
    else if fld v 0 0 = 1 ∧ bits (s.au u ACQW.AU_TRIG) 2 0 ≠ 0 then some E_CONFLICT
    else none
  apply := fun s _ v =>
    let s := if fld v 1 1 = 1 then
        let x := s.unit u
        s.setUnit u { x with full := x.full.drop 1, state := if x.state = 4 then 1 else x.state }
      else s
    if fld v 0 0 = 1 then s.acqTrig s.now 4 u else s

/-- The rule of a register of unit `u`'s window. -/
def auWinRule (u o : Nat) : Rule :=
  let none' := fun (_ : State) (_ : Nat) => (none : Option Nat)
  let len := fun (s : State) => bits (s.au u ACQW.AU_SEG_LEN) 17 0
  if o = ACQW.AU_CFG then auCfgRule u
  else if o = ACQW.AU_BUF_OFS then auRule u (fun _ _ => []) none'
  else if o = ACQW.AU_SEG_LEN then
    auRule u (fun s v => if v = 0 ∨ tooLong v (s.pre u) (s.post u) then [(0, E_RANGE)] else []) none'
  else if o = ACQW.AU_NSEG then auRule u (fun _ v => if v = 0 ∨ 256 < v then [(0, E_RANGE)] else []) none'
  else if o = ACQW.AU_PRE then auRule u (fun s v => if tooLong (len s) v (s.post u) then [(0, E_RANGE)] else []) none'
  else if o = ACQW.AU_POST then auRule u (fun s v => if tooLong (len s) (s.pre u) v then [(0, E_RANGE)] else []) none'
  else if o = ACQW.AU_AVG then auRule u (fun _ v => if v = 0 ∨ 256 < v then [(0, E_RANGE)] else []) none'
  else if o = ACQW.AU_TRIG then
    auRule u
      (fun _ v =>
        (if 4 < fld v 2 0 then [(0, E_RANGE)] else []) ++
        (if (fld v 2 0 = 1 ∧ 15 < fld v 12 8) ∨ (fld v 2 0 = 4 ∧ (fld v 12 8 = u ∨ 3 < fld v 12 8)) then [(8, E_RANGE)] else []))
      (fun s v => if fld v 2 0 = 2 ∧ s.rdf .timeu (TIMEU.TIO_CFG (fld v 12 8)) 2 0 ≠ 1 then some E_CONFLICT else none)
  else if o = ACQW.AU_GRID_N then auRule u (fun _ v => if v = 0 then [(0, E_RANGE)] else []) none'
  else if o = ACQW.AU_FRONT_W then auRule u (fun _ v => if v < 4 then [(0, E_RANGE)] else []) none'
  else if o = ACQW.AU_CMD then auCmdRule u
  else {}

/-- CNT_CLR of ACQ. -/
def acqClrRule : Rule where
  apply := fun s _ v =>
    if fld v 0 0 = 0 then s
    else (List.range 4).foldl (fun t u => t.zero .acq ([ACQW.AU_RECORDS, ACQW.AU_REARM_TRIGS, ACQW.AU_RETRIGS,
      ACQW.AU_FIFO_DROP, ACQW.AU_LOST, ACQW.AU_AVG_DROP, ACQW.AU_FIFO_PEAK].map (auWin u))) s

/-- The rules of ACQ's registers, by offset. -/
def acqRule (o : Nat) : Rule :=
  if o = ACQ.ACQ_WIN_BASE_LO then { busy := acqBaseRule.busy }
  else if o = ACQ.ACQ_WIN_BASE_HI then acqBaseRule
  else if o = ACQ.ACQ_WIN_LEN then acqLenRule
  else if o = ACQ.CNT_CLR then acqClrRule
  else if 0x800 ≤ o ∧ o < 0xA00 then auWinRule ((o - 0x800) / 0x80) ((o - 0x800) % 0x80)
  else {}

/-- AU_CFG_WRITE (R427): a write of AU_CFG of unit `u`. -/
def execAuCfgWrite (src : Src) (u : Fin 4) (w : Word) (s : State) : Result :=
  done s (s.writeReg (auCfgRule u.val) src .acq (auWin u.val ACQW.AU_CFG) w)

/-- AU_REL (R427): a write of AU_CMD with REL. -/
def execAuRel (src : Src) (u : Fin 4) (s : State) : Result :=
  done s (s.writeReg (auCmdRule u.val) src .acq (auWin u.val ACQW.AU_CMD) 2)

/-- AU_SWTRIG (R426): a write of AU_CMD with SWTRIG. -/
def execAuSwtrig (src : Src) (u : Fin 4) (s : State) : Result :=
  done s (s.writeReg (auCmdRule u.val) src .acq (auWin u.val ACQW.AU_CMD) 1)

end Sys2Proof.Machine
end

