-- ==== Sys2Proof/Machine/Filt.lean ====
section
/-! DEFINITION. Sys2Proof/Machine/Filt.lean: the filter channels (R411 to R420, R431, R432): windows, banks and cross-fades,
synchronising resets, thresholds, output points, and the commands of FILT. -/
namespace Sys2Proof.Machine

def State.setFch (s : State) (n : Nat) (c : FiltCh) : State :=
  s.modAna (fun a => { a with filt := Tbl.set {} n c a.filt })

/-- Length and cross-fade length of a bank (R417). -/
def State.bankL (s : State) (n : Nat) (b : Bool) : Nat :=
  max 1 (bits (s.fc n (if b then FILTW.FC_BANKB else FILTW.FC_BANKA)) 12 0)
def State.bankK (s : State) (n : Nat) (b : Bool) : Nat :=
  max 1 (bits (s.fc n (if b then FILTW.FC_BANKB else FILTW.FC_BANKA)) 28 16)

/-- A synchronising reset (R418, R419): the length is that of the active bank, which a cross-fade was going to. -/
def State.filtReset (s : State) (n : Nat) : State :=
  let c := s.fch n
  if c.state = 0 then s
  else s.setFch n { c with
    state := if s.bankL n c.bank = 1 then 2 else 1,
    k := 0, hist := [], j := 0, index := 0, first := true, lastS := none, blk := {} }

/-! ### Output points (R416) -/

/-- VAL of an output word's flags: SETTLE makes it invalid; SETTLING, SUPPLY or CLIP questionable. -/
def filtVal (flags : Nat) : Nat :=
  if flags.testBit 0 then 1 else if flags.testBit 1 || flags.testBit 3 || flags.testBit 4 then 3 else 0

/-- Write the two points of an output; `bad` forces VAL invalid. (DEDUCED, log 101). -/
def State.filtWrite (s : State) (n : Nat) (y : FSample) (bad : Bool) : State :=
  let p := bits (s.fc n FILTW.FC_OUT) 24 0
  let q := 6 * 2 ^ 15 + (if bad then 1 else filtVal y.flags) * 2 ^ 18 + y.flags % 16 * 2 ^ 24
  let stamp := qWord y.t + qS y.t % 65536 * 2 ^ 32 + y.index % 65536 * 2 ^ 48
  s.ingress [(p, qPoint (unsigned 32 y.x) q), (p + 1, BitVec.ofNat 64 stamp)]

/-- Write an output's points, or hold it until 1 µs after the previous write (R416). -/
def State.filtPut (s : State) (n : Nat) (y : FSample) : State :=
  if ¬ bit (s.fc n FILTW.FC_OUT) 31 then s
  else
    let c := s.fch n
    if c.wrote.any (fun w => decide (s.time.elapsed < w + usU)) then s.setFch n { c with held := some y }
    else (s.setFch n { c with wrote := some s.time.elapsed, held := none }).filtWrite n y false

/-- FILT_POINT_WRITE (R416): the µs since the previous write ends and the held output is written; before that nothing happens. -/
def execFiltPointWrite (n : Fin 16) (s : State) : Result :=
  let c := s.fch n.val
  match c.held with
  | none => .next s
  | some y =>
    if c.wrote.any (fun w => decide (s.time.elapsed < w + usU)) then .next s
    else if bit (s.fc n.val FILTW.FC_OUT) 31 then
      done s ((s.setFch n.val { c with wrote := some s.time.elapsed, held := none }).filtWrite n.val y false)
    else .next (s.setFch n.val { c with held := none })

/-- A channel stops (R419): its output points are written once with VAL invalid, and what takes its outputs loses its source.
(DEDUCED, log 101). -/
def State.filtStop (s : State) (n : Nat) : State :=
  let c := s.fch n
  if c.state = 0 then s
  else
    let s := if bit (s.fc n FILTW.FC_OUT) 31 then s.filtWrite n (c.last.getD ⟨0, 0, 0, 0, false, 0, 0, 0⟩) true else s
    (s.setFch n { c with state := 0, held := none, wrote := none }).acqLose (16 + n)

/-! ### Thresholds (R420) -/

/-- One threshold after an output: its state and run. -/
def thrStep (on : Bool) (run deb : Nat) (sets clears : Bool) : Bool × Nat :=
  if (if on then clears else sets) then if deb ≤ run + 1 then (!on, 0) else (on, run + 1) else (on, 0)

/-- An event of a threshold: THR, its record, and a trigger for every acquisition unit that selects it. -/
def State.thrEvent (s : State) (n : Nat) (lo on : Bool) (y : FSample) : State :=
  let s := (((s.raiseCell .filt n (if lo then 1 else 0)).raise .filt 16).bump .filt (win n FILTW.FC_THR_EVENTS)).emitAt .filt n
    0x090 0 ([BitVec.ofNat 8 n, BitVec.ofNat 8 (b2n lo), BitVec.ofNat 8 (b2n on), 0] ++ leBytes 4 (unsigned 32 y.x) ++
      leBytes 4 (y.index % 2 ^ 32))
  s.acqThr y.t n lo on

/-- Both thresholds on an output; outputs with SETTLE or SETTLING are not counted. One that is off keeps its bit.
(DEDUCED, log 146). -/
def State.thresholds (s : State) (n : Nat) (y : FSample) : State :=
  if y.flags.testBit 0 ∨ y.flags.testBit 1 then s
  else
    let deb := bits (s.fc n FILTW.FC_THR_CFG) 31 24
    let hyst : Int := (bits (s.fc n FILTW.FC_THR_CFG) 23 0 : Nat)
    let hi := signed 24 (bits (s.fc n FILTW.FC_THR_HI) 23 0)
    let lo := signed 24 (bits (s.fc n FILTW.FC_THR_LO) 23 0)
    let c := s.fch n
    let h := if bit (s.fc n FILTW.FC_THR_HI) 31 then thrStep c.hi c.hiRun deb (decide (hi < y.x)) (decide (y.x < hi - hyst))
      else (c.hi, 0)
    let l := if bit (s.fc n FILTW.FC_THR_LO) 31 then thrStep c.lo c.loRun deb (decide (y.x < lo)) (decide (lo + hyst < y.x))
      else (c.lo, 0)
    let s := s.setFch n { c with hi := h.1, hiRun := h.2, lo := l.1, loRun := l.2 }
    let s := if h.1 ≠ c.hi then s.thrEvent n false h.1 y else s
    if l.1 ≠ c.lo then s.thrEvent n true l.1 y else s

/-! ### Outputs (R412 to R415, R417, R419) -/

/-- A sample of a stream joins the block being filled (R398, R415): a new block begins at `start`, at a step, after 16 samples,
or where the spacing leaves the block's own by more than 1 ns. -/
def BlkSt.take (b : BlkSt) (t gen index : Nat) (start : Bool) (last : Option Nat) : BlkSt :=
  let sp := last.map (fun l => (qDiff t l).natAbs)
  let off : Bool := match b.gap, sp with
    | some g, some d => decide (4 < ((g : Int) - d).natAbs)
    | _, _ => false
  if start ∨ b.n = 0 ∨ 16 ≤ b.n ∨ b.gen ≠ gen ∨ off then { n := 1, t := t, gen := gen, start := start, index := index, gap := none }
  else { b with n := b.n + 1, gap := if b.gap.isSome then b.gap else sp }

/-- A pending swap takes effect at an output (R417, R419). (DEDUCED, log 100). -/
def State.filtSwap (s : State) (n : Nat) (c : FiltCh) : FiltCh :=
  if ¬ c.pend then c
  else
    let la := s.bankL n c.bank
    let lb := s.bankL n (!c.bank)
    let c := { c with bank := !c.bank, pend := false }
    if c.state = 1 ∨ c.first then { c with state := if c.k < lb then 1 else 2 }
    else if la = lb then c
    else { c with state := 3, j := 0, la := la, xk := s.bankK n c.bank }

/-- The sum of the newest `m` inputs. -/
def sumOf (h : List FSample) (m : Nat) : Int := ((h.take m).map FSample.x).foldl (· + ·) 0

/-- The channel's output after an input whose count is a multiple of D. (DEDUCED, log 100). -/
def State.filtOut (s : State) (n : Nat) (c : FiltCh) : State × FSample :=
  let c := s.filtSwap n c
  let l := s.bankL n c.bank
  let w := max 1 (min c.k l)
  let fade := decide (c.state = 3)
  let j := c.j + 1
  let x := if fade then
      roundDiv (((c.xk - j : Nat) : Int) * sumOf c.hist c.la * w + (j : Int) * sumOf c.hist w * c.la) (c.xk * c.la * w : Nat)
    else roundDiv (sumOf c.hist w) w
  let seen := c.hist.take (if fade then max c.la w else w)
  let fl := (seen.map FSample.flags).foldl (· ||| ·) 0
  let fl := fl ||| (2 * b2n (decide (c.k < l))) ||| (4 * b2n fade)
  let older := (c.hist[w / 2]?.map FSample.t).getD 0
  let newer := (c.hist[(w - 1) / 2]?.map FSample.t).getD 0
  let t := midway older newer
  let y : FSample := ⟨x, fl, t, unsigned 24 x + fl % 64 * 2 ^ 24, c.first, s.time.stepGen, c.index, 0⟩
  let ends := fade && decide (c.xk ≤ j)
  let c := { c with
    j := j, index := c.index + 1, first := false, last := some y,
    state := if ends then (if c.k < l then 1 else 2) else c.state,
    blk := c.blk.take t s.time.stepGen c.index c.first (if c.first then none else c.last.map FSample.t) }
  let s := (s.setFch n c).bump .filt (win n FILTW.FC_OUTS)
  let s := if ends then (s.raiseCell .filt n 2).raise .filt 17 else s
  ((s.thresholds n y).filtPut n y, y)

/-- An input sample of channel `n` (R411, R412, R418): a top of second resets first where SYNC_TOS is 1. -/
def State.filtIn (s : State) (n : Nat) (y : FSample) : State × Option FSample :=
  let sec := qS y.t
  let s := if bit (s.fc n FILTW.FC_CFG) 20 && (s.fch n).lastS.any (fun l => decide (0 < sDiff sec l)) then s.filtReset n else s
  let c := s.fch n
  let k := c.k + 1
  let c := { c with
    k := k, hist := (y :: c.hist).take 4096, lastS := some sec,
    state := if c.state = 1 ∧ s.bankL n c.bank ≤ k then 2 else c.state }
  if k % max 1 (bits (s.fc n FILTW.FC_DEC) 12 0) ≠ 0 then (s.setFch n c, none)
  else match s.filtOut n c with | (t, z) => (t, some z)

/-- Channel `n` takes a sample of a source (R411). -/
def State.filtTakes (s : State) (n src : Nat) (y : FSample) : Bool :=
  let cfg := s.fc n FILTW.FC_CFG
  s.working .filt && decide ((s.fch n).state ≠ 0) && decide (bits cfg 12 8 = src) &&
    (decide (16 ≤ src) || !bit cfg 15 || decide (bits cfg 19 16 = y.chan))

/-- A sample of a source reaches the acquisition units and the channels that take it; the channels' outputs go on as sources in
turn. `f` bounds the chain, since a channel takes lower channels only. -/
def State.feed : Nat → Nat → FSample → State → State
  | 0, _, _, s => s
  | f + 1, src, y, s =>
    let s := (List.range 4).foldl (fun t u => if t.acqTakes u src then t.acqSample u y else t) s
    (List.range 16).foldl (fun t n =>
      if t.filtTakes n src y then
        match t.filtIn n y with
        | (t, some z) => State.feed f (16 + n) z t
        | (t, none) => t
      else t) s

/-- A source stream starts: the channels that take it are reset (R418). -/
def State.filtSource (s : State) (src : Nat) : State :=
  (List.range 16).foldl (fun t n => if bits (t.fc n FILTW.FC_CFG) 12 8 = src then t.filtReset n else t) s

/-- A channel starts (R418 to R420). (DEDUCED, log 99). -/
def State.filtStart (s : State) (n : Nat) : State :=
  let c := s.fch n
  let s := s.setFch n { c with state := 1, hi := false, lo := false, hiRun := 0, loRun := 0, last := none }
  (s.filtReset n).filtSource (16 + n)

/-! ### Registers (R431, R432) -/

def State.fcEn (s : State) (n : Nat) : Bool := bit (s.fc n FILTW.FC_CFG) 0

def fcCfgRule (n : Nat) : Rule where
  legal := fun _ _ v => if 6 ≤ fld v 12 8 ∧ fld v 12 8 < 16 then [(8, E_RANGE)] else []
  busy := fun s _ v => s.fcEn n && decide (fld v 19 8 ≠ bits (s.fc n FILTW.FC_CFG) 19 8)
  check := fun _ _ v => if 16 + n ≤ fld v 12 8 then some E_CONFLICT else none
  apply := fun s _ v =>
    if s.quarantined .filt n then s
    else if fld v 0 0 = 1 ∧ (s.fch n).state = 0 then s.filtStart n
    else if fld v 0 0 = 0 then s.filtStop n
    else s
def fcDecRule (n : Nat) : Rule where
  legal := fun _ _ v => if v = 0 ∨ 4096 < v then [(0, E_RANGE)] else []
  busy := fun s _ v => s.fcEn n && decide (v ≠ (s.fc n FILTW.FC_DEC).toNat)
def fcBankRule (n : Nat) (b : Bool) : Rule where
  legal := fun _ _ v =>
    (if fld v 12 0 = 0 ∨ 4096 < fld v 12 0 then [(0, E_RANGE)] else []) ++
    (if fld v 28 16 = 0 ∨ 4096 < fld v 28 16 then [(16, E_RANGE)] else [])
  busy := fun s _ v => s.fcEn n && (s.fch n).bank == b &&
    decide (v ≠ (s.fc n (if b then FILTW.FC_BANKB else FILTW.FC_BANKA)).toNat)
def fcCmdRule (n : Nat) : Rule where
  legal := fun _ _ v => if fld v 1 0 = 3 then [(0, E_CONFLICT)] else []
  busy := fun s _ v => decide (fld v 0 0 = 1) && ((s.fch n).pend || decide ((s.fch n).state = 3))
  check := fun s _ v => if fld v 1 1 = 1 ∧ ¬ s.fcEn n then some E_MODE else none
  apply := fun s _ v =>
    if fld v 1 1 = 1 then s.filtReset n
    else if fld v 0 0 = 1 then
      let c := s.fch n
      s.setFch n (if c.state = 0 then { c with bank := !c.bank } else { c with pend := true })
    else s

/-- FC_OUT: with EN = 1 its two points meet no stream span, status area, guest output line or other channel's points.
(DEDUCED, log 99). -/
def fcOutRule (n : Nat) : Rule where
  legal := fun _ _ v => if pointCount ≤ fld v 24 0 + 1 then [(0, E_RANGE)] else []
  check := fun s _ v =>
    let p := fld v 24 0
    let b := (s.rd .align ALIGN.STATUS_BASE).toNat
    if fld v 31 31 = 0 then none
    else if (b < p + 2 ∧ p < b + 4096) ∨
        s.porter.ctxs.any (fun e => decide (e.2.d.pointBase < p + 2) && decide (p < e.2.d.pointBase + e.2.d.pointCount)) ∨
        s.guests.any (fun e => e.2.img.outs.any (fun o => o.point / 8 == p / 8 || o.point / 8 == (p + 1) / 8)) ∨
        (s.filtPoints p 2).any (fun c => c != n) then some E_CONFLICT
    else none
def fcThrCfgRule : Rule where
  legal := fun _ _ v => if fld v 31 24 = 0 then [(24, E_RANGE)] else []
def filtClrRule : Rule where
  apply := fun s _ v =>
    if fld v 0 0 = 0 then s
    else (List.range 16).foldl (fun t n => t.zero .filt [win n FILTW.FC_OUTS, win n FILTW.FC_THR_EVENTS]) s

/-- The rules of FILT's registers, by offset. -/
def filtRule (o : Nat) : Rule :=
  if o = 0x040 then filtClrRule
  else if 0x800 ≤ o then
    let n := (o - 0x800) / 0x80
    let w := (o - 0x800) % 0x80
    if w = FILTW.FC_CFG then fcCfgRule n
    else if w = FILTW.FC_DEC then fcDecRule n
    else if w = FILTW.FC_BANKA then fcBankRule n false
    else if w = FILTW.FC_BANKB then fcBankRule n true
    else if w = FILTW.FC_CMD then fcCmdRule n
    else if w = FILTW.FC_OUT then fcOutRule n
    else if w = FILTW.FC_THR_CFG then fcThrCfgRule
    else {}
  else {}

/-- FC_CFG_WRITE (R419): a write of FC_CFG of channel `n`. -/
def execFcCfgWrite (src : Src) (n : Fin 16) (w : Word) (s : State) : Result :=
  done s (s.writeReg (fcCfgRule n.val) src .filt (win n.val FILTW.FC_CFG) w)

/-- FC_SWAP (R417): a write of FC_CMD with SWAP. -/
def execFcSwap (src : Src) (n : Fin 16) (s : State) : Result :=
  done s (s.writeReg (fcCmdRule n.val) src .filt (win n.val FILTW.FC_CMD) 1)

/-- FC_SYNC (R418): a write of FC_CMD with SYNC. -/
def execFcSync (src : Src) (n : Fin 16) (s : State) : Result :=
  done s (s.writeReg (fcCmdRule n.val) src .filt (win n.val FILTW.FC_CMD) 2)

end Sys2Proof.Machine
end

