-- ==== Sys2Proof/Machine/Adc.lean ====
section
/-! DEFINITION. Sys2Proof/Machine/Adc.lean: the converters (R390 to R410): streams, sample words and stamps, settling, scans, the
reference, calibration and coefficients, and the commands of ADC. -/
namespace Sys2Proof.Machine

abbrev E_CALSIG : Nat := 0x70
abbrev E_NOSAMPLE : Nat := 0x71

def State.setCore (s : State) (c : Nat) (x : CoreSt) : State :=
  s.modAna (fun a => { a with cores := Tbl.set {} c x a.cores })

def State.setStream (s : State) (k : Nat) (x : StreamSt) : State :=
  s.modAna (fun a => { a with streams := Tbl.set {} k x a.streams })
def State.modCal (s : State) (f : CalSt → CalSt) : State := s.modAna (fun a => { a with cal := f a.cal })

/-- TW_GAIN of a pair. -/
def State.twGain (s : State) (p : Nat) : Nat := bits (s.rd .adc (ADC.PAIR_CFG p)) 5 4

/-- Streams start and end with their sources (R390): a start begins the index at 0 and resets the filters that take the stream
(R418); an end is told to the acquisition units (R427). A core whose stream ends holds no scan and no trigger; a paced core without
a scan is triggered at once (R395). -/
def State.syncStreams (s : State) : State :=
  (List.range 4).foldl (fun t c =>
    let x := t.corest c
    let paced := decide (t.coreTrig c = 1) && !x.scan
    t.setCore c { x with trig := t.present (2 + c) && (paced || (x.trig && t.coreTrig c != 0)) }) <|
  (List.range 6).foldl (fun t k =>
    let x := t.stream k
    if t.present k = x.on then t
    else if x.on then
      let t := t.setStream k { x with on := false, blk := {} }
      let t := if 2 ≤ k then t.setCore (k - 2) { t.corest (k - 2) with scan := false, entry := 0, nth := 0 } else t
      t.acqLose k
    else
      (t.setStream k { on := true, index := 0, settle := x.settle, late := x.late, ovr := false, fresh := true, blk := {} }).filtSource k) s

/-- A settling count (R401): the larger of what remains and the new count. (DEDUCED, log 97). -/
def State.settle (s : State) (k n : Nat) : State := s.setStream k { s.stream k with settle := max (s.stream k).settle n }

/-! ### Calibration (R402, R403) -/

/-- A calibration ends: CODE, IRQ CAL_DONE, and its record at a failure or an APPLY (R403, R410). (DEDUCED, log 96). -/
def State.calEnd (s : State) (code : Nat) (rec_ : Bool) : State :=
  let s := (s.wrf .adc ADC.CAL_STS 31 31 0).wrf .adc ADC.CAL_STS 7 0 code
  let s := (s.modCal (fun c => { c with op := 0, sum := 0, count := 0 })).raise .adc 17
  let sel := s.rd .adc ADC.CAL_SEL
  if rec_ then
    s.emitAt .adc (bits sel 1 0) 0x070 0 ([BitVec.ofNat 8 (bits sel 1 0), BitVec.ofNat 8 (bits sel 5 4),
      BitVec.ofNat 8 (bits sel 12 8), BitVec.ofNat 8 code] ++
      leBytes 4 (unsigned 32 (signed 20 (s.rd .adc ADC.CAL_OFS_RES).toNat)) ++ leBytes 4 (s.rd .adc ADC.CAL_GAIN_RES).toNat)
  else s

/-- End a running calibration with a code. -/
def State.calCut (s : State) (code : Nat) : State := if s.calBusy then s.calEnd code true else s

/-- G of a GAIN code (R391). -/
def gainG (g : Nat) : Int := 2 ^ g

/-- E of step 5 as a fraction: the code of V_cal in µV with VREF = 2.5 V (R391, R403). (DEDUCED, log 96). -/
def calE (input gain : Nat) (uv : Int) : Int × Int :=
  if 16 ≤ input then (32768 * gainG gain * uv, 2500000) else (32768 * gainG gain * (uv - 1250000), 1250000)

/-- Registers of the coefficient set of a core and gain. -/
abbrev coefOfs (c g : Nat) : Nat := ADC.COEF_OFS (4 * c + g)
abbrev coefGain (c g : Nat) : Nat := ADC.COEF_GAIN (4 * c + g)

/-- The gain at which a core converts: TW_GAIN, or that of its previous conversion, before the first that of its next entry.
(DEDUCED, log 97). -/
def State.gainInUse (s : State) (c : Nat) : Nat :=
  if s.il (c / 2) then s.twGain (c / 2)
  else match (s.corest c).prev with
    | some (_, g) => g
    | none => bits (s.core c (ADCW.SEQ (s.corest c).entry)) 5 4

/-- A coefficient load (R401): 4 samples settle when it is for the gain at which the core converts, from its first conversion with the
new coefficients on; in a pair the next sample may be the other core's. -/
def State.coefLoaded (s : State) (c g : Nat) : State :=
  let k := s.streamOf c
  if ¬ s.converts c ∨ s.gainInUse c ≠ g then s
  else if s.il (c / 2) ∧ (s.stream k).index % 2 ≠ c % 2 then s.setStream k { s.stream k with late := 4 }
  else s.settle k 4

/-- CAL_AVG_DONE (R403): 65,536 matching conversions have been averaged. -/
def execCalAvgDone (s : State) : Result :=
  let c := s.analog.cal
  let sel := s.rd .adc ADC.CAL_SEL
  if c.op = 0 ∨ c.count < 65536 then .next s
  else if c.op = 1 then
    if 2048 * 65536 < c.sum.natAbs then done s (s.calEnd E_CALSIG true)
    else
      let s' := s.wrf .adc ADC.CAL_OFS_RES 19 0 (unsigned 20 (roundDiv c.sum 4096))
      done s (((s'.modCal (fun x => { x with zero := c.sum })).wrf .adc ADC.CAL_STS 8 8 1).calEnd 0 false)
  else
    let e := calE (bits sel 12 8) (bits sel 5 4) (signed 25 (s.rd .adc ADC.CAL_REF).toNat)
    let d := c.sum - c.zero
    let g := roundDiv (e.1 * 65536 * 65536) (e.2 * d)
    if e.1.natAbs < 8192 * e.2.natAbs ∨ d = 0 ∨ g < 0x8000 ∨ 0x20000 < g then done s (s.calEnd E_CALSIG true)
    else done s (((s.wrf .adc ADC.CAL_GAIN_RES 17 0 g.toNat).wrf .adc ADC.CAL_STS 9 9 1).calEnd 0 false)

/-- The second within which an averaging's conversions must arrive has passed (R403). -/
def State.calLate (s : State) : Bool := decide (s.analog.cal.since + 1000000000 * nsU ≤ s.time.elapsed)

/-- CAL_TIMEOUT (R403): matching conversions have not arrived within 1 s. -/
def execCalTimeout (s : State) : Result :=
  if s.calBusy ∧ s.analog.cal.count < 65536 ∧ s.calLate then done s (s.calEnd E_NOSAMPLE true) else .next s

/-- CAL_CMD (R403, R407). -/
def calCmdRule : Rule where
  legal := fun _ _ v => if fld v 2 0 = 0 ∨ 4 < fld v 2 0 then [(0, E_RANGE)] else []
  busy := fun s _ v => decide (fld v 2 0 ≤ 3) && s.calBusy
  check := fun s _ v => if fld v 2 0 = 4 ∧ ¬ s.calBusy then some E_SEQ else none
  apply := fun s _ v =>
    let start := fun (op : Nat) =>
      (s.wrf .adc ADC.CAL_STS 31 31 1).modCal (fun c => { c with op := op, sum := 0, count := 0, since := s.time.elapsed })
    let ok := fun (b : Nat) => bit (s.rd .adc ADC.CAL_STS) b
    let sel := s.rd .adc ADC.CAL_SEL
    let cg := (bits sel 1 0, bits sel 5 4)
    match fld v 2 0 with
    | 1 => start 1
    | 2 => if ok 8 then start 2 else s.calEnd E_SEQ true
    | 3 =>
      if ok 8 && ok 9 then
        let s := s.wrn .adc (coefOfs cg.1 cg.2) (s.rd .adc ADC.CAL_OFS_RES).toNat
        ((s.wrn .adc (coefGain cg.1 cg.2) (s.rd .adc ADC.CAL_GAIN_RES).toNat).coefLoaded cg.1 cg.2).calEnd 0 true
      else s.calEnd E_SEQ true
    | _ => s.calEnd E_SEQ true

/-! ### Conversions (R391, R393 to R401) -/

/-- The code of a raw conversion (R402) and whether it clips (R397). -/
def adcCode (raw ofs gain : Int) : Int × Bool :=
  let x := ((16 * raw - ofs) * gain + 2 ^ 19) / 2 ^ 20
  (max (-32768) (min 32767 x), decide (raw ≤ -32768) || decide (32767 ≤ raw) || decide (x ≤ -32768) || decide (32767 ≤ x))

/-- One conversion of core `c` on an input at a gain: its sample word, its place in its stream's block, and where it goes. -/
def State.convert (s : State) (c input gain : Nat) (raw : Int) : State :=
  let k := s.streamOf c
  let x := s.stream k
  let tw := decide (16 ≤ input)
  let ofs := signed 20 (s.rd .adc (coefOfs c gain)).toNat
  let (code, clip) := adcCode raw ofs ((s.rd .adc (coefGain c gain)).toNat : Int)
  let settling := decide (0 < x.settle)
  let flags := b2n settling + 8 * b2n s.supply + 16 * b2n clip + 32 * b2n x.ovr
  let chan := if tw then 0 else input
  let word := unsigned 16 code + b2n settling * 2 ^ 16 + b2n s.supply * 2 ^ 17 + b2n clip * 2 ^ 18 + b2n x.ovr * 2 ^ 19 +
    chan * 2 ^ 20 + b2n tw * 2 ^ 24 + gain * 2 ^ 25 + c * 2 ^ 27
  let board := if input = 16 then s.rdf .adc ADC.TW_BOARD_DLY_A 15 0 else if input = 17 then s.rdf .adc ADC.TW_BOARD_DLY_B 15 0
    else 0
  let delay : Int := (Config.aperture input).toInt - (board : Nat)
  let stamp := stampOf (((s.time.clock : Int) + delay * 2 ^ 24) % (clockU : Int)).toNat
  let period := s.srcPeriod 17 k
  let joins := !x.fresh && decide (x.blk.n ≠ 0) && decide (x.blk.n < 16) && decide (x.blk.gen = s.time.stepGen)
  let t := if joins then (x.blk.t + x.blk.n * period) % (2 ^ 48 * 4000000000) else stamp
  let blk : BlkSt := if joins then { x.blk with n := x.blk.n + 1 }
    else { n := 1, t := t, gen := s.time.stepGen, start := x.fresh, index := x.index, gap := none }
  let y : FSample := ⟨code * 256, flags, t, word, x.fresh, s.time.stepGen, x.index, chan⟩
  let cal := s.analog.cal
  let sel := s.rd .adc ADC.CAL_SEL
  let s := if cal.op ≠ 0 ∧ bits sel 1 0 = c ∧ bits sel 5 4 = gain ∧ bits sel 12 8 = input ∧ ¬ settling ∧ cal.count < 65536 ∧ ¬ s.calLate then
      s.modCal (fun a => { a with sum := a.sum + raw, count := a.count + 1 })
    else s
  let s := s.setCore c { s.corest c with conv := if settling then none else some code }
  let s := s.setStream k { x with index := x.index + 1, settle := max (x.settle - 1) x.late, late := 0, ovr := false, fresh := false, blk := blk }
  State.feed 17 k y (s.bump .adc (win c ADCW.CORE_CONVS))

/-- What the skew estimator of a pair reports (R394): its trim in 0.1 ps, within ±20.0 ps, HOLD and CONV. A held trim stays; a
change of CONV is recorded, its loss raises SKEW_LOST. (DEDUCED, log 95). -/
def State.skewReport (s : State) (p : Nat) (r : Int × Bool × Bool) : State :=
  if ¬ bit (s.rd .adc (ADC.PAIR_CFG p)) 8 then s
  else
    let old := s.rd .adc (ADC.SKEW p)
    let trim := if r.2.1 then bits old 31 16 else unsigned 16 (max (-200) (min 200 r.1))
    let s := s.wrn .adc (ADC.SKEW p) (trim * 65536 + 2 * b2n r.2.1 + b2n r.2.2)
    let s := if bit old 0 ∧ ¬ r.2.2 then s.raise .adc 19 else s
    if bit old 0 = r.2.2 then s
    else s.emit .adc 0x073 0 ([BitVec.ofNat 8 p, BitVec.ofNat 8 (b2n r.2.2)] ++ leBytes 2 trim)

/-- ADC_SAMPLE (R393, R395, R397): core `c` converts and its raw code leaves it; an interleaved pair may report its skew with it.
In a pair the lower core takes the even samples; an independent core takes the next conversion of its running scan.
(DESIGN CHOICE, log 5; DEDUCED, log 95). -/
def execAdcSample (c : Fin 4) (raw : Int) (skew : Option (Int × Bool × Bool)) (s : State) : Result :=
  let p := c.val / 2
  if ¬ s.converts c.val then .next s
  else if s.il p then
    if c.val % 2 ≠ (s.stream p).index % 2 then .next s
    else
      let t := match skew with | some r => s.skewReport p r | none => s
      done s ((t.setCore c.val { t.corest c.val with prev := none }).convert c.val (16 + p) (s.twGain p) raw)
  else
    let x := s.corest c.val
    let last := bits (s.core c.val ADCW.CORE_SEQ) 3 0
    if ¬ x.scan ∨ last < x.entry then .next s
    else
      let e := s.core c.val (ADCW.SEQ x.entry)
      let chan := bits e 3 0
      let gain := bits e 5 4
      let t := match x.prev with
        | some (ch, g) =>
          let t := if ch ≠ chan then s.settle (2 + c.val) 2 else s
          if g ≠ gain then t.settle (2 + c.val) 8 else t
        | none => s
      let next := if bits e 15 8 ≤ x.nth then (x.entry + 1, 0) else (x.entry, x.nth + 1)
      done s ((t.setCore c.val { x with prev := some (chan, gain), entry := next.1, nth := next.2 }).convert c.val chan gain raw)

/-! ### Scans (R395, R396) -/

/-- A trigger of core `c`: a scan starts, or it is counted as ignored while one runs. -/
def State.scanTrig (s : State) (c : Nat) : State :=
  let x := s.corest c
  if x.scan then
    let s := (s.bump .adc (win c ADCW.CONV_OVERRUN)).bump .adc ADC.CONV_OVERRUNS
    let s := ((s.setStream (2 + c) { s.stream (2 + c) with ovr := true }).raiseCell .adc c 0).raise .adc 18
    s.emitAt .adc c 0x071 0 ([BitVec.ofNat 8 c, 0, 0, 0] ++ leBytes 4 (s.core c ADCW.CONV_OVERRUN).toNat)
  else if s.coreTrig c = 0 then s
  else (s.setCore c { x with scan := true, entry := 0, nth := 0 }).setStream (2 + c) { s.stream (2 + c) with fresh := true }

/-- A paced, grid or TIO trigger arrives (R395, R396): during a scan it is counted; else the scan starts at the next CLK_CONV edge. -/
def State.trigArrive (s : State) (c : Nat) : State :=
  if (s.corest c).scan then s.scanTrig c else s.setCore c { s.corest c with trig := true }

/-- The base grid's tick `k` triggers the cores whose GRID_N divides it (R395). -/
def State.gridTrig (s : State) (k : Nat) : State :=
  (List.range 4).foldl (fun t c =>
    if t.present (2 + c) ∧ t.coreTrig c = 2 ∧ k % (t.core c ADCW.CORE_GRID).toNat = 0 then t.trigArrive c else t) s

/-- An edge captured on a TIO pin triggers the cores that wait for it (R395). -/
def State.tioTrig (s : State) (pin : Nat) : State :=
  (List.range 4).foldl (fun t c =>
    if t.present (2 + c) ∧ t.coreTrig c = 3 ∧ bits (t.core c ADCW.CORE_CFG) 12 8 = pin then t.trigArrive c else t) s

/-- ADC_SCAN_TRIGGER (R395, R396): the first CLK_CONV edge after a paced, grid or TIO trigger of an independent core; with none waiting
nothing happens. -/
def execAdcScanTrigger (c : Fin 4) (s : State) : Result :=
  let x := s.corest c.val
  if s.present (2 + c.val) ∧ x.trig then done s ((s.setCore c.val { x with trig := false }).scanTrig c.val) else .next s

/-- ADC_SCAN_DONE (R396): the scan's last conversion has been taken and the scan ends; with TRIG 0 the core stops (R395). -/
def execAdcScanDone (c : Fin 4) (s : State) : Result :=
  let x := s.corest c.val
  if ¬ x.scan ∨ x.entry ≤ bits (s.core c.val ADCW.CORE_SEQ) 3 0 then .next s
  else done s (((s.setCore c.val { x with scan := false, entry := 0, nth := 0 }).raiseCell .adc c.val 1).syncStreams)

/-! ### The reference (R392) -/

/-- A change of REF_BAD. (DEDUCED, log 98). -/
def State.refChange (s : State) (bad : Bool) : State :=
  let s := (s.wrf .adc ADC.ADC_STS 0 0 (b2n bad)).raise .adc 16
  let s := if bad then s.bump .adc ADC.REF_BAD_EVENTS else s
  s.emit .adc 0x072 0 ([BitVec.ofNat 8 (b2n bad), 0] ++ leBytes 2 (s.rd .adc ADC.VREF_MEAS).toNat)

/-- VREF_MEASURE (R392): a measurement of VREF in 100 µV. REF_BAD sets outside 2.400 to 2.600 V and clears after 100 µs
inside. -/
def execVrefMeasure (v : BitVec 16) (s : State) : Result :=
  if ¬ s.working .adc then .next s
  else
    let t := s.wrn .adc ADC.VREF_MEAS v.toNat
    let bad := bit (s.rd .adc ADC.ADC_STS) 0
    if v.toNat < 24000 ∨ 26000 < v.toNat then
      let t := t.modAna (fun a => { a with refGood := none })
      done s (if bad then t else t.refChange true)
    else if ¬ bad then .next t
    else match s.analog.refGood with
    | none => .next (t.modAna (fun a => { a with refGood := some s.time.elapsed }))
    | some g =>
      if g + 100 * usU ≤ s.time.elapsed then done s ((t.modAna (fun a => { a with refGood := none })).refChange false)
      else .next t

/-! ### Registers (R407 to R409) -/

/-- ADC_CTL (R401, R406): EN ← 1 settles every stream by 64 samples; EN ← 0 ends streams and a calibration. -/
def adcCtlRule : Rule where
  pre := fun s _ v =>
    if fld v 0 0 = 0 ∧ bit (s.rd .adc ADC.ADC_CTL) 0 then s.calCut E_MODE
    else if fld v 0 0 = 1 ∧ ¬ bit (s.rd .adc ADC.ADC_CTL) 0 then (List.range 6).foldl (fun t k => t.settle k 64) s
    else s
  apply := fun s _ _ => s.syncStreams

/-- PAIR_CFGp (R401, R407). -/
def pairCfgRule (p : Nat) : Rule where
  busy := fun s _ v =>
    s.calBusy && decide (bits (s.rd .adc ADC.CAL_SEL) 1 0 / 2 = p) &&
      (decide (fld v 0 0 ≠ b2n (s.il p)) || decide (fld v 5 4 ≠ s.twGain p))
  pre := fun s _ v =>
    let s := if fld v 5 4 ≠ s.twGain p then s.settle p 8 else s
    if fld v 0 0 = b2n (s.il p) then s
    else if fld v 0 0 = 1 then s.settle p 64
    else (s.settle (2 + 2 * p) 64).settle (3 + 2 * p) 64
  apply := fun s _ _ => s.syncStreams

def calSelRule : Rule where
  legal := fun _ _ v => if 17 < fld v 12 8 then [(8, E_RANGE)] else []
  busy := fun s _ _ => s.calBusy
  check := fun _ _ v => if 16 ≤ fld v 12 8 ∧ fld v 12 8 - 16 ≠ fld v 1 0 / 2 then some E_CONFLICT else none
  apply := fun s _ _ => s.wrf .adc ADC.CAL_STS 9 8 0
def calRefRule : Rule where
  legal := fun _ _ v => if 2600000 < (signed 25 v).natAbs then [(0, E_RANGE)] else []

/-- COEF_GAIN (R408): the set, its waiting offset word with it, applies as a load. -/
def coefGainRule (c g : Nat) : Rule where
  legal := fun _ _ v => if v < 0x8000 ∨ 0x20000 < v then [(0, E_RANGE)] else []
  apply := fun s _ _ =>
    let a := Page.base .adc + coefOfs c g
    let s := match Tbl.look a s.shadow with
      | some w => ({ s with shadow := Tbl.del a s.shadow } : State).wr .adc (coefOfs c g) w
      | none => s
    s.coefLoaded c g

def coreCfgRule (c : Nat) : Rule where
  legal := fun _ _ v => (if 4 < fld v 2 0 then [(0, E_RANGE)] else []) ++ (if fld v 31 16 < 4 then [(16, E_RANGE)] else [])
  busy := fun s _ v =>
    let old := s.core c ADCW.CORE_CFG
    s.converts c && (decide (fld v 31 16 ≠ bits old 31 16) || decide (fld v 12 8 ≠ bits old 12 8) ||
      (decide (fld v 2 0 ≠ bits old 2 0) && decide (fld v 2 0 ≠ 0) && decide (bits old 2 0 ≠ 0)))
  check := fun s _ v =>
    if fld v 2 0 = 3 ∧ s.rdf .timeu (TIMEU.TIO_CFG (fld v 12 8)) 2 0 ≠ 1 then some E_CONFLICT else none
  apply := fun s _ _ => s.syncStreams
def coreSeqRule (c : Nat) : Rule where
  busy := fun s _ _ => s.converts c
def coreGridRule (c : Nat) : Rule where
  legal := fun _ _ v => if v = 0 then [(0, E_RANGE)] else []
  busy := fun s _ _ => decide (s.coreTrig c = 2)
def coreSwtrigRule (c : Nat) : Rule where
  check := fun s _ v => if fld v 0 0 = 1 ∧ s.coreTrig c ≠ 4 then some E_CONFLICT else none
  apply := fun s _ v => if fld v 0 0 = 1 ∧ s.present (2 + c) then s.scanTrig c else s
def adcClrRule : Rule where
  apply := fun s _ v =>
    if fld v 0 0 = 0 then s
    else (List.range 4).foldl (fun t c => t.zero .adc [win c ADCW.CONV_OVERRUN, win c ADCW.CORE_CONVS])
      (s.zero .adc [ADC.CONV_OVERRUNS, ADC.REF_BAD_EVENTS])

/-- The rules of ADC's registers, by offset. -/
def adcRule (o : Nat) : Rule :=
  if o = ADC.ADC_CTL then adcCtlRule
  else if o = ADC.PAIR_CFG 0 then pairCfgRule 0
  else if o = ADC.PAIR_CFG 1 then pairCfgRule 1
  else if o = ADC.CAL_SEL then calSelRule
  else if o = ADC.CAL_REF then calRefRule
  else if o = ADC.CAL_CMD then calCmdRule
  else if o = ADC.CNT_CLR then adcClrRule
  else if 0x100 ≤ o ∧ o < 0x180 ∧ o % 8 = 4 then coefGainRule ((o - 0x104) / 32) ((o - 0x104) / 8 % 4)
  else if 0x800 ≤ o then
    let c := (o - 0x800) / 0x80
    let w := (o - 0x800) % 0x80
    if w = ADCW.CORE_CFG then coreCfgRule c
    else if w = ADCW.CORE_SEQ then coreSeqRule c
    else if w = ADCW.CORE_GRID then coreGridRule c
    else if w = ADCW.CORE_SWTRIG then coreSwtrigRule c
    else if ADCW.SEQ 0 ≤ w ∧ w ≤ ADCW.SEQ 15 then coreSeqRule c
    else {}
  else {}

/-- CORE_SWTRIG (R395): a write of CORE_SWTRIG with GO. -/
def execCoreSwtrig (src : Src) (c : Fin 4) (s : State) : Result :=
  done s (s.writeReg (coreSwtrigRule c.val) src .adc (win c.val ADCW.CORE_SWTRIG) 1)

/-- CAL_SEL (R403): a write of CAL_SEL. -/
def execCalSel (src : Src) (w : Word) (s : State) : Result := done s (s.writeReg calSelRule src .adc ADC.CAL_SEL w)

/-- CAL_ZERO (R403): a write of CAL_CMD with OP 1. -/
def execCalZero (src : Src) (s : State) : Result := done s (s.writeReg calCmdRule src .adc ADC.CAL_CMD 1)
/-- CAL_FULL (R403): a write of CAL_CMD with OP 2. -/
def execCalFull (src : Src) (s : State) : Result := done s (s.writeReg calCmdRule src .adc ADC.CAL_CMD 2)
/-- CAL_APPLY (R403): a write of CAL_CMD with OP 3. -/
def execCalApply (src : Src) (s : State) : Result := done s (s.writeReg calCmdRule src .adc ADC.CAL_CMD 3)
/-- CAL_ABORT (R407): a write of CAL_CMD with OP 4. -/
def execCalAbort (src : Src) (s : State) : Result := done s (s.writeReg calCmdRule src .adc ADC.CAL_CMD 4)

/-- COEF_LOAD (R408): a write of COEF_GAIN of core `c` at GAIN code `g`. -/
def execCoefLoad (src : Src) (c g : Fin 4) (w : Word) (s : State) : Result :=
  done s (s.writeReg (coefGainRule c.val g.val) src .adc (coefGain c.val g.val) w)

end Sys2Proof.Machine
end

