-- ==== Sys2Proof/Machine/CkptCopy.lean ====
section
/-! DEFINITION. Sys2Proof/Machine/CkptCopy.lean: checkpoint copies in flash (R445 to R447): their layout, the copy in force, and
a checkpoint's end. -/
namespace Sys2Proof.Machine

abbrev E_FLIMG : Nat := 0x81
abbrev E_FLASH : Nat := 0x82
abbrev E_CKPTSIZE : Nat := 0x83
abbrev E_NOFLASH : Nat := 0x84

/-- H of R445. -/
def State.ckptHalf (s : State) : Nat := (s.flashSize - 4194304) / 2
/-- Flash offset of a checkpoint copy. -/
def State.ckptOfs (s : State) (copy : Nat) : Nat := 4194304 + copy * s.ckptHalf

/-- Bytes padded with zeros to a multiple of 64. -/
def pad64 (l : List Byte) : List Byte := l ++ List.replicate ((64 - l.length % 64) % 64) 0

/-- A guest in a checkpoint body (R447). -/
def snapBytes (n : Snap) : List Byte :=
  leBytes 1 n.guest ++ leBytes 1 n.exb ++ leBytes 2 n.mask ++ leBytes 1 (if n.running then 2 else 1) ++ [0, 0, 0] ++
    leBytes 2 n.n ++ leBytes 2 n.inPoints ++ leBytes 2 n.lines ++ [0, 0] ++ leBytes 4 n.image.length ++
    leBytes 4 n.retained.length ++ List.replicate 40 0 ++ pad64 n.image ++ pad64 n.retained

/-- Insert a snapshot by ascending guest number. -/
def insertSnap (n : Snap) : List Snap → List Snap
  | [] => [n]
  | h :: t => if n.guest < h.guest then n :: h :: t else h :: insertSnap n t

/-- The body of a checkpoint copy: address counts, publications, guests (R447). -/
def State.ckptBody (s : State) : List Byte :=
  let c := s.ckpt
  (List.range 256).flatMap (fun a => leBytes 8 (if a < 254 then Tbl.get 0 a c.counts else 0)) ++
  (List.range 4096).flatMap (fun i =>
    match c.pubs.find? (fun e => e.1 == i) with
    | some e => [1] ++ leBytes 1 e.2.1 ++ [0, 0] ++ leBytes 4 e.2.2.1 ++ leBytes 8 e.2.2.2
    | none => List.replicate 16 0) ++
  ((c.snaps.foldl (fun l n => insertSnap n l) []).map snapBytes).flatten

/-- A header with a given CRC field (R447). -/
def State.ckptHeader (s : State) (len seq crc : Nat) : List Byte :=
  [0x58, 0x43, 0x4B, 0x31] ++ leBytes 2 1 ++ leBytes 2 s.ckpt.snaps.length ++ leBytes 8 len ++ leBytes 8 seq ++
    leBytes 4 crc ++ leBytes 6 (s.ckpt.second.getD 0) ++ leBytes 1 (b2n s.unitB) ++ [0] ++ beBytes 6 s.macBase ++
    List.replicate 22 0

/-- The whole copy with its CRC. -/
def State.ckptCopy (s : State) (seq : Nat) : List Byte :=
  let body := s.ckptBody
  let len := 64 + body.length
  s.ckptHeader len seq (crc32c (s.ckptHeader len seq 0 ++ body)) ++ body

/-- LEN of a copy as GO sums it over the loaded guests (R446, R447). -/
def State.ckptLen (s : State) : Nat :=
  s.guests.foldl (fun a e => a + 64 + ceilDiv e.2.img.len 64 * 64 + ceilDiv (retLen e.2.storeRets) 64 * 64)
    (64 + 2048 + 65536)

/-- A copy in flash with valid MAGIC, FORMAT and CRC: its SEQ and bytes (R447). -/
def State.ckptValid (s : State) (copy : Nat) : Option (Nat × List Byte) :=
  let o := s.ckptOfs copy
  let h := s.readFlash o 64
  let len := leAt h 8 8
  if s.flashSize = 0 ∨ h.take 4 ≠ [0x58, 0x43, 0x4B, 0x31] ∨ leAt h 4 2 ≠ 1 ∨ len < 64 ∨ s.ckptHalf < len then none
  else
    let b := s.readFlash o len
    if crc32c (b.take 24 ++ [0, 0, 0, 0] ++ b.drop 28) = leAt b 24 4 then some (leAt h 16 8, b) else none

/-- The copy a restore takes: the valid copy with the higher SEQ, copy 0 at equal SEQ (R447). -/
def State.ckptBest (s : State) : Option (Nat × Nat × List Byte) :=
  match s.ckptValid 0, s.ckptValid 1 with
  | some a, some b => if a.1 < b.1 then some (1, b) else some (0, a)
  | some a, none => some (0, a)
  | none, some b => some (1, b)
  | none, none => none

/-- The guests of a copy, cut from its bytes; `n` bounds their count. -/
def ckptGuests : Nat → List Byte → List Snap
  | 0, _ => []
  | n + 1, b =>
    let il := leAt b 16 4
    let rl := leAt b 20 4
    let ip := ceilDiv il 64 * 64
    ⟨leAt b 0 1, leAt b 1 1, leAt b 2 2, leAt b 4 1 == 2, leAt b 8 2, leAt b 10 2, leAt b 12 2, (b.drop 64).take il,
      ((b.drop (64 + ip)).take rl)⟩ :: ckptGuests n (b.drop (64 + ip + ceilDiv rl 64 * 64))

/-- The copy that a checkpoint writes: the one not in force, or copy 0 when neither is valid (R446). CKPT_SEQ is 0 while no
copy is in force. (DEDUCED, log 104). -/
def State.ckptTarget (s : State) : Nat :=
  if s.rd2 .flash FLASH.CKPT_SEQ_LO = 0 then 0 else 1 - s.rdf .flash FLASH.CKPT_STS 24 24

/-- A kept CKPT record (R448). -/
def State.ckptRecord (s : State) (code copy len seq : Nat) : State :=
  s.emit .flash 0x0B1 0 (leBytes 1 code ++ leBytes 1 copy ++ [0, 0] ++ leBytes 4 (len % 2 ^ 32) ++ leBytes 8 seq)

/-- SEQ of the copy that the next checkpoint writes. -/
def State.ckptSeq (s : State) : Nat := s.rd2 .flash FLASH.CKPT_SEQ_LO + 1

/-- A checkpoint in progress ends FAILED with a code, and a kept CKPT record (R446, R448). -/
def State.ckptFail (s : State) (code : Nat) : State :=
  let s := (s.wrf .flash FLASH.CKPT_STS 7 0 code).raise .flash 18
  let s := s.ckptRecord code s.ckptTarget s.ckptLen s.ckptSeq
  { s with ckpt := { state := 5 } }

/-- The registers of the copy in force (R452). -/
def State.showCopy (s : State) : State :=
  match s.ckptBest with
  | some (c, seq, b) =>
    ((s.wrf .flash FLASH.CKPT_STS 24 24 c).wr2 .flash FLASH.CKPT_SEQ_LO seq).wr2 .flash FLASH.CKPT_LEN_LO b.length
  | none => s

end Sys2Proof.Machine
end

