-- ==== Sys2Proof/Machine/GuestCmd.lean ====
section
/-! DEFINITION. Sys2Proof/Machine/GuestCmd.lean: the checks and the effect of guest commands, patch sets and publication entries,
acting alone or at the cycle index that the active names (R200, R242 to R251, R274, R276). -/
namespace Sys2Proof.Machine

abbrev E_MIRROR : Nat := 0x48
abbrev E_ROLE : Nat := 0x49
abbrev E_CFGDIFF : Nat := 0x4A
abbrev E_DRAMUE : Nat := 0x80

/-- The first start tick of a class, on the unit's own time line, at least `ns` after now (R248, R249, R274). -/
def State.startAfter (s : State) (n ns : Nat) : Nat := startTickFrom n (ceilTick (s.clockF + ns * nsU) - s.kTicks n)

/-! ### Checks (R200, R242, R243, R276) -/

/-- Whether the table of R242 takes a command in a guest's state. (DEDUCED, log 62). -/
def pairing (op : Nat) : Option Guest → Bool
  | none => op == 1
  | some x =>
    match x.st, op with
    | .loaded, 2 => true
    | .loaded, 4 => x.exchanged
    | .loaded, 6 => true
    | .running, 3 => true
    | .stopped, 4 | .stopped, 5 | .stopped, 6 | .stopped, 7 => true
    | .halted, 4 | .halted, 5 | .halted, 6 | .halted, 7 => true
    | _, 3 => x.runPend.isSome
    | _, _ => false

/-- A cell of a guest is quarantined, or its block is isolated (R30, R243). -/
def State.cellOut (s : State) (x : Guest) : Bool :=
  s.isolated (.exb x.exb) || s.isolated (.pcache x.exb) ||
    (List.range 16).any (fun i => x.mask.testBit i && s.quarantined (.exb x.exb) i)

/-- The placement checks of R200 for guest `g` on a block; nothing is placed on a block out of service (R30). -/
def State.placement (s : State) (g exb mask : Nat) (m : Image) : Option Nat :=
  let others := s.guests.filter (fun e => e.1 != g)
  if mask = 0 ∨ m.n < 3 ∨ 65535 < m.n ∨ m.budget = 0 then some E_RANGE
  else if s.isolated (.exb exb) ∨ s.isolated (.pcache exb) ∨
      (List.range 16).any (fun i => mask.testBit i && s.quarantined (.exb exb) i) then some E_LOCKED
  else if others.any (fun e => e.2.exb == exb && e.2.mask &&& mask != 0) then some E_CONFLICT
  else if m.outs.any (fun o => s.streamLine (o.point / 8) ||
      others.any (fun e => e.2.img.outs.any (fun q => q.point / 8 == o.point / 8))) then some E_CONFLICT
  else if budgetMax m.n < m.budget then some E_WINDOW
  else if shortLen m.n ≠ 0 ∧ budgetMax (shortLen m.n) < m.budget then some E_SHORT
  else if 12288 < (m.lines (s.blockLines exb g)).length ∨ 8192 < s.blockSum exb g (fun x => x.img.xch) + m.xch then some E_PIN
  else if 7680 < s.blockSum exb g (fun x => x.img.inPoints) + m.inPoints ∨
      7680 < s.blockSum exb g (fun x => x.img.outs.length) + m.outs.length then some E_BUDGET
  else none

/-- Length of the last cycle of a second. -/
def lastLen (n : Nat) : Nat := if shortLen n = 0 then n else shortLen n

/-- The mirror admission of an image (R276). -/
def State.mirrorOk (s : State) (g exb : Nat) (m : Image) : Bool :=
  match s.allow g with
  | none => false
  | some (inp, _, e, n) => n == m.n && e == exb && decide (m.inPoints ≤ inp) &&
      (isFast m.n || decide (m.budget ≤ budgetMax (lastLen m.n - 12)))

/-- Every loaded guest passes the mirror admission (R276, R280). -/
def State.allMirrorOk (s : State) : Bool := s.guests.all (fun e => s.mirrorOk e.1 e.2.exb e.2.img)

/-- A checkpoint is past its snapshot request (R446). -/
def State.ckptHolds (s : State) : Bool := s.ckpt.state == 2 || s.ckpt.state == 3

/-- The bytes of a LOAD or EXCHANGE image in DRAM. -/
def State.imageAt (s : State) (a : Nat) : List Byte :=
  let len := s.leMem (a + 8) 4
  s.readMem a (if 64 ≤ len ∧ len ≤ 8388608 then len else 64)

/-- The checks of R243 in order: the first that fails. (DEDUCED, log 62). -/
def State.gcmdCheck (s : State) (op g exb mask : Nat) (bytes : List Byte) : Option Nat :=
  let on : Bool := match s.guest g with | some x => x.exb == exb | none => false
  let place := op = 1 ∨ op = 7
  let m := s.role.mode
  if op = 0 ∨ g = 0 then some E_RANGE
  else if m = .safe ∨ m = .coldStandby ∨ m = .resync ∨ s.standbyWithHinge ∨ (on ∧ ¬ pairing op (s.guest g)) then some E_MODE
  else if op = 1 ∧ (s.guest g).isSome then some E_CONFLICT
  else if op ≠ 1 ∧ ¬ on then some E_ORPHAN
  else if (place ∨ op = 6) ∧ (s.ckptHolds ∨ s.mirrorOwed .resync) then some E_BUSY
  else
    let img := if place then
        match checkImage bytes with
        | .error c => some c
        | .ok i =>
          if i.cells ≠ popBits 16 mask then some E_CONFLICT
          else match s.placement g exb mask i with
          | some c => some c
          | none => if (s.mirrorOwed .hotStandby ∨ s.mirrorOwed .resync) ∧ ¬ s.mirrorOk g exb i then some E_MIRROR else none
      else none
    match img with
    | some c => some c
    | none =>
      match s.guest g with
      | none => none
      | some x =>
        if (op = 2 ∨ op = 4 ∨ op = 5) ∧ s.cellOut x then some E_LOCKED
        else if (op = 2 ∨ op = 4 ∨ op = 5) ∧ (s.poisoned (s.imgStore g) x.img.len ∨
            (op = 4 ∧ s.poisoned (s.retStore g) (retLen x.storeRets))) then some E_DRAMUE
        else none
where
  /-- Ones in the low bits of a mask. -/
  popBits : Nat → Nat → Nat
    | 0, _ => 0
    | n + 1, v => v % 2 + popBits n (v / 2)

/-! ### Effects (R242, R245, R249) -/

/-- The GUEST_CMD record (R254, R371). -/
def State.cmdRecord (s : State) (op g exb : Nat) (idx : Nat × Nat) (build : Nat) : State :=
  s.emit (.exb exb) 0x040 g
    (leBytes 1 op ++ leBytes 1 exb ++ [0, 0] ++ leBytes 4 idx.2 ++ leBytes 6 idx.1 ++ [0, 0] ++ leBytes 8 build)

/-- Place an image for a guest (LOAD, EXCHANGE): image store, cells, LOADED. -/
def State.placeGuest (s : State) (g exb mask : Nat) (bytes : List Byte) (old : Option Guest) : State :=
  let m := parse bytes
  let s := match old with
    | some x => x.cellList.foldl (fun (t : State) c => t.setCell c {}) s
    | none => s
  let s := s.writeMem (s.imgStore g) bytes
  let x : Guest := {
    exb := exb, mask := mask, img := m, st := .loaded, exchanged := old.isSome,
    storeRets := (match old with | some y => y.storeRets | none => m.rets), degraded := (match old with | some y => y.degraded | none => false) }
  (s.setGuest g x).loadCells g x

/-- A mode in which a restart has a start tick (R245, R249). -/
def State.restartsRun (s : State) : Bool := s.role.mode = .active || s.role.mode = .hotStandby || s.role.mode = .test

/-- A restart at an absolute tick of the class; in CONFIGURE, or in a mode in which no guest runs, it stays pending
(R245). -/
def State.askRestart (s : State) (g : Nat) (x : Guest) (warm : Bool) (tick : Nat) : State :=
  if s.restartsRun then
    s.setGuest g { x with restart := some ⟨warm, tick⟩ }
  else s.setGuest g { x with runPend := some warm }

/-- The effect of an accepted guest command, named by its index (S, C). -/
def State.guestCmd (s : State) (op g exb mask : Nat) (bytes : List Byte) (idx : Nat × Nat) : State :=
  match op, s.guest g with
  | 1, none => (s.placeGuest g exb mask bytes none).cmdRecord op g exb idx (leAt bytes 0x20 8)
  | 7, some x => (s.placeGuest g exb mask bytes (some x)).cmdRecord op g exb idx (leAt bytes 0x20 8)
  | 2, some x => (s.askRestart g x false (cycleTick x.img.n idx.1 idx.2)).cmdRecord op g exb idx x.img.build
  | 4, some x => (s.askRestart g x true (cycleTick x.img.n idx.1 idx.2)).cmdRecord op g exb idx x.img.build
  | 5, some x => (s.askRestart g x false (cycleTick x.img.n idx.1 idx.2)).cmdRecord op g exb idx x.img.build
  | 3, some x =>
    let s := if x.st = .running then s.setGuest g { x with stopReq := true, runPend := none }
      else s.setGuest g { x with runPend := none, restart := none }
    s.cmdRecord op g exb idx x.img.build
  | 6, some x => (s.unloadGuest g).cmdRecord op g exb idx x.img.build
  | _, _ => s

/-! ### CONTROL frames (R258, R274) -/

/-- Send a CONTROL frame and keep it until it is acknowledged. (DEDUCED, log 46). -/
def State.ctlSend (s : State) (g : Nat) (idx : Nat × Nat) (b : CtlBody) : State :=
  let q := s.hinge.ctlSeq
  let f : HBody := .control q g idx.2 idx.1 b
  let s : State := { s with hinge := { s.hinge with ctlSeq := (q + 1) % 2 ^ 32, wait := s.hinge.wait ++ [⟨q, ⟨3, 0, f⟩, 1⟩] } }
  s.sendHinge 3 0 f

/-- Send a cycle image in chunks that fit a CONTROL body (R258, R274); `fuel` counts chunks. -/
def State.ctlImage (s : State) (g ofs : Nat) (idx : Nat × Nat) (bytes : List Byte) : Nat → State
  | 0 => s
  | n + 1 =>
    if bytes = [] then s
    else State.ctlImage (s.ctlSend g idx (.image ofs (bytes.take 1008))) g (ofs + 1008) idx (bytes.drop 1008) n

/-- A command, set or entry that waits for a cycle index (R244, R274). -/
def State.wait (s : State) (g : Nat) (idx : Nat × Nat) (b : CtlBody) : State :=
  { s with hinge := { s.hinge with later := s.hinge.later ++ [⟨g, idx.2, idx.1, b⟩] } }

/-- The image that CONTROL frames carried for a guest. -/
def State.ctlBytes (s : State) (g : Nat) : List Byte :=
  ((Tbl.get [] g s.hinge.img).foldl (fun t e => putBytes t e.1 e.2) []) |> fun t =>
    let len := ofLe (tblBytes t 8 4)
    tblBytes t 0 (if 64 ≤ len ∧ len ≤ 8388608 then len else 64)

/-- A standby that cannot act at the named index: DEGRADED, and that guest's frames are suppressed until the next RESYNC
(R274). -/
def State.degrade (s : State) (g : Nat) : State :=
  (s.modGuest g (fun x => { x with degraded := true })).setFlags (fun r => { r with degraded := true })

/-- The period of the class in which a waiting command's index counts. -/
def State.classOf (s : State) (p : CtlPending) : Nat :=
  match s.guest p.guest, p.body with
  | _, .cmd 7 _ _ | _, .cmd 1 _ _ => max 3 (leAt (s.ctlBytes p.guest) 0x10 2)
  | some x, _ => x.img.n
  | none, _ => 3

/-- A waiting command takes effect. On a standby a placement that fails, or a command its guest cannot take, degrades it.
(DEDUCED, log 46). -/
def State.act (s : State) (p : CtlPending) : State :=
  match p.body with
  | .cmd op mask exb =>
    let bytes := s.ctlBytes p.guest
    let bad := if op = 1 ∨ op = 7 then
        (match checkImage bytes with | .error _ => true | .ok m => (s.placement p.guest exb mask m).isSome) else
        (s.guest p.guest).isNone
    let s' : State := { s with hinge := { s.hinge with img := if op = 1 ∨ op = 7 then Tbl.del p.guest s.hinge.img else s.hinge.img } }
    if bad then if s.role.mode = .active ∨ s.role.mode = .resync then s' else s'.degrade p.guest
    else s'.guestCmd op p.guest exb mask bytes (p.s, p.c)
  | .allow lo hi => s.setAllow p.guest lo hi
  | .pub i e => { s with pubAccept := s.pubAccept ++ [(i, e)] }
  | _ => s

/-- Commands whose index has come take effect, oldest first (R244). Their restarts are placed at the index itself. -/
def State.applyLater (s : State) : State :=
  let due := s.hinge.later.filter (fun p =>
    let n := s.classOf p
    match p.body with
    | .cmd 2 _ _ | .cmd 4 _ _ | .cmd 5 _ _ => true
    | _ => !cycLt (cycleAt n (s.classTick n)) (p.s, p.c))
  if due = [] then s
  else due.foldl (fun t p => t.act p) { s with hinge := { s.hinge with later := s.hinge.later.filter (fun p => !due.contains p) } }

/-- Carry out an accepted guest command: alone at once, or on a mirrored active by CONTROL frames at a cycle index whose start
tick lies at least 200 µs, for a restart 500 µs, after now (R244, R249, R274). A restart that stays pending takes effect in the cycle
in progress, as RUN_PEND (R245, R254). -/
def State.carryOut (s : State) (op g exb mask : Nat) (bytes : List Byte) : State :=
  let n := match s.guest g with
    | some x => if op = 7 then max 3 (leAt bytes 0x10 2) else x.img.n
    | none => max 3 (leAt bytes 0x10 2)
  let restart := op = 2 ∨ op = 4 ∨ op = 5
  let idx :=
    if restart ∧ s.restartsRun then cycleAt n (s.startAfter n 500000)
    else if s.mirrored then cycleAt n (s.startAfter n 200000) else cycleAt n (s.classTick n)
  if s.mirrored then
    let place := op = 1 ∨ op = 7
    let s := if place then s.ctlImage g 0 idx bytes 8400 else s
    let s := s.ctlSend g idx (.cmd op mask exb)
    let s : State := if place then { s with hinge := { s.hinge with img := Tbl.put g [(0, bytes)] s.hinge.img } } else s
    s.wait g idx (.cmd op mask exb)
  else s.guestCmd op g exb mask bytes idx

/-! ### Patch sets (R246 to R248) -/

/-- The entries of a patch set in DRAM. -/
def State.patchWords (s : State) (a n : Nat) : List Nat := (List.range n).map (fun i => s.leMem (a + 16 * i) 16)
/-- Item and value of an entry. -/
def patchItem (v : Nat) : Nat × DWord := (v % 65536, BitVec.ofNat 64 (v / 2 ^ 64))

/-- Steps 1 to 3 of R247, before which no list is read. -/
def State.patchCode (s : State) (exb g n : Nat) : Option Nat :=
  if n = 0 ∨ 64 < n then some E_RANGE
  else if (Tbl.look exb s.patchPend).isSome then some E_BUSY
  else match s.guest g with
  | none => some E_MODE
  | some x => if x.st ≠ .running ∨ x.exb ≠ exb ∨ s.standbyWithHinge then some E_MODE else none

/-- The checks of R247 in order. -/
def State.patchCheck (s : State) (exb g n a : Nat) : Option Nat :=
  let l := s.patchWords a n
  let items := l.map patchItem
  match s.patchCode exb g n, s.guest g with
  | some c, _ => some c
  | none, none => some E_MODE
  | none, some x =>
    let ent := fun i => x.img.patches.find? (fun e => e.item == i)
    if l.any (fun v => v / 65536 % 2 ^ 48 != 0) then some E_RESERVED
    else if items.any (fun e => (ent e.1).isNone) then some E_ITEM
    else if ¬ distinct (items.map Prod.fst) then some E_CONFLICT
    else if items.any (fun e => match ent e.1 with | some p => decide (2 ^ (8 * p.width) ≤ e.2.toNat) | none => false) then
      some E_RANGE
    else none

/-- The bytes that a patch set writes: position, offset, bytes (R248). -/
def patchBytes (x : Guest) (l : List (Nat × DWord)) : List (Nat × Nat × List Byte) :=
  l.filterMap (fun e =>
    match x.img.patches.find? (fun p => p.item == e.1) with
    | some p => some (p.cell, p.ofs, leBytes p.width e.2.toNat)
    | none => none)

/-- Write patch bytes into a guest's cells; the lines become dirty (R248). -/
def State.putPatch (s : State) (x : Guest) (l : List (Nat × Nat × List Byte)) : State :=
  l.foldl (fun t e => let c := x.cellAt e.1; t.setCell c ((t.cell c).store e.2.1 e.2.2)) s

end Sys2Proof.Machine
end

