-- ==== Sys2Proof/Machine/Cycle.lean ====
section
/-! DEFINITION. Sys2Proof/Machine/Cycle.lean: a guest's cycle (R202 to R213, R240, R248, R249, R270 to R273, R277): its start,
the close of its freeze window, its commit deadline and its commit point. -/
namespace Sys2Proof.Machine

/-- Modes in which guests run (R293). -/
def State.runs (s : State) : Bool := s.role.mode = .active || s.role.mode = .hotStandby || s.role.mode = .test

/-- Key of entry `i` of the input list of position `p` in a frozen image. -/
def inKey (p i : Nat) : Nat := p * 65536 + i

/-- The frozen input image of a guest at absolute tick `t` (R207). -/
def State.freeze (s : State) (x : Guest) (t : Nat) : Tbl DWord :=
  x.img.inputs.foldl (fun a n =>
    (n.points.zip (List.range n.points.length)).foldl (fun a e => Tbl.set 0 (inKey n.cell e.2) (s.pointAt t e.1) a) a) []

/-- Uncorrectable errors that the fill of a guest's pinned lines meets, on its first freeze since RUNNING (R438, R439). -/
def State.fillErrors (s : State) (x : Guest) : State :=
  if s.poison = [] ∨ ¬ x.first then s
  else (x.img.lines []).foldl (fun t l => t.ueRange (t.pointAddr (8 * l)) 64 0) s

/-- The block's largest copy in ns, 16 points per CLK_FAB cycle of 1.25 ns: at one instant the mover copies `points` of every guest
of the block that `with_` names (R207, R220). -/
def State.movePeak (s : State) (exb : Nat) (points : Guest → Nat) (with_ : Guest → Bool) : State :=
  let n := ((s.guests.filter (fun e => e.2.exb == exb && with_ e.2)).map (fun e => points e.2)).foldl (· + ·) 0
  let ns := ceilDiv (ceilDiv n 16 * 5) 4
  if s.rdf (.pcache exb) PCACHE.MOVE_PEAK 9 0 < ns then s.wrn (.pcache exb) PCACHE.MOVE_PEAK (min ns 1023) else s

/-- A pending patch set whose apply cycle has come is written during the freeze window (R248); on the active it goes to the
standby when it is accepted (R274). -/
def State.applyPatch (s : State) (g : Nat) (x : Guest) (t c : Nat) : State :=
  match Tbl.look x.exb s.patchPend with
  | none => s
  | some p =>
    if p.guest = g ∧ p.tick.any (fun k => !cycLt (cycleAt x.img.n t) (cycleAt x.img.n k)) then
      let l := patchBytes x p.entries
      let s := (s.putPatch x l).modGuest g (fun y => { y with patched := l })
      let s := (s.wrn (.exb x.exb) EXB.PATCH_STS (2 ^ 30 + g * 256)).wrn (.exb x.exb) EXB.PATCH_APPLIED_C c
      { s with patchPend := Tbl.del x.exb s.patchPend }
    else s

/-- The restart that lets a guest enter RUNNING at this start tick (R245, R249): WARM or COLD; none while its block or its point
cache is stopped (R46), or one of its cells is out of service (R30). -/
def State.restartDue (s : State) (x : Guest) (t : Nat) : Option Bool :=
  if ¬ s.runs ∨ x.st = .running ∨ ¬ s.working (.exb x.exb) ∨ ¬ s.working (.pcache x.exb) ∨ s.cellOut x then none
  else match x.restart with
  | some r => if cycLt (cycleAt x.img.n t) (cycleAt x.img.n r.tick) then none else some r.warm
  | none => x.runPend

/-- Whether a waiting body is an allowance entry. -/
def isAllow : CtlBody → Bool
  | .allow _ _ => true
  | _ => false

/-- The effect of a start tick on guest `g` (R207, R245, R248, R249): commands whose index has come, entry to RUNNING, the
snapshot of its inputs, a pending patch set. Between start ticks nothing starts. -/
def State.cycleStart (s : State) (g : Nat) : State :=
  let s := s.applyLater
  match s.guest g with
  | none => s
  | some x =>
    let n := x.img.n
    let t := s.classTick n
    let i := cycleAt n t
    let at_ := decide (t = cycleTick n i.1 i.2)
    let due := if at_ then s.restartDue x t else none
    let s := match due with | some w => s.enterRunning g x w | none => s
    match s.guest g with
    | none => s
    | some x =>
      if ¬ at_ ∨ x.st ≠ .running ∨ x.phase ≠ .idle ∨ ¬ s.runs ∨ (due.isNone ∧ ¬ cycLt (x.lastS, x.lastC) i ∧ ¬ x.first) then s
      else
        let began := s.time.elapsed - (s.time.clock - s.instantOf n t)
        let s := s.fillErrors x
        let s := s.setGuest g { x with
          phase := .freeze, cycS := i.1, cycC := i.2, cycLen := cycleLen n i.2,
          frozen := s.freeze x s.tickF, staged := [], fail := 0, progFault := false, late := false, mute := false,
          patched := [], execCyc := 0, longer := false, cpTick := t + cycleLen n i.2,
          began := began,
          linesMax := if s.hinge.later.any (fun p => p.guest == g && isAllow p.body) then x.linesMax
            else (s.allow g).map (fun a => a.2.1) }
        let s := s.movePeak x.exb (fun y => y.img.inPoints) (fun y => y.phase == .freeze && y.began == began)
        match s.guest g with
        | some y => s.applyPatch g y t i.2
        | none => s

/-- CYCLE_START (R207): the start tick of guest `g` is reached. -/
def execCycleStart (g : Nat) (s : State) : Result := done s (s.cycleStart g)

/-- The IMAGE frames of a frozen image: up to 128 points of one position each (R258, R272). -/
def State.sendImages (s : State) (g : Nat) (x : Guest) : State :=
  x.img.inputs.foldl (fun t n =>
    (List.range (ceilDiv n.points.length 128)).foldl (fun t k =>
      let m := min 128 (n.points.length - 128 * k)
      t.sendHinge (cyclePrio x.img.n) 0 (.image g n.cell (128 * k) x.cycC x.cycS
        ((List.range m).map (fun j => Tbl.get 0 (inKey n.cell (128 * k + j)) x.frozen)))) t) s

/-- What the standby holds of a cycle. -/
def Guest.rxOf (x : Guest) (sc cc : Nat) : Option MirrorRx := x.rx.find? (fun r => r.s == sc && r.c == cc)

/-- Whether every point of the input lists arrived (R272). -/
def imageWhole (x : Guest) (r : MirrorRx) : Bool :=
  x.img.inputs.all (fun n => (List.range n.points.length).all (fun i => (Tbl.look (inKey n.cell i) r.image).isSome))

/-- The cycle before (S, C) of a class. -/
def prevCycle (n : Nat) (i : Nat × Nat) : Nat × Nat :=
  if i.2 = 0 then (i.1 - 1, cyclesPerSec n - 1) else (i.1, i.2 - 1)

/-- The standby writes the mirrored lines of the previous cycle over its own, counting and recording a difference, or counts
them late (R272, R273); in its first cycle after RESYNC it has taken them as they came (R283). -/
def State.mirrorLines (s : State) (g : Nat) (x : Guest) : State :=
  if x.first then s
  else if x.joining then
    if (x.lastS, x.lastC) = prevCycle x.img.n (x.cycS, x.cycC) then s else (s.bump .hinge HINGE.LINES_LATE).raise .hinge 18
  else match x.rxOf x.lastS x.lastC with
  | some r =>
    if r.linesDone then
      let diff := (r.lines.filter (fun m => s.lineDiffers x m)).length
      let s := r.lines.foldl (fun t m =>
        match t.guest g with
        | some y =>
          let t := t.putLine g y m
          if m.xch then t else t.retainLine g m.pos m.line m.bytes y.storeRets
        | none => t) s
      if diff = 0 then s
      else ((s.bumpBy .hinge HINGE.DIVERGE diff).raise .hinge 19).emit .hinge 0x051 g
        (leBytes 4 x.lastC ++ leBytes 6 x.lastS ++ leBytes 2 diff)
    else (s.bump .hinge HINGE.LINES_LATE).raise .hinge 18
  | none => (s.bump .hinge HINGE.LINES_LATE).raise .hinge 18

/-- Start execution on a cell: registers, vectors, FPS, PC and the cycle counter are 0 (R195, R229). -/
def startCell (x : Cell) : Cell :=
  { x with g := [], v := [], fps := 0, pc := 0, cyc := 0, lastPc := none, run := .running, endCyc := 0 }

/-- Length of the freeze and of the commit window in units of 2^-32 ns (R202). -/
def windowU : Nat := 800 * nsU

/-- The effect of the close of the freeze window (R203, R207, R229, R272, R273), 0.8 µs after the start tick. -/
def State.freezeClose (s : State) (g : Nat) : State :=
  match s.guest g with
  | none => s
  | some x =>
    if x.st ≠ .running ∨ x.phase ≠ .freeze ∨ s.time.elapsed < x.began + windowU then s
    else
      let got := (x.rxOf x.lastS x.lastC).any (fun r => r.linesDone)
      let s := if s.follows || (decide (s.role.mode = .active) && got) then s.mirrorLines g x else s
      let s := s.putPatch x x.patched
      let rx := if s.follows then x.rxOf x.cycS x.cycC else none
      let whole := match rx with | some r => imageWhole x r | none => false
      let s := if s.follows && !whole then (s.bump .hinge HINGE.IMG_ABSENT).raise .hinge 17 else s
      let image := match rx with | some r => if whole then r.image else x.frozen | none => x.frozen
      let s := x.img.inputs.foldl (fun t n =>
        let c := x.cellAt n.cell
        let d := (List.range n.points.length).foldl (fun d i =>
          putBytes d (n.target + 8 * i) (leBytes 8 (Tbl.get 0 (inKey n.cell i) image).toNat)) (t.cell c).dsram
        t.setCell c { t.cell c with dsram := d }) s
      let s := if bit (s.rd (.exb x.exb) HDR.PAGE_CTL) 0 then
          x.cellList.foldl (fun t c => t.setCell c (startCell (t.cell c))) s
        else s
      let s := s.modGuest g (fun y => { y with phase := .execute, frozen := image, joining := false })
      if s.mirrorsTo .hotStandby then s.sendImages g { x with frozen := image } else s

/-- The unit's own watchdog on a cycle (R211, R212, R277): HALT_CAUSE, 0 within budget. (DEDUCED, log 63). -/
def State.watchdog (s : State) (x : Guest) : Nat :=
  let cells := x.cellList.map s.cell
  let exec := cells.foldl (fun a c => max a c.endCyc) 0
  if x.progFault then 3
  else if cells.any (fun c => c.run ≠ .finished) then 1
  else if x.img.budget < exec then 2
  else match x.linesMax with
  | some lines => if lines < (s.dirtyLines x).length then 6 else 0
  | none => 0

/-- Count and raise a watchdog outcome on the block and the guest's cells (R217, R219). (DEDUCED, log 63). -/
def State.countFail (s : State) (x : Guest) (cause : Nat) : State :=
  let p : Page := .exb x.exb
  match cause with
  | 0 => s
  | 3 => ((x.cellList.filter (fun c => s.rdf p (win (c % 16) EXBW.CELL_FAULT) 3 0 ≠ 0 && (s.cell c).run = .stopped)).foldl
      (fun t c => t.raiseCell p (c % 16) 1) ((s.bump p EXB.PROG_FAULTS).raise p 17))
  | 6 => s.raise p 16
  | _ => x.cellList.foldl (fun t c => t.raiseCell p (c % 16) 0) ((s.bump p EXB.OVERRUNS).raise p 16)

/-- CELL_EXEC and CELL_EXEC_MAX of a guest's finished cells (R219). -/
def State.countExec (s : State) (x : Guest) : State :=
  x.cellList.foldl (fun t c =>
    let y := t.cell c
    if y.run = .finished then
      let p := cellPage c
      let n := min y.endCyc 0xFFFF_FFFF
      let t := t.wrn p (win (c % 16) EXBW.CELL_EXEC) n
      if (t.rd p (win (c % 16) EXBW.CELL_EXEC_MAX)).toNat < n then t.wrn p (win (c % 16) EXBW.CELL_EXEC_MAX) n else t
    else t) s

/-- The effect of the commit deadline (R208, R211 to R213, R277), 0.8 µs before the commit point: the verdict, and the staging of the
outputs. -/
def State.commitDeadline (s : State) (g : Nat) : State :=
  match s.guest g with
  | none => s
  | some x =>
    if x.st ≠ .running ∨ x.phase ≠ .execute ∨ cDiff (s.time.clock + windowU) (s.instantOf x.img.n x.cpTick) < 0 then s
    else
      let own := s.watchdog x
      let verdict := if s.follows || decide (s.role.mode = .active) then
          (x.rxOf x.cycS x.cycC).bind (fun r => r.verdict) else none
      let cause := verdict.getD own
      let late := verdict = some 0 ∧ own ≠ 0
      let exec := s.cycles x
      let s := (s.countFail x cause).countExec x
      let s := if late then
          x.cellList.foldl (fun t c => if (t.cell c).run = .finished then t else t.raiseCell (.exb x.exb) (c % 16) 2)
            ((s.bump (.exb x.exb) EXB.LOCAL_LATE).raise (.exb x.exb) 18)
        else s
      let s := if cause ≠ 0 then s.stopCells x else s
      let s := s.setGuest g { x with
        phase := .commit, fail := cause, late := decide late, execCyc := exec,
        staged := if cause = 0 ∧ ¬ late then s.outputs x else [] }
      let s := s.movePeak x.exb (fun y => y.img.outs.length) (fun y =>
        y.phase == .commit && s.instantOf y.img.n y.cpTick == s.instantOf x.img.n x.cpTick)
      if s.mirrorsTo .hotStandby then s.sendHinge 2 0 (.verdict g cause x.cycC x.cycS) else s

/-- The outputs of a late standby guest from the mirrored lines of the cycle (R213). -/
def State.lateOutputs (s : State) (x : Guest) (r : MirrorRx) : List (Nat × DWord) :=
  x.img.outs.map (fun e =>
    let v := match r.lines.find? (fun m => !m.xch && m.pos == e.cell && m.line == e.ofs / 64) with
      | some m => ofLe ((m.bytes.drop (e.ofs % 64)).take 8)
      | none => ofLe (tblBytes (s.cell (x.cellAt e.cell)).dsram e.ofs 8)
    (e.point, s.outValue e (BitVec.ofNat 64 v)))

/-- LINES frames of at most 14 lines each, for a cycle; `n` bounds their count (R258). -/
def State.sendLines (s : State) (g : Nat) (x : Guest) (cseq : Nat) : Nat → List MLine → State
  | 0, _ => s
  | n + 1, l =>
    if l = [] then s
    else State.sendLines (s.sendHinge (cyclePrio x.img.n) cseq (.lines g x.cycC x.cycS (l.take 14))) g x cseq n (l.drop 14)

/-- The outcome of comparing the standby's digest with the active's for a cycle: a mismatch degrades the guest, and with
AUTO_RESYNC the standby goes to RESYNC at the next top of second (R273). -/
def State.compareDigest (s : State) (g : Nat) (mine theirs : Nat) : State :=
  if mine = theirs then s
  else
    let s := s.degrade g
    if bit (s.rd .role ROLE.ROLE_CTL) 0 then { s with role := { s.role with resyncNext := true } } else s

/-- Where the staging buffer holds a guest's retained store (R442, R446). -/
def State.stageAt (s : State) (g : Nat) : Nat := s.gstore + 2415919104 + (g - 1) * 1048576

/-- A guest's checkpoint snapshot, at its first commit point at or after the snapshot second (R446); an uncorrectable error
in its stores ends the checkpoint (R439). (DEDUCED, log 85). -/
def State.snapGuest (s : State) (g : Nat) : State :=
  match s.guest g, s.ckpt.second with
  | some x, some sec =>
    let len := retLen x.storeRets
    if ¬ (s.ckpt.state = 2 ∧ s.ckpt.todo.contains g ∧ 288000 * sec ≤ s.tickF) then s
    else if s.poisoned (s.imgStore g) x.img.len ∨ s.poisoned (s.retStore g) len then
      ((s.ueRange (s.imgStore g) x.img.len 8).ueRange (s.retStore g) len 8).ckptFail 0x80
    else
      let a := s.allow g
      let addrs := (s.pubs.filter (fun e => e.2.entry.guest == g)).map (fun e => e.2.entry.srcIdx)
      let ret := s.readMem (s.retStore g) len
      let n : Snap := ⟨g, x.exb, x.mask, decide (x.st = .running), x.img.n, (match a with | some v => v.1 | none => 0),
        (match a with | some v => v.2.1 | none => 0), s.readMem (s.imgStore g) x.img.len, ret⟩
      let s := s.writeMem (s.stageAt g) ret
      let todo := s.ckpt.todo.filter (fun h => h != g)
      { s with ckpt := { s.ckpt with
          snaps := s.ckpt.snaps ++ [n], todo := todo, state := if todo = [] then 3 else 2,
          counts := addrs.foldl (fun t i => Tbl.set 0 i (Tbl.get 0 i s.addrCount) t) s.ckpt.counts,
          pubs := s.ckpt.pubs ++ (s.pubs.filter (fun e => e.2.entry.guest == g)).map
            (fun e => (e.1, g, e.2.stNum, e.2.count)) } }
  | _, _ => s

/-- The commit point that a guest has reached and not passed yet, as a tick of its class (R80, R202, R242): that of its cycle in
progress, which commits once the commit window is open; between cycles the latest start tick. -/
def State.cpOf (s : State) (x : Guest) : Option Nat :=
  let n := x.img.n
  let i := cycleAt n (s.classTick n)
  let k := if x.phase = .idle then cycleTick n i.1 i.2 else x.cpTick
  if cDiff s.time.clock (s.instantOf n k) < 0 ∨ (x.st = .running ∧ x.phase ≠ .commit) then none
  else if x.lastCp.any (fun l => !cycLt (cycleAt n l) (cycleAt n k)) then none
  else some k

/-- The commit of one guest at its commit point (R208 to R213, R240, R242): its outputs or safe values, its lines, its
publications. `t` is the unit's grid tick of this instant, `grid` the commit point's tick and `cseq` the commit sequence. -/
def State.commitGuest (s : State) (t cseq g grid : Nat) : State :=
  match s.guest g with
  | none => s
  | some x =>
    let n := x.img.n
    if x.st = .running then
      let idx := (x.cycS, x.cycC)
      let rx := if x.late then x.rxOf x.cycS x.cycC else none
      let fail := x.fail ≠ 0
      -- outputs
      let outs := if fail then s.safes x
        else if x.late then (match rx with | some r => if r.linesDone then s.lateOutputs x r else [] | none => [])
        else x.staged
      let mute := x.late && !(match rx with | some r => r.linesDone | none => false)
      let s := s.commitPoints t x.exb outs
      -- dirty lines
      let lines := if fail then [] else s.dirtyLines x
      let s := if x.storeFresh && !fail then s.retainAll g x
        else (lines.filter (fun m => !m.xch)).foldl (fun a m => a.retainLine g m.pos m.line m.bytes x.storeRets) s
      let s := s.clearDirty g x
      let s := if s.mirrored then s.sendLines g x cseq (lines.length + 1) lines else s
      -- the guest
      let s := s.modGuest g (fun y => { y with
        phase := .idle, lastS := idx.1, lastC := idx.2, first := false, staged := [], mute := mute,
        stepped := y.longer, longer := false, lastCp := some grid,
        storeRets := if x.storeFresh && !fail then x.img.rets else y.storeRets,
        storeFresh := if fail then y.storeFresh else false,
        rx := y.rx.filter (fun r => !cycLt (r.s, r.c) idx) })
      let s := if fail then s.haltGuest g x.fail x.execCyc else s
      let s := if fail then s.modGuest g (fun y => { y with safeDue := false }) else s
      let s := if x.stopReq && !fail then
          (s.stopCells x).modGuest g (fun y => { y with st := .stopped, stopReq := false, safeDue := true }) else s
      let s := if x.stopReq && !fail then (match s.guest g with | some y => s.dropPatch g y | none => s) else s
      -- publications
      let s := match s.guest g with | some y => s.publish g y idx.2 grid | none => s
      let s := s.modGuest g (fun y => { y with mute := false, left := s.role.leaving })
      let dig := s.egrDigest g
      if s.mirrored then
        s.sendHinge (cyclePrio n) cseq (.commit g (syncCode s.time.sync) (ceilDiv lines.length 14) idx.2 idx.1 dig)
      else if s.follows then
        let s := s.modGuest g (fun y => { y with ownDigest := some (idx.1, idx.2, dig) })
        match (x.rxOf idx.1 idx.2).bind (fun r => r.digest) with
        | some d => s.compareDigest g dig d
        | none => s
      else s
    else
      let s := if x.safeDue || s.role.mode = .safe then s.commitPoints t x.exb (s.safes x) else s
      let s := s.modGuest g (fun y => { y with phase := .idle, safeDue := false, longer := false, lastCp := some grid })
      let s := if x.phase ≠ .idle then s.clearDirty g x else s
      let s := match s.guest g with | some y => s.publish g y (prevCycle n (cycleAt n grid)).2 grid | none => s
      let s := s.modGuest g (fun y => { y with left := s.role.leaving })
      if s.mirrored then
        let i := prevCycle n (cycleAt n grid)
        s.sendHinge (cyclePrio n) cseq (.commit g (syncCode s.time.sync) 0 i.2 i.1 (s.egrDigest g))
      else s

/-- The effect of an instant at which the guests `gs` reach their commit points: the commit sequence advances by 1, they all
commit, and their snapshots follow (R208, R257, R446). -/
def State.commitPoint (s : State) (gs : List Nat) : State :=
  let s := s.applyLater
  let gs := gs.filterMap (fun g => (s.guest g).bind (fun x => (s.cpOf x).map (fun k => (g, k))))
  if gs = [] then s
  else
    let q := s.hinge.cseq + 1
    let t := s.tickF
    let s : State := { s with hinge := { s.hinge with cseq := q } }
    let s := gs.foldl (fun a e => a.commitGuest t q e.1 e.2) s
    gs.foldl (fun a e => a.snapGuest e.1) s

end Sys2Proof.Machine
end

