-- ==== Sys2Proof/Machine/Ckpt.lean ====
section
/-! DEFINITION. Sys2Proof/Machine/Ckpt.lean: the start of a checkpoint and a restore (R446, R447). -/
namespace Sys2Proof.Machine

/-- Place a checkpoint guest as LOAD does (R447); a placement that fails is skipped and counted. -/
def State.restoreGuest (s : State) (n : Snap) : State :=
  let bad := match checkImage n.image with
    | .error _ => true
    | .ok m => m.cells != State.gcmdCheck.popBits 16 n.mask || (s.placement n.guest n.exb n.mask m).isSome
  if bad then s.bumpf .flash FLASH.CKPT_STS 23 16
  else
    let s := s.placeGuest n.guest n.exb n.mask n.image none
    let s := s.writeMem (s.retStore n.guest) n.retained
    let s := if n.inPoints = 0 ∧ n.lines = 0 then s else
      s.setAllow n.guest (BitVec.ofNat 32 (n.inPoints * 65536 + n.lines)) (BitVec.ofNat 32 (2 ^ 31 + n.exb * 65536 + n.n))
    if n.running then s.modGuest n.guest (fun x => { x with runPend := some true }) else s

/-- Restore the latest valid checkpoint (R447): none where there is none. -/
def State.restore (s : State) : Option State :=
  match s.ckptBest with
  | none => none
  | some (_, _, b) =>
    let s := s.unloadAll.wrf .flash FLASH.CKPT_STS 23 16 0
    let counts := (List.range 254).foldl (fun t a => Tbl.set 0 a (leAt b (64 + 8 * a) 8) t) []
    let pubs := (List.range 4096).filterMap (fun i =>
      let o := 2112 + 16 * i
      if leAt b o 1 = 1 then some (i, leAt b (o + 1) 1, leAt b (o + 4) 4, leAt b (o + 8) 8) else none)
    let s : State := { s with addrCount := counts, restoredPubs := pubs }
    some ((ckptGuests (leAt b 6 2) (b.drop 67648)).foldl (fun t n => t.restoreGuest n) s)

/-! ### Starting a checkpoint (R446) -/

/-- GO, or the start of a periodic checkpoint: the mode and the copy length are checked; then it waits for the next top of
second. TEST gives E_MODE in every case (R300). -/
def State.ckptGo (s : State) : State :=
  if s.role.mode = .test then s.ckptFail E_MODE
  else if s.flashSize = 0 then s.ckptFail E_NOFLASH
  else if s.role.mode ≠ .active ∧ s.role.mode ≠ .hotStandby then s.ckptFail E_MODE
  else if s.ckptHalf < s.ckptLen then s.ckptFail E_CKPTSIZE
  else { s with ckpt := { state := 1 } }

/-- A top of second (R446): a waiting checkpoint takes this second for its snapshots; guests that are gone are not waited
for; CKPT_PERIOD_S starts a checkpoint, which a mode that takes none skips. -/
def State.ckptTop (s : State) : State :=
  let p := s.rdf .flash FLASH.CKPT_CTL 16 0
  if s.ckpt.state = 1 then
    { s with ckpt := { state := if s.loaded = [] then 3 else 2, second := some s.nowS, todo := s.loaded } }
  else if s.ckpt.state = 2 then
    let todo := s.ckpt.todo.filter (fun g => (s.guest g).isSome)
    { s with ckpt := { s.ckpt with todo := todo, state := if todo = [] then 3 else 2 } }
  else if s.ckptRuns ∨ p = 0 ∨ s.nowS % p ≠ 0 ∨ (s.role.mode ≠ .active ∧ s.role.mode ≠ .hotStandby) then s
  else s.ckptGo

end Sys2Proof.Machine
end

