-- ==== Sys2Proof/Machine/Crypto.lean ====
section
/-! DEFINITION. Sys2Proof/Machine/Crypto.lean: the algorithms that the spec names for the Keyring, the Ledger and the boot images:
SHA-256, HMAC-SHA256, HKDF (R346, R356), AES key wrap (R348), AES-GCM (R357), SHA-384 and ECDSA over P-384 (R302). PRESUMED from the
standards that the spec cites (FIPS 180-4, RFC 2104, RFC 5869, FIPS 197, SP 800-38F, SP 800-38D, FIPS 186-5). -/
namespace Sys2Proof.Machine

/-! ### SHA-256 -/

/-- The round constants. -/
def shaK : List (BitVec 32) :=
  [0x428a2f98, 0x71374491, 0xb5c0fbcf, 0xe9b5dba5, 0x3956c25b, 0x59f111f1, 0x923f82a4, 0xab1c5ed5,
   0xd807aa98, 0x12835b01, 0x243185be, 0x550c7dc3, 0x72be5d74, 0x80deb1fe, 0x9bdc06a7, 0xc19bf174] ++
  [0xe49b69c1, 0xefbe4786, 0x0fc19dc6, 0x240ca1cc, 0x2de92c6f, 0x4a7484aa, 0x5cb0a9dc, 0x76f988da,
   0x983e5152, 0xa831c66d, 0xb00327c8, 0xbf597fc7, 0xc6e00bf3, 0xd5a79147, 0x06ca6351, 0x14292967] ++
  [0x27b70a85, 0x2e1b2138, 0x4d2c6dfc, 0x53380d13, 0x650a7354, 0x766a0abb, 0x81c2c92e, 0x92722c85,
   0xa2bfe8a1, 0xa81a664b, 0xc24b8b70, 0xc76c51a3, 0xd192e819, 0xd6990624, 0xf40e3585, 0x106aa070] ++
  [0x19a4c116, 0x1e376c08, 0x2748774c, 0x34b0bcb5, 0x391c0cb3, 0x4ed8aa4a, 0x5b9cca4f, 0x682e6ff3,
   0x748f82ee, 0x78a5636f, 0x84c87814, 0x8cc70208, 0x90befffa, 0xa4506ceb, 0xbef9a3f7, 0xc67178f2]

def shaInit : List (BitVec 32) :=
  [0x6a09e667, 0xbb67ae85, 0x3c6ef372, 0xa54ff53a, 0x510e527f, 0x9b05688c, 0x1f83d9ab, 0x5be0cd19]

/-- The message schedule, newest word first; `n` words are added to the sixteen of the block. -/
def shaSched : Nat → List (BitVec 32) → List (BitVec 32)
  | 0, w => w
  | n + 1, w =>
    let a := w.getD 14 0
    let b := w.getD 1 0
    let s0 := a.rotateRight 7 ^^^ a.rotateRight 18 ^^^ (a >>> 3)
    let s1 := b.rotateRight 17 ^^^ b.rotateRight 19 ^^^ (b >>> 10)
    shaSched n ((w.getD 15 0 + s0 + w.getD 6 0 + s1) :: w)

/-- One round. -/
def shaRound (h : List (BitVec 32)) (kw : BitVec 32) : List (BitVec 32) :=
  match h with
  | [a, b, c, d, e, f, g, x] =>
    let t1 := x + (e.rotateRight 6 ^^^ e.rotateRight 11 ^^^ e.rotateRight 25) + ((e &&& f) ^^^ (~~~e &&& g)) + kw
    let t2 := (a.rotateRight 2 ^^^ a.rotateRight 13 ^^^ a.rotateRight 22) + ((a &&& b) ^^^ (a &&& c) ^^^ (b &&& c))
    [t1 + t2, a, b, c, d + t1, e, f, g]
  | l => l

/-- A big-endian word of four bytes. -/
def beWord (l : List Byte) : BitVec 32 := BitVec.ofNat 32 (ofBe (l.take 4))

/-- One block of 64 bytes. -/
def shaBlock (h : List (BitVec 32)) (b : List Byte) : List (BitVec 32) :=
  let w := (List.range 16).map (fun i => beWord (b.drop (4 * i)))
  let ws := (shaSched 48 w.reverse).reverse
  let r := (shaK.zip ws).foldl (fun s e => shaRound s (e.1 + e.2)) h
  List.zipWith (· + ·) h r

/-- The blocks of a padded message; `n` counts them. -/
def shaBlocks : Nat → List (BitVec 32) → List Byte → List (BitVec 32)
  | 0, h, _ => h
  | n + 1, h, l => shaBlocks n (shaBlock h (l.take 64)) (l.drop 64)

/-- SHA-256 of a byte string. (PRESUMED, log 86). -/
def sha256 (m : List Byte) : List Byte :=
  let p := m ++ [0x80] ++ List.replicate ((119 - m.length % 64) % 64) 0 ++ beBytes 8 (8 * m.length)
  (shaBlocks (p.length / 64) shaInit p).flatMap (fun w => beBytes 4 w.toNat)

/-- HMAC-SHA256. (PRESUMED, log 86). -/
def hmac (key m : List Byte) : List Byte :=
  let k := if 64 < key.length then sha256 key else key
  let k := k ++ List.replicate (64 - k.length) 0
  sha256 (k.map (· ^^^ 0x5c) ++ sha256 (k.map (· ^^^ 0x36) ++ m))

/-- HKDF-SHA256 with a salt of 32 zero bytes and at most 32 bytes of output (R346). -/
def hkdf (ikm info : List Byte) (n : Nat) : List Byte :=
  (hmac (hmac (List.replicate 32 0) ikm) (info ++ [1])).take n

/-! ### SHA-384 -/

/-- The round constants of SHA-384. -/
def sha5K : List (BitVec 64) :=
  [0x428a2f98d728ae22, 0x7137449123ef65cd, 0xb5c0fbcfec4d3b2f, 0xe9b5dba58189dbbc, 0x3956c25bf348b538,
   0x59f111f1b605d019, 0x923f82a4af194f9b, 0xab1c5ed5da6d8118, 0xd807aa98a3030242, 0x12835b0145706fbe,
   0x243185be4ee4b28c, 0x550c7dc3d5ffb4e2, 0x72be5d74f27b896f, 0x80deb1fe3b1696b1, 0x9bdc06a725c71235,
   0xc19bf174cf692694, 0xe49b69c19ef14ad2, 0xefbe4786384f25e3, 0x0fc19dc68b8cd5b5, 0x240ca1cc77ac9c65] ++
  [0x2de92c6f592b0275, 0x4a7484aa6ea6e483, 0x5cb0a9dcbd41fbd4, 0x76f988da831153b5, 0x983e5152ee66dfab,
   0xa831c66d2db43210, 0xb00327c898fb213f, 0xbf597fc7beef0ee4, 0xc6e00bf33da88fc2, 0xd5a79147930aa725,
   0x06ca6351e003826f, 0x142929670a0e6e70, 0x27b70a8546d22ffc, 0x2e1b21385c26c926, 0x4d2c6dfc5ac42aed,
   0x53380d139d95b3df, 0x650a73548baf63de, 0x766a0abb3c77b2a8, 0x81c2c92e47edaee6, 0x92722c851482353b] ++
  [0xa2bfe8a14cf10364, 0xa81a664bbc423001, 0xc24b8b70d0f89791, 0xc76c51a30654be30, 0xd192e819d6ef5218,
   0xd69906245565a910, 0xf40e35855771202a, 0x106aa07032bbd1b8, 0x19a4c116b8d2d0c8, 0x1e376c085141ab53,
   0x2748774cdf8eeb99, 0x34b0bcb5e19b48a8, 0x391c0cb3c5c95a63, 0x4ed8aa4ae3418acb, 0x5b9cca4f7763e373,
   0x682e6ff3d6b2b8a3, 0x748f82ee5defb2fc, 0x78a5636f43172f60, 0x84c87814a1f0ab72, 0x8cc702081a6439ec] ++
  [0x90befffa23631e28, 0xa4506cebde82bde9, 0xbef9a3f7b2c67915, 0xc67178f2e372532b, 0xca273eceea26619c,
   0xd186b8c721c0c207, 0xeada7dd6cde0eb1e, 0xf57d4f7fee6ed178, 0x06f067aa72176fba, 0x0a637dc5a2c898a6,
   0x113f9804bef90dae, 0x1b710b35131c471b, 0x28db77f523047d84, 0x32caab7b40c72493, 0x3c9ebe0a15c9bebc,
   0x431d67c49c100d4c, 0x4cc5d4becb3e42b6, 0x597f299cfc657e2a, 0x5fcb6fab3ad6faec, 0x6c44198c4a475817]

def sha384Init : List (BitVec 64) :=
  [0xcbbb9d5dc1059ed8, 0x629a292a367cd507, 0x9159015a3070dd17, 0x152fecd8f70e5939,
   0x67332667ffc00b31, 0x8eb44a8768581511, 0xdb0c2e0d64f98fa7, 0x47b5481dbefa4fa4]

/-- The message schedule of 64-bit words, newest first; `n` words are added. -/
def sha5Sched : Nat → List (BitVec 64) → List (BitVec 64)
  | 0, w => w
  | n + 1, w =>
    let x := w.getD 14 0
    let y := w.getD 1 0
    sha5Sched n ((w.getD 15 0 + (x.rotateRight 1 ^^^ x.rotateRight 8 ^^^ (x >>> 7)) + w.getD 6 0 +
      (y.rotateRight 19 ^^^ y.rotateRight 61 ^^^ (y >>> 6))) :: w)

/-- One round on the eight working words. -/
def sha5Round (h : List (BitVec 64)) (kw : BitVec 64) : List (BitVec 64) :=
  let v := fun i => h.getD i 0
  let t := v 7 + ((v 4).rotateRight 14 ^^^ (v 4).rotateRight 18 ^^^ (v 4).rotateRight 41) +
    ((v 4 &&& v 5) ^^^ (~~~(v 4) &&& v 6)) + kw
  let u := ((v 0).rotateRight 28 ^^^ (v 0).rotateRight 34 ^^^ (v 0).rotateRight 39) +
    ((v 0 &&& v 1) ^^^ (v 0 &&& v 2) ^^^ (v 1 &&& v 2))
  [t + u, v 0, v 1, v 2, v 3 + t, v 4, v 5, v 6]

/-- The blocks of 128 bytes of a padded message; `n` counts them. -/
def sha5Blocks : Nat → List (BitVec 64) → List Byte → List (BitVec 64)
  | 0, h, _ => h
  | n + 1, h, l =>
    let w := (sha5Sched 64 ((List.range 16).map (fun i => BitVec.ofNat 64 (ofBe ((l.drop (8 * i)).take 8)))).reverse).reverse
    sha5Blocks n (List.zipWith (· + ·) h ((sha5K.zip w).foldl (fun s e => sha5Round s (e.1 + e.2)) h)) (l.drop 128)

/-- SHA-384 of a byte string. (PRESUMED, log 86). -/
def sha384 (m : List Byte) : List Byte :=
  let p := m ++ [0x80] ++ List.replicate ((239 - m.length % 128) % 128) 0 ++ beBytes 16 (8 * m.length)
  ((sha5Blocks (p.length / 128) sha384Init p).take 6).flatMap (fun w => beBytes 8 w.toNat)

/-! ### ECDSA over P-384 -/

/-- The field's prime, the curve's coefficient, the group's order and its base point. -/
def p384 : Nat := 2 ^ 384 - 2 ^ 128 - 2 ^ 96 + 2 ^ 32 - 1
def p384b : Nat :=
  0xb3312fa7e23ee7e4988e056be3f82d19181d9c6efe8141120314088f5013875ac656398d8a2ed19d2a85c8edd3ec2aef
def p384n : Nat :=
  0xffffffffffffffffffffffffffffffffffffffffffffffffc7634d81f4372ddf581a0db248b0a77aecec196accc52973
def p384g : Nat × Nat :=
  (0xaa87ca22be8b05378eb1c71ef320ad746e1d3b628ba79b9859f741e082542a385502f25dbf55296c3a545e3872760ab7,
   0x3617de4a96262c6f5d9e98bf9292dc29f8f41dbd289a147ce9da3113b5f0b8c00a60b1ce1d7e819d7a431d7c90ea0e5f)

/-- A power modulo `m`; `n` counts bits of the exponent. -/
def powMod (m : Nat) : Nat → Nat → Nat → Nat → Nat
  | 0, _, _, r => r
  | n + 1, b, e, r => powMod m n (b * b % m) (e / 2) (if e % 2 = 1 then r * b % m else r)
/-- The inverse modulo a prime of at most 384 bits. -/
def invMod (m x : Nat) : Nat := powMod m 384 (x % m) (m - 2) 1

/-- The sum of two points of the curve; none is the neutral point. -/
def ecAdd (a b : Option (Nat × Nat)) : Option (Nat × Nat) :=
  match a, b with
  | none, q => q
  | q, none => q
  | some (x, y), some (u, v) =>
    if x = u ∧ (y + v) % p384 = 0 then none
    else
      let l := if x = u then (3 * x * x + p384 - 3) * invMod p384 (2 * y) % p384
        else (v + p384 - y) * invMod p384 (u + p384 - x) % p384
      let z := (l * l + 2 * p384 - x - u) % p384
      some (z, (l * (x + p384 - z) + p384 - y) % p384)

/-- A multiple of a point; `n` counts bits of the factor, the least first. -/
def ecMul : Nat → Nat → Option (Nat × Nat) → Option (Nat × Nat) → Option (Nat × Nat)
  | 0, _, _, r => r
  | n + 1, k, q, r => ecMul n (k / 2) (ecAdd q q) (if k % 2 = 1 then ecAdd r q else r)

/-- Whether a signature r, s verifies over a message with an uncompressed public key (FIPS 186-5). (PRESUMED, log 86). -/
def ecdsaOk (key m sig : List Byte) : Bool :=
  let x := ofBe ((key.drop 1).take 48)
  let y := ofBe ((key.drop 49).take 48)
  let r := ofBe (sig.take 48)
  let s := ofBe ((sig.drop 48).take 48)
  let w := invMod p384n s
  let e := ofBe (sha384 m)
  decide (key.getD 0 0 = 4) && decide (x < p384) && decide (y < p384) &&
    decide (y * y % p384 = (x * x * x + (p384 - 3) * x + p384b) % p384) &&
    decide (0 < r) && decide (r < p384n) && decide (0 < s) && decide (s < p384n) &&
    (match ecAdd (ecMul 384 (e * w % p384n) (some p384g) none) (ecMul 384 (r * w % p384n) (some (x, y)) none) with
    | none => false
    | some (z, _) => z % p384n == r)

/-! ### AES -/

/-- Multiplication by x in GF(2^8) of AES. -/
def xtime (b : Byte) : Byte := (b <<< 1) ^^^ (if b.getLsbD 7 then 0x1b else 0)

/-- Multiplication in GF(2^8); `n` counts bits of `b`. -/
def gmulGo : Nat → Byte → Byte → Byte → Byte
  | 0, _, _, r => r
  | n + 1, a, b, r => gmulGo n (xtime a) (b >>> 1) (if b.getLsbD 0 then r ^^^ a else r)
def gmul (a b : Byte) : Byte := gmulGo 8 a b 0

/-- The inverse a^254. -/
def ginv (a : Byte) : Byte :=
  let a2 := gmul a a; let a4 := gmul a2 a2; let a8 := gmul a4 a4; let a16 := gmul a8 a8
  let a32 := gmul a16 a16; let a64 := gmul a32 a32; let a128 := gmul a64 a64
  gmul (gmul (gmul a2 a4) (gmul a8 a16)) (gmul (gmul a32 a64) a128)

/-- The S-box and its inverse. -/
def sbox (a : Byte) : Byte :=
  let b := ginv a
  b ^^^ b.rotateLeft 1 ^^^ b.rotateLeft 2 ^^^ b.rotateLeft 3 ^^^ b.rotateLeft 4 ^^^ 0x63
def sboxInv (a : Byte) : Byte := ginv (a.rotateLeft 1 ^^^ a.rotateLeft 3 ^^^ a.rotateLeft 6 ^^^ 0x05)

/-- Key expansion: words oldest first, `n` words to add, `i` the index of the next. -/
def aesExpand (nk : Nat) : Nat → Nat → Byte → List (List Byte) → List (List Byte)
  | 0, _, _, w => w
  | n + 1, i, rc, w =>
    let t := w.getD (i - 1) []
    let t' := if i % nk = 0 then
        (match (t.drop 1 ++ t.take 1).map sbox with | h :: r => (h ^^^ rc) :: r | [] => [])
      else if 6 < nk ∧ i % nk = 4 then t.map sbox else t
    aesExpand nk n (i + 1) (if i % nk = 0 then xtime rc else rc) (w ++ [List.zipWith (· ^^^ ·) (w.getD (i - nk) []) t'])

/-- Bytes cut into groups of `k`; `n` counts groups. -/
def chunks (k : Nat) : Nat → List Byte → List (List Byte)
  | 0, _ => []
  | n + 1, l => l.take k :: chunks k n (l.drop k)

/-- The round keys of a key of 16 or 32 bytes. -/
def aesKeys (key : List Byte) : List (List Byte) :=
  let nk := key.length / 4
  let rounds := nk + 7
  let w := aesExpand nk (4 * rounds - nk) nk 1 (chunks 4 nk key)
  chunks 16 rounds w.flatten

def xorBytes (a b : List Byte) : List Byte := List.zipWith (· ^^^ ·) a b

/-- ShiftRows and its inverse on 16 bytes in column order. -/
def shiftRows (s : List Byte) : List Byte := (List.range 16).map (fun i => s.getD ((i + 4 * (i % 4)) % 16) 0)
def shiftRowsInv (s : List Byte) : List Byte := (List.range 16).map (fun i => s.getD ((i + 16 - 4 * (i % 4)) % 16) 0)

/-- MixColumns with the four coefficients of its first row. -/
def mixCols (c0 c1 c2 c3 : Byte) (s : List Byte) : List Byte :=
  (List.range 16).map (fun i =>
    let b := i / 4 * 4
    let r := i % 4
    gmul c0 (s.getD (b + r) 0) ^^^ gmul c1 (s.getD (b + (r + 1) % 4) 0) ^^^ gmul c2 (s.getD (b + (r + 2) % 4) 0) ^^^
      gmul c3 (s.getD (b + (r + 3) % 4) 0))

/-- AES encryption of one block. -/
def aesEnc (key b : List Byte) : List Byte :=
  let ks := aesKeys key
  let s := xorBytes b (ks.getD 0 [])
  let s := ((ks.drop 1).dropLast).foldl (fun s k => xorBytes (mixCols 2 3 1 1 (shiftRows (s.map sbox))) k) s
  xorBytes (shiftRows (s.map sbox)) (ks.getLastD [])

/-- AES decryption of one block. -/
def aesDec (key b : List Byte) : List Byte :=
  let ks := (aesKeys key).reverse
  let s := xorBytes b (ks.getD 0 [])
  let s := ((ks.drop 1).dropLast).foldl
    (fun s k => mixCols 0x0e 0x0b 0x0d 0x09 (xorBytes ((shiftRowsInv s).map sboxInv) k)) s
  xorBytes ((shiftRowsInv s).map sboxInv) (ks.getLastD [])

/-- AES key unwrap (SP 800-38F): `t` counts the steps left, `a` the integrity register, `r` the semiblocks. -/
def unwrapGo (key : List Byte) (n : Nat) : Nat → List Byte → List (List Byte) → List Byte × List (List Byte)
  | 0, a, r => (a, r)
  | t + 1, a, r =>
    let i := t % n
    let b := aesDec key (xorBytes a (beBytes 8 (t + 1)) ++ r.getD i [])
    unwrapGo key n t (b.take 8) (r.set i (b.drop 8))

/-- The key that a wrapped input of LEN + 8 bytes holds, when its integrity check passes (R348). -/
def keyUnwrap (key c : List Byte) : Option (List Byte) :=
  let n := c.length / 8 - 1
  let (a, r) := unwrapGo key n (6 * n) (c.take 8) (chunks 8 n (c.drop 8))
  if a = List.replicate 8 0xA6 then some r.flatten else none

/-! ### GCM -/

/-- Multiplication in GF(2^128) of GCM; bit 0 of the standard is the most significant. -/
def ghashMulGo : Nat → BitVec 128 → BitVec 128 → BitVec 128 → BitVec 128
  | 0, _, _, z => z
  | n + 1, x, v, z =>
    let z := if x.getLsbD n then z ^^^ v else z
    ghashMulGo n x ((v >>> 1) ^^^ (if v.getLsbD 0 then 0xE1000000000000000000000000000000#128 else 0)) z
def ghashMul (x h : BitVec 128) : BitVec 128 := ghashMulGo 128 x h 0

/-- Bytes padded with zeros to whole blocks. -/
def padBlocks (l : List Byte) : List Byte := l ++ List.replicate ((16 - l.length % 16) % 16) 0

/-- GHASH of whole blocks. -/
def ghash (h : BitVec 128) (l : List Byte) : BitVec 128 :=
  (chunks 16 (l.length / 16) l).foldl (fun y b => ghashMul (y ^^^ BitVec.ofNat 128 (ofBe b)) h) 0

/-- The GCM tag of a ciphertext and its additional data under a 12-byte initialisation vector. -/
def gcmTag (key iv aad c : List Byte) : List Byte :=
  let h := BitVec.ofNat 128 (ofBe (aesEnc key (List.replicate 16 0)))
  let s := ghash h (padBlocks aad ++ padBlocks c ++ beBytes 8 (8 * aad.length) ++ beBytes 8 (8 * c.length))
  xorBytes (beBytes 16 s.toNat) (aesEnc key (iv ++ [0, 0, 0, 1]))

/-- GCM's counter-mode encryption, which is also its decryption. -/
def gcmCrypt (key iv p : List Byte) : List Byte :=
  ((chunks 16 (ceilDiv p.length 16) p).zip (List.range (ceilDiv p.length 16))).flatMap
    (fun e => xorBytes e.1 (aesEnc key (iv ++ beBytes 4 (e.2 + 2))))

end Sys2Proof.Machine
end

