-- ==== Sys2Proof/Machine/Keyring.lean ====
section
/-! DEFINITION. Sys2Proof/Machine/Keyring.lean: the slots, the commands and the flash store of the Keyring, and what a key use
finds (R340 to R364). -/
namespace Sys2Proof.Machine

abbrev E_KEYATTR : Nat := 0x60
abbrev E_DEPTH : Nat := 0x61
abbrev E_STORE : Nat := 0x62
abbrev E_ENTROPY : Nat := 0x63
abbrev E_KEYUSE : Nat := 0x22

/-! ### Slots (R340 to R342, R353) -/

def KSlot.verify (k : KSlot) : Bool := k.attr.testBit 1
def KSlot.sign (k : KSlot) : Bool := k.attr.testBit 2
def KSlot.wrap (k : KSlot) : Bool := k.attr.testBit 3
def KSlot.derive (k : KSlot) : Bool := k.attr.testBit 4
def KSlot.persist (k : KSlot) : Bool := k.attr.testBit 5
def KSlot.revoked (k : KSlot) : Bool := k.attr.testBit 6
def KSlot.long (k : KSlot) : Bool := k.attr.testBit 7

def KSlot.depth (k : KSlot) : Nat := k.attr / 2 ^ 17 % 8
def KSlot.owner (k : KSlot) : Nat := k.attr / 2 ^ 24 % 256

/-- TEST_ROOT (R354). -/
def State.testRoot (s : State) : Bool := bit (s.rd .keyring KEYRING.KR_STS) 4

/-- The test root: SHA-256 of "XE7720 TEST ROOT" (R354). -/
def testRootKey : List Byte :=
  sha256 [0x58, 0x45, 0x37, 0x37, 0x32, 0x30, 0x20, 0x54, 0x45, 0x53, 0x54, 0x20, 0x52, 0x4F, 0x4F, 0x54]

/-- The root key in force. -/
def State.rootKey (s : State) : List Byte := if s.testRoot then testRootKey else leBytes 32 Config.prodRoot.toNat

/-- A slot that is not empty; slot 0 is the root. -/
def State.kslot (s : State) (n : Nat) : Option KSlot :=
  if n = 0 then some ⟨rootAttr, 0, BitVec.ofNat 256 (ofLe s.rootKey), 0⟩ else Tbl.look n s.keyring.slots

/-- The key a slot holds: its pair decoded (R351). -/
def KSlot.key (k : KSlot) : List Byte := leBytes (if k.long then 32 else 16) (k.masked ^^^ k.mask).toNat

/-- The slot that a slot descends from, `n` steps up. -/
def State.ancestor (s : State) : Nat → Nat → Nat
  | 0, i => i
  | n + 1, i => match Tbl.look i s.keyring.slots with | some k => State.ancestor s n k.parent | none => 0

/-- Whether slot `i` is slot `r` or one of its descendants (R341). -/
def State.descends (s : State) (r i : Nat) : Bool := i != 0 && (List.range 8).any (fun n => s.ancestor n i == r)

/-- LABELs from the child of slot 0 down to a slot; `n` bounds the depth. -/
def State.labels (s : State) : Nat → Nat → List Nat
  | 0, _ => []
  | n + 1, i => match Tbl.look i s.keyring.slots with
    | some k => State.labels s n k.parent ++ [k.label]
    | none => []

/-- Whether a key fits an algorithm (R342): 0 GMAC with AES-128, 1 GMAC with AES-256, 2 HMAC-SHA256. -/
def KSlot.fits (k : KSlot) (alg : Nat) : Bool :=
  match alg with
  | 0 => !k.long
  | 1 => k.long
  | _ => true

/-- What a key use by a slot meets (R153, R342, R345): a refusal, or none. -/
def State.keyUse (s : State) (slot owner alg : Nat) (sign : Bool) : Option Nat :=
  match s.kslot slot with
  | none => some E_NOKEY
  | some k =>
    if k.revoked then some E_REVOKED
    else if (if sign then k.sign else k.verify) ∧ k.owner = owner ∧ k.fits alg then none else some E_KEYUSE

/-- Count a refused key use. -/
def State.useRefused (s : State) : State := s.bump .keyring KEYRING.USES_REFUSED

/-! ### Sequence points (R345) -/

/-- KR_SEQ advances by 1. -/
def State.krPoint (s : State) : State := s.wr2 .keyring KEYRING.KR_SEQ_LO (s.rd2 .keyring KEYRING.KR_SEQ_LO + 1)

def State.setDirty (s : State) (b : Bool) : State := s.wrf .keyring KEYRING.KR_STS 3 3 (b2n b)

/-- The record of an accepted command (R364). -/
def State.krRecord (s : State) (op slot changed : Nat) : State :=
  s.emit .keyring 0x060 0 (leBytes 1 op ++ [0] ++ leBytes 2 slot ++ leBytes 2 changed ++ [0, 0] ++
    leBytes 8 (s.rd2 .keyring KEYRING.KR_SEQ_LO))

/-- The sequence point of a command that changes slots: KR_SEQ, KR_RES_SEQ, its record, STORE_DIRTY (R345, R358, R364). -/
def State.krCommand (s : State) (op slot changed : Nat) (dirty : Bool) : State :=
  let s := s.krPoint
  let s := s.wr2 .keyring KEYRING.KR_RES_SEQ_LO (s.rd2 .keyring KEYRING.KR_SEQ_LO)
  let s := if dirty then s.setDirty true else s
  s.krRecord op slot changed

/-! ### Commands (R343, R344) -/

def KJob.use (j : KJob) : Nat := j.arg2 / 2 % 16
def KJob.persist (j : KJob) : Bool := j.arg2.testBit 5
def KJob.long (j : KJob) : Bool := j.arg2.testBit 7
def KJob.owner (j : KJob) : Nat := j.arg2 / 2 ^ 24 % 256
/-- The operation creates a slot. -/
def KJob.creates (j : KJob) : Bool := decide (1 ≤ j.op) && decide (j.op ≤ 4)

/-- USE holds DERIVE alone, WRAP alone, or any non-empty combination of VERIFY and SIGN (R342): bits VERIFY, SIGN, WRAP,
DERIVE from 0 up. -/
def useOk (u : Nat) : Bool := u == 8 || u == 4 || (decide (1 ≤ u) && decide (u ≤ 3))

/-- Bytes of the wrapped input or of a plaintext key. -/
def KJob.size (j : KJob) : Nat := if j.long then 32 else 16

/-- The value that IMPORT unwraps (R348). -/
def State.importKey (s : State) (j : KJob) : Option (List Byte) :=
  match s.kslot j.parent with
  | some p => keyUnwrap p.key (j.data.take (j.size + 8))
  | none => none

/-- The flash store is HELD or WRITING. -/
def State.storeBusy (s : State) : Bool := s.keyring.commit.isSome

/-- The checks of R344 in order. -/
def State.krCheck (s : State) (j : KJob) : Option Nat :=
  let par := s.kslot j.parent
  let fromRoot := j.op = 1 ∨ j.op = 4
  if s.role.mode = .safe then some E_MODE
  else if j.slot = 0 ∧ j.op ≠ 7 then some E_RANGE
  else if j.creates ∧ ¬ useOk j.use then some E_KEYATTR
  else if j.creates ∧ (Tbl.look j.slot s.keyring.slots).isSome then some E_CONFLICT
  else if (j.op = 5 ∨ j.op = 6) ∧ (Tbl.look j.slot s.keyring.slots).isNone then some E_NOKEY
  else if fromRoot ∧ j.parent ≠ 0 then some E_CONFLICT
  else
    let up : Option Nat := if j.op = 2 ∨ j.op = 3 then
        match par with
        | none => some E_ORPHAN
        | some p => if p.revoked then some E_REVOKED
          else if (if j.op = 2 then p.derive else p.wrap) then none else some E_KEYATTR
      else none
    match up with
    | some c => some c
    | none =>
      if j.creates ∧ 7 < (match par with | some p => p.depth | none => 0) + 1 then some E_DEPTH
      else if j.creates ∧ j.persist ∧ j.parent ≠ 0 ∧ ¬ par.any KSlot.persist then some E_CONFLICT
      else if j.op = 6 ∧ 0 < s.children j.slot then some E_CONFLICT
      else if (j.op = 4 ∧ bit (s.rd .keyring KEYRING.KR_CTL) 8) ∨ (j.op = 7 ∧ s.testRoot) ∨ s.quarantined .keyring 0 then
        some E_LOCKED
      else if j.op = 7 ∧ s.storeBusy then some E_BUSY
      else if (j.op = 1 ∨ j.op = 7) ∧ bit (s.rd .keyring KEYRING.KR_STS) 1 then some E_ENTROPY
      else if j.op = 3 ∧ (s.importKey j).isNone then some E_AUTH
      else none

/-- The info of a derivation (R346). -/
def State.kdfInfo (s : State) (j : KJob) (depth : Nat) : List Byte :=
  [0x58, 0x4B, 0x52, 0x31] ++ leBytes 1 depth ++ (s.labels 8 j.parent ++ [j.label]).flatMap (fun l => beBytes 4 l) ++
    leBytes 1 j.size ++ leBytes 1 j.use

/-- ORIGIN of a created slot (R341). -/
def originOf (op : Nat) : Nat := match op with | 1 => 1 | 2 => 0 | 3 => 2 | _ => 3

/-- A slot with a value under a fresh mask (R351). -/
def State.putSlot (s : State) (n attr label : Nat) (v : List Byte) : State :=
  let (m, s) := s.drawRandom
  { s with keyring := { s.keyring with slots := Tbl.put n ⟨attr, label, BitVec.ofNat 256 (ofLe v) ^^^ m, m⟩ s.keyring.slots } }

/-- The effect of a command that passed its checks. -/
def State.krEffect (s : State) (j : KJob) : State :=
  match j.op with
  | 5 =>
    match Tbl.look j.slot s.keyring.slots with
    | some k =>
      if k.revoked then s
      else
        let hit := (s.keyring.slots.filter (fun e => s.descends j.slot e.1)).map Prod.fst
        let t : State := { s with
          keyring := { s.keyring with slots := s.keyring.slots.map (fun e =>
            if hit.contains e.1 then (e.1, { e.2 with attr := e.2.attr ||| 0x40 }) else e) },
          porter := { s.porter with jobs := s.porter.jobs.map (fun v =>
            if v.engine.isSome && hit.contains v.slot then { v with revoked := true } else v) },
          ledger := { s.ledger with clr := s.ledger.clr.map (fun c =>
            if c.engine.isSome && hit.contains (leAt c.token 6 2) then { c with revoked := true } else c) } }
        t.krCommand 5 j.slot hit.length (hit.any (fun i => (Tbl.look i s.keyring.slots).any KSlot.persist))
    | none => s
  | 6 =>
    let p := (Tbl.look j.slot s.keyring.slots).any KSlot.persist
    ({ s with keyring := { s.keyring with slots := Tbl.del j.slot s.keyring.slots } } : State).krCommand 6 j.slot 1 p
  | 7 =>
    let snap := s.keyring.slots.filter (fun e => e.2.persist)
    let s := s.flashHold
    let t : State := { s with keyring := { s.keyring with commit := some { snap := snap, target := none } } }
    let t := (t.krCommand 7 j.slot 0 false).setDirty false
    t.wrf .keyring KEYRING.KR_STORE_STS 31 28 1
  | op =>
    let depth := (match s.kslot j.parent with | some p => p.depth | none => 0) + 1
    let attr := 1 + 2 * j.use + 32 * b2n j.persist + 128 * b2n j.long + 256 * j.parent + 2 ^ 17 * depth +
      2 ^ 20 * originOf op + 2 ^ 24 * j.owner
    let (v, s) : List Byte × State := match op with
      | 1 => let (r, t) := s.drawRandom; (leBytes j.size r.toNat, t)
      | 2 => ((match s.kslot j.parent with | some p => hkdf p.key (s.kdfInfo j depth) j.size | none => []), s)
      | 3 => ((s.importKey j).getD [], s)
      | _ => (j.data.take j.size, s)
    (s.putSlot j.slot attr j.label v).krCommand op j.slot 1 j.persist

/-- A Keyring command ends (R343): its outcome in KR_RESULT, KR_DATA cleared, the counters. -/
def State.krDone (s : State) (j : KJob) : State :=
  let c := s.krCheck j
  let s : State := { s with keyring := { s.keyring with job := none, data := [] } }
  let s := match c with
    | none => (s.krEffect j).bump .keyring KEYRING.CMDS_OK
    | some _ => s.bump .keyring KEYRING.CMDS_REFUSED
  let s := s.bump .keyring (win 0 KEYRINGW.ENG_OPS)
  (s.wrn .keyring KEYRING.KR_RESULT (2 ^ 16 * j.slot + 256 * j.op + c.getD 0)).raise .keyring 16

/-- KR_CMD_DONE (R343): the command in progress ends. -/
def execKrCmdDone (s : State) : Result :=
  match s.keyring.job with
  | none => .next s
  | some j => done s (s.krDone j)

/-- KR_DATA0 to KR_DATA9 as bytes. -/
def State.krData (s : State) : List Byte := (List.range 10).flatMap (fun k => leBytes 4 (Tbl.get 0 k s.keyring.data).toNat)

/-- KR_RESULT.BUSY. -/
def State.krBusy (s : State) : Bool := bit (s.rd .keyring KEYRING.KR_RESULT) 31

/-- KR_CMD (R343, R362). -/
def krCmdRule : Rule where
  legal := fun _ _ v => if fld v 2 0 = 0 then [(0, E_RANGE)] else []
  busy := fun s _ _ => s.krBusy
  apply := fun s _ v =>
    let a := (s.rd .keyring KEYRING.KR_ARG0).toNat
    let j : KJob := ⟨fld v 2 0, fld a 8 0, fld a 24 16, (s.rd .keyring KEYRING.KR_ARG1).toNat,
      (s.rd .keyring KEYRING.KR_ARG2).toNat, s.krData⟩
    ({ s with keyring := { s.keyring with job := some j } } : State).wrn .keyring KEYRING.KR_RESULT
      (2 ^ 31 + 2 ^ 16 * j.slot + 256 * j.op)

/-- A write of KR_CMD with an operation. -/
def State.krWrite (s : State) (src : Src) (op : Nat) : State :=
  s.writeReg krCmdRule src .keyring KEYRING.KR_CMD (BitVec.ofNat 32 op)

/-- GENERATE (R343): OP 1. -/
def execGenerate (src : Src) (s : State) : Result := done s (s.krWrite src 1)
/-- DERIVE (R346): OP 2. -/
def execDerive (src : Src) (s : State) : Result := done s (s.krWrite src 2)
/-- IMPORT (R348): OP 3. -/
def execImport (src : Src) (s : State) : Result := done s (s.krWrite src 3)
/-- KR_LOAD (R348): OP 4. -/
def execKrLoad (src : Src) (s : State) : Result := done s (s.krWrite src 4)
/-- REVOKE (R349): OP 5. -/
def execRevoke (src : Src) (s : State) : Result := done s (s.krWrite src 5)
/-- ERASE (R350): OP 6. -/
def execErase (src : Src) (s : State) : Result := done s (s.krWrite src 6)
/-- KR_COMMIT (R358): OP 7. -/
def execKrCommit (src : Src) (s : State) : Result := done s (s.krWrite src 7)

/-- KR_ARG0 to KR_ARG2: a write while a command runs is busy (R343, R362). -/
def krArgRule : Rule where
  busy := fun s _ _ => s.krBusy
/-- KR_DATAk: held until a command takes it. -/
def krDataRule (k : Nat) : Rule where
  busy := fun s _ _ => s.krBusy
  apply := fun s _ v => { s with keyring := { s.keyring with data := Tbl.set 0 k (BitVec.ofNat 32 v) s.keyring.data } }
/-- KR_CTL (R362): REMASK_MS from 1 to 64. -/
def krCtlRule : Rule where
  legal := fun _ _ v => if fld v 6 0 = 0 ∨ 64 < fld v 6 0 then [(0, E_RANGE)] else []

/-- PLAIN_LOCK (R348): a write of KR_CTL that sets PLAIN_LOCK and keeps REMASK_MS. -/
def execPlainLock (src : Src) (s : State) : Result :=
  done s (s.writeReg krCtlRule src .keyring KEYRING.KR_CTL (s.rd .keyring KEYRING.KR_CTL ||| 0x100))

/-! ### The flash store (R356 to R360) -/

/-- Flash offset of a copy area (R445). -/
def storeOfs (copy : Nat) : Nat := 0x20_0000 + 0x1_0000 * copy

/-- The store key of a root (R356). -/
def State.storeKey (s : State) : List Byte := hkdf s.rootKey [0x58, 0x4B, 0x53, 0x31, 0x20] 32

/-- A copy with valid MAGIC, FORMAT and CRC: its SEQ and its blobs. -/
def State.storeValid (s : State) (copy : Nat) : Option (Nat × List (List Byte)) :=
  let o := storeOfs copy
  let h := s.readFlash o 64
  let n := leAt h 4 2
  let b := s.readFlash (o + 64) (80 * n)
  if s.flashSize ≠ 0 ∧ h.take 4 = [0x58, 0x4B, 0x53, 0x31] ∧ n ≤ 511 ∧ leAt h 6 2 = 1 ∧
      crc32c (h.take 16 ++ [0, 0, 0, 0] ++ h.drop 20 ++ b) = leAt h 16 4 then
    some (leAt h 8 8, chunks 80 n b)
  else none

/-- The valid copy with the higher SEQ, copy 0 at equal SEQ (R359). -/
def State.storeBest (s : State) : Option (Nat × Nat × List (List Byte)) :=
  match s.storeValid 0, s.storeValid 1 with
  | some a, some b => if a.1 < b.1 then some (1, b) else some (0, a)
  | some a, none => some (0, a)
  | none, some b => some (1, b)
  | none, none => none

/-- A blob of a slot under a store key with an initialisation vector (R357). -/
def blobOf (key iv : List Byte) (n : Nat) (k : KSlot) : List Byte :=
  let aad := leBytes 2 n ++ [0, 0] ++ leBytes 4 k.attr ++ leBytes 4 k.label ++ [0, 0, 0, 0] ++ iv ++ [0, 0, 0, 0]
  let ct := gcmCrypt key iv (k.key ++ List.replicate (32 - k.key.length) 0)
  aad ++ ct ++ gcmTag key iv aad ct

/-- Slots in ascending DEPTH, then slot number: the order of blobs. -/
def byDepth (l : List (Nat × KSlot)) : List (Nat × KSlot) :=
  (List.range 8).flatMap (fun d => l.filter (fun e => e.2.depth == d))

/-- The bytes of a copy with its blobs. -/
def storeCopy (seq : Nat) (blobs : List (List Byte)) : List Byte :=
  let h := fun (crc : Nat) => [0x58, 0x4B, 0x53, 0x31] ++ leBytes 2 blobs.length ++ leBytes 2 1 ++ leBytes 8 seq ++
    leBytes 4 crc ++ List.replicate 44 (0 : Byte)
  h (crc32c (h 0 ++ blobs.flatten)) ++ blobs.flatten

/-- A commit ends with a code (R358): STATE DONE or FAILED, the record, the interrupt. (DESIGN CHOICE, log 88). -/
def State.commitEnd (s : State) (copy blobs seq code : Nat) : State :=
  let s : State := { s with keyring := { s.keyring with commit := none } }
  let s := (s.wrf .keyring KEYRING.KR_STORE_STS 31 28 (if code = 0 then 3 else 4)).wrf .keyring KEYRING.KR_STORE_STS 23 16 code
  let s := s.raise .keyring (if code = 0 then 17 else 18)
  s.emit .keyring 0x061 0 (leBytes 1 code ++ leBytes 1 copy ++ leBytes 2 blobs ++ [0, 0, 0, 0] ++ leBytes 8 seq)

/-- A HELD commit is abandoned with a code (R355, R361). -/
def State.commitAbandon (s : State) (code : Nat) : State :=
  match s.keyring.commit with
  | some k => if k.target.isNone then
      s.commitEnd (s.rdf .keyring KEYRING.KR_STORE_STS 24 24) k.snap.length (s.rd2 .keyring KEYRING.KR_STORE_SEQ_LO) code
    else s
  | none => s

/-- KR_COMMIT_WRITE (R358, R360, R445): with no supply warning and no flash command running, a HELD commit takes its target, whose
erase begins. (DESIGN CHOICE, log 88). -/
def execKrCommitWrite (s : State) : Result :=
  match s.keyring.commit with
  | some k =>
    if k.target.isSome ∨ s.pwrWarn ∨ s.flashOwner ≠ some .keys ∨ ¬ s.working .flash then .next s
    else
      let (copy, seq) := match s.storeBest with | some (c, q, _) => (1 - c, q + 1) | none => (0, 1)
      let t : State := { s with
        keyring := { s.keyring with commit := some { k with target := some (copy, seq, s.storeKey), step := 3 } },
        flash := eraseFlash s.flash (storeOfs copy) 0x1_0000 }
      .next (t.wrf .keyring KEYRING.KR_STORE_STS 31 28 2)
  | none => .next s

/-- The blobs of a snapshot, each with its own initialisation vector from the random source. -/
def State.blobs (s : State) (key : List Byte) : List (Nat × KSlot) → List (List Byte) × State
  | [] => ([], s)
  | e :: t =>
    let (r, s) := s.drawRandom
    let (l, s) := State.blobs s key t
    (blobOf key (leBytes 12 r.toNat) e.1 e.2 :: l, s)

/-- One flash command of a commit completes (R358): the erase, the blobs from offset 0x40, the header last; a failure ends the commit.
The read-back of step 6 ends by KR_COMMIT_DONE. -/
def State.commitStep (s : State) (ok : Bool) : State :=
  match s.keyring.commit with
  | some ⟨snap, some (copy, seq, key), step⟩ =>
    let at_ := fun (t : State) (n : Nat) => { t with keyring := { t.keyring with commit := some ⟨snap, some (copy, seq, key), n⟩ } }
    if ¬ ok ∨ s.flashSize = 0 then s.commitEnd copy snap.length seq E_STORE
    else if step = 3 then at_ s 4
    else if step = 4 then
      let (l, t) := s.blobs key (byDepth snap)
      at_ { t with flash := putFlash t.flash (storeOfs copy + 64) l.flatten } 5
    else if step = 5 then
      let b := s.readFlash (storeOfs copy + 64) (80 * snap.length)
      at_ { s with flash := putFlash s.flash (storeOfs copy) ((storeCopy seq (chunks 80 snap.length b)).take 64) } 6
    else s
  | _ => s

/-- Whether a blob's tag passes under a store key (R357). -/
def blobGood (key b : List Byte) : Bool := gcmTag key ((b.drop 16).take 12) (b.take 32) ((b.drop 32).take 32) == b.drop 64

/-- The read-back of a copy (R358 step 6): MAGIC, FORMAT, CRC and every tag. -/
def State.storeGood (s : State) (copy : Nat) (key : List Byte) : Bool :=
  match s.storeValid copy with
  | some (_, bs) => bs.all (blobGood key)
  | none => false

/-- KR_COMMIT_DONE (R358): the read-back of step 6 ends, or a flash operation of steps 3 to 6 has failed, as `ok` tells. -/
def execKrCommitDone (ok : Bool) (s : State) : Result :=
  match s.keyring.commit with
  | some ⟨snap, some (copy, seq, key), step⟩ =>
    if ok ∧ s.flashSize ≠ 0 then
      if step ≠ 6 ∨ ¬ s.working .flash then .next s
      else if s.storeGood copy key then
        let t := (s.wrf .keyring KEYRING.KR_STORE_STS 24 24 copy).wrf .keyring KEYRING.KR_STORE_STS 9 0 snap.length
        done s ((t.wr2 .keyring KEYRING.KR_STORE_SEQ_LO seq).commitEnd copy snap.length seq 0)
      else done s (s.commitEnd copy snap.length seq E_STORE)
    else done s (s.commitEnd copy snap.length seq E_STORE)
  | _ => .next s

/-- The load of one blob (R359): loaded, bad or orphaned. (DEDUCED, log 87). -/
def State.loadBlob (s : State) (key : List Byte) (b : List Byte) (c : Nat × Nat × Nat) : State × (Nat × Nat × Nat) :=
  let n := leAt b 0 2
  let attr := leAt b 4 4
  let par := attr / 256 % 512
  if ¬ blobGood key b then (s, (c.1, c.2.1 + 1, c.2.2))
  else if n = 0 ∨ 511 < n ∨ ¬ (par = 0 ∨ (Tbl.look par s.keyring.slots).any KSlot.persist) then
    (s, (c.1, c.2.1, c.2.2 + 1))
  else
    let v := (gcmCrypt key ((b.drop 16).take 12) ((b.drop 32).take 32)).take (if attr.testBit 7 then 32 else 16)
    (s.putSlot n attr (leAt b 8 4) v, (c.1 + 1, c.2.1, c.2.2))

/-- The load of the flash store as the unit enters CONFIGURE from BOOT (R359): one sequence point, one record. -/
def State.loadStore (s : State) : State :=
  match s.storeBest with
  | none => (s.wrn .keyring KEYRING.KR_LOAD_STS 0).krPoint.emit .keyring 0x062 0 (List.replicate 16 0)
  | some (copy, seq, blobs) =>
    let key := s.storeKey
    let (s, c) := blobs.foldl (fun (a : State × (Nat × Nat × Nat)) b => a.1.loadBlob key b a.2) (s, (0, 0, 0))
    let s := s.wrn .keyring KEYRING.KR_LOAD_STS (2 ^ 30 * (copy + 1) + 2 ^ 16 * c.2.1 + c.2.2)
    let s := (s.wrf .keyring KEYRING.KR_STORE_STS 24 24 copy).wrf .keyring KEYRING.KR_STORE_STS 9 0 blobs.length
    let s := (s.wr2 .keyring KEYRING.KR_STORE_SEQ_LO seq).bumpBy .keyring (win 1 KEYRINGW.ENG_OPS) blobs.length
    s.krPoint.emit .keyring 0x062 0 (leBytes 1 (copy + 1) ++ [0] ++ leBytes 2 c.1 ++ leBytes 2 c.2.1 ++ leBytes 2 c.2.2 ++
      leBytes 8 seq)

/-! ### Masks, entropy, the test root (R351, R352, R354, R361) -/

/-- Slots with fresh masks: each keeps its attributes, label and value. (DEDUCED, log 89). -/
def State.remaskList (s : State) : List (Nat × KSlot) → List (Nat × KSlot) × State
  | [] => ([], s)
  | e :: r =>
    let (m, s) := s.drawRandom
    let (l, s) := State.remaskList s r
    ((e.1, { e.2 with masked := e.2.masked ^^^ e.2.mask ^^^ m, mask := m }) :: l, s)

/-- A fresh mask for every slot. -/
def State.remaskAll (s : State) : State :=
  let (l, s) := s.remaskList s.keyring.slots
  { s with keyring := { s.keyring with slots := l } }

/-- REMASK (R351): each valid slot gets a new mask unless re-masking has stopped. (DEDUCED, log 89). -/
def execRemask (s : State) : Result :=
  if bit (s.rd .keyring KEYRING.KR_STS) 2 then .next s
  else
    let n := s.keyring.slots.length
    .next ((s.remaskAll.bumpBy .keyring KEYRING.REMASKS n).bumpBy .keyring (win 1 KEYRINGW.ENG_OPS) n)

/-- ENTROPY_FAIL (R352): test 0 start-up, 1 repetition count, 2 adaptive proportion. -/
def execEntropyFail (test : Nat) (s : State) : Result :=
  let t := s.wrf .keyring KEYRING.KR_STS 2 1 3
  done s ((t.raise .keyring 19).emit .keyring 0x064 0 (leBytes 1 test))

/-- What an unlock of the debug port does to the Keyring (R354, R355). -/
def State.krUnlock (s : State) : State :=
  let s := match s.keyring.job with | some j => s.krDone j | none => s
  let s := s.commitAbandon E_LOCKED
  let n := s.keyring.slots.length
  let s : State := { s with keyring := { s.keyring with slots := [] } }
  let s := (s.krPoint.wrf .keyring KEYRING.KR_STS 4 4 1).raise .keyring 20
  s.emit .keyring 0x063 0 (leBytes 2 n)

/-- What a quarantine of one of its cells does to the Keyring (R361). -/
def State.krQuarantine (s : State) (c : Nat) : State :=
  if c = 0 then
    match s.keyring.commit with
    | some k => s.commitEnd (match k.target with | some t => t.1 | none => s.rdf .keyring KEYRING.KR_STORE_STS 24 24)
        k.snap.length (match k.target with | some t => t.2.1 | none => s.rd2 .keyring KEYRING.KR_STORE_SEQ_LO) E_STORE
    | none => s
  else s.wrf .keyring KEYRING.KR_STS 2 2 1

end Sys2Proof.Machine
end

