-- ==== Sys2Proof/Machine/Modes.lean ====
section
/-! DEFINITION. Sys2Proof/Machine/Modes.lean: operating modes: their entries, the choice of a role, MODE_CMD (R266, R267, R280,
R285, R293 to R301, R305, R306). -/
namespace Sys2Proof.Machine

abbrev E_NOCKPT : Nat := 0x50
abbrev E_PARTNER : Nat := 0x51

/-- The first top of second at least `ns` after now (R269, R283, R296). -/
def State.topAfter (s : State) (ns : Nat) : Nat := ceilDiv (s.time.clock + ns * nsU) secU

/-- The partner reports ACTIVE, HOT_STANDBY or RESYNC. -/
def State.partnerRuns (s : State) : Bool :=
  s.partner = some .active || s.partner = some .hotStandby || s.partner = some .resync

/-- End a bulk copy that runs (R281, R285). -/
def State.bulkAbort (s : State) : State :=
  if s.hinge.bulk.state = 1 ∨ s.hinge.bulk.state = 2 ∨ s.hinge.bulk.state = 3 then
    { s with hinge := { s.hinge with bulk := { state := 5, bytes := s.hinge.bulk.bytes } } }
  else s

/-- What a unit forgets of its role when it leaves it. (DEDUCED, log 72). -/
def RoleSt.clear (r : RoleSt) : RoleSt :=
  { r with
    judge := none, demote := none, leaving := false, enterAt := none, enterAsked := false, resyncAsked := false, retryAt := none,
    holdFrom := none, activeAt := none, pwRunning := false, returned := none, resyncNext := false, hingeFailed := false,
    merge := none }

/-! ### SAFE (R301) -/

/-- Halt a guest with HALT_CAUSE 5, whatever its state (R293, R301). (DEDUCED, log 64). -/
def State.safeHalt (s : State) (g : Nat) : State :=
  match s.guest g with
  | none => s
  | some x =>
    let cyc := s.counted x
    let s := (s.stopCells x).dropPatch g x
    let s := s.setGuest g { x with
      st := .halted, haltCause := 5, haltC := x.cycC, safeDue := true, restart := none, runPend := none, stopReq := false,
      staged := [] }
    s.haltRecord g x 5 cyc

/-- The unit enters SAFE (R301) with a cause: 1 chip-level fault, 2 MODE_CMD SAFE. A unit in RESYNC
discards its partial image (R285). A checkpoint that is not writing ends with E_MODE; one that writes, and a slot write, end with
their flash command in progress (R449). (DEDUCED, log 72). -/
def State.enterSafe (s : State) (cause : Nat) : State :=
  if s.role.mode = .safe then s
  else
    let s : State := { s with role := { s.role.clear with safeCause := cause } }
    let s := s.bulkAbort
    let s := if s.role.mode = .resync then s.unloadAll else s.loaded.foldl (fun t g => t.safeHalt g) s
    let s := if s.ckpt.state = 1 ∨ s.ckpt.state = 2 then s.ckptFail E_MODE else s
    let s := s.commitAbandon E_MODE
    let s := s.withFlags (fun r => { r with isolated := false, unmirrored := false, netLost := false })
    s.toMode .safe (if cause = 1 then 2 else 0)

/-- A chip-level fault (R26, R31, R305): SAFE, or during BOOT the boot ends with STAGE 7 and FAIL_CODE 0x55. -/
def State.chipFault (s : State) : State :=
  if s.role.mode = .boot then (s.wrf .boot BOOT.BOOT_STS 31 28 7).wrf .boot BOOT.BOOT_STS 7 0 0x55 else s.enterSafe 1

/-! ### COLD_STANDBY and the way out of it (R279, R280, R295 to R298) -/

/-- Ask the active for RESYNC when the conditions of R280 hold; a request that finds no answer is made again after 1 s.
(DESIGN CHOICE, log 139). -/
def State.tryResync (s : State) : State :=
  let auto := bit (s.rd .role ROLE.ROLE_CTL) 0
  if s.role.mode = .coldStandby ∧ s.partner = some .active ∧ s.hingePath ∧ (auto ∨ s.role.enterAsked) ∧
      ¬ s.role.resyncAsked ∧ s.role.retryAt = none then
    let s : State := { s with role := { s.role with
      resyncAsked := true, enterAsked := false, pwRunning := false, retryAt := some (s.time.elapsed + secU) } }
    s.sendHinge 3 0 (.role 1 0 0)
  else s

/-- A request that cannot be answered any more is forgotten (R280). -/
def State.askLost (s : State) : State :=
  if s.role.mode = .coldStandby then { s with role := { s.role with resyncAsked := false, retryAt := none } } else s

/-- The choice of a unit in COLD_STANDBY, made on entry and at every change of what the partner shows (R280, R297): RESYNC behind a
running partner; a returned unit without one takes its latest checkpoint and enters ACTIVE at a top of second, or sets NO_STATE.
PAIR_CONFLICT keeps it out of ACTIVE (R305). -/
def State.coldChoice (s : State) : State :=
  match s.role.returned with
  | none => s.tryResync
  | some loaded =>
    if s.partnerRuns then ({ s with role := { s.role with activeAt := none } } : State).tryResync
    else if s.role.activeAt.isSome ∨ s.role.noState then s
    else match (if loaded then some s else s.restore) with
    | some t => { t with role := { t.role with
        restored := true, returned := some true, activeAt := if t.pairConflict then none else some (t.topAfter 1000000) } }
    | none => { s with role := { s.role with noState := true } }

/-- Stop every RUNNING guest with RUN_PEND set (R295). -/
def State.stopAll (s : State) : State := s.loaded.foldl (fun t g => t.stopGuest g) s

/-- Enter COLD_STANDBY from RESYNC, HOT_STANDBY or ACTIVE (R295, R297). Frames committed before still leave (R266, R269). -/
def State.goCold (s : State) (event : Nat) : State :=
  let s := s.stopAll.bulkAbort
  let s : State := { s with role := { s.role.clear with returned := some false } }
  let s := s.withFlags (fun r => { r with isolated := false, unmirrored := false, netLost := false })
  (s.toMode .coldStandby event).coldChoice

/-- Enter ACTIVE from COLD_STANDBY (R270, R286, R296, R298): F and K are 0, publication is held. A unit that enters while
neither heartbeat path is up sets ISOLATED when `lone` is asked. -/
def State.goActive (s : State) (event : Nat) (lone : Bool) : State :=
  let s : State := { s with role := { s.role.clear with f := 0, k := 0, noState := false, holdFrom := some s.time.elapsed } }
  let s : State := { s with guests := s.guests.map (fun e => (e.1, { e.2 with left := false, degraded := false })) }
  let s := s.toMode .active event
  s.withFlags (fun r => { r with isolated := lone && !r.hbUp && !r.netUp, degraded := false })

/-- A standby takes the active role (R266, R267): it keeps its offsets, its guests and its transmit state. -/
def State.takeover (s : State) (event : Nat) (isolated : Bool) : State :=
  let s := s.bump .role ROLE.TAKEOVERS
  let s : State := { s with role := { s.role with judge := none, resyncNext := false, leaving := false } }
  let s := s.toMode .active event
  s.withFlags (fun r => { r with unmirrored := false, isolated := isolated })

/-- A leaving unit enters COLD_STANDBY once every guest has passed its next commit point (R266, R269). -/
def State.leaveDone (s : State) : State :=
  if s.role.leaving ∧ s.guests.all (fun e => e.2.left) then
    let ev := if s.role.demote.isSome then 4 else 7
    let s : State := { s with guests := s.guests.map (fun e => (e.1, { e.2 with left := false })) }
    s.goCold ev
  else s

/-- Stop publishing after each guest's next commit point, then COLD_STANDBY (R266). -/
def State.leave (s : State) : State :=
  ({ s with role := { s.role with leaving := true } } : State).leaveDone

/-! ### MODE_CMD (R294, R306) -/

/-- MODE_CMD (R306): OP 0 is out of range; FORCE goes with OP 7 alone; BUSY rejects (R305). -/
def modeRule : Rule where
  legal := fun _ _ v =>
    let op := fld v 2 0
    (if op = 0 then [(0, E_RANGE)] else if op = 7 ∧ fld v 8 8 = 0 then [(0, E_CONFLICT)] else []) ++
    (if fld v 8 8 = 1 ∧ op ≠ 7 then [(8, E_CONFLICT)] else [])
  busy := fun s _ _ => bit (s.rd .chip CHIP.MODE_RESULT) 31
  apply := fun s _ v =>
    -- a LOAD or EXCHANGE in progress at the write of RUN gives E_BUSY (R305)
    let placing := s.gcmds.any (fun e => e.2.op == 1 || e.2.op == 7)
    ({ s with role := { s.role with modeJob := some (fld v 2 0, b2n placing) } } : State).wrn .chip CHIP.MODE_RESULT
      (2 ^ 31 + fld v 2 0 * 65536)

/-- A write of MODE_CMD. -/
def State.modeWrite (s : State) (src : Src) (v : Nat) : State :=
  s.writeReg modeRule src .chip CHIP.MODE_CMD (BitVec.ofNat 32 v)

/-- MODE_CMD_RUN (R296): OP 1. -/
def execModeCmdRun (src : Src) (s : State) : Result := done s (s.modeWrite src 1)
/-- MODE_CMD_CONFIGURE (R295): OP 2. -/
def execModeCmdConfigure (src : Src) (s : State) : Result := done s (s.modeWrite src 2)
/-- MODE_CMD_TEST (R299): OP 3. -/
def execModeCmdTest (src : Src) (s : State) : Result := done s (s.modeWrite src 3)
/-- MODE_CMD_END_TEST (R300): OP 4. -/
def execModeCmdEndTest (src : Src) (s : State) : Result := done s (s.modeWrite src 4)
/-- MODE_CMD_GO_ACTIVE (R298): OP 5. -/
def execModeCmdGoActive (src : Src) (s : State) : Result := done s (s.modeWrite src 5)
/-- MODE_CMD_SAFE (R301): OP 6. -/
def execModeCmdSafe (src : Src) (s : State) : Result := done s (s.modeWrite src 6)
/-- MODE_CMD_COLD (R294): OP 7 with FORCE. -/
def execModeCmdCold (src : Src) (s : State) : Result := done s (s.modeWrite src 0x107)

/-- Start PARTNER_WAIT (R296). -/
def State.startPw (s : State) : State :=
  { s with role := { s.role with
      pwRunning := true, pwEnd := s.time.elapsed + (s.rd .chip CHIP.PW_MS).toNat * 1000000 * nsU } }

/-- Every loaded guest of a unit that enters TEST (R245, R299): one with RUN_PEND enters RUNNING at its first start tick, any other by
a COLD restart. -/
def State.testGuests (s : State) : State :=
  s.loaded.foldl (fun a g => match a.guest g with
    | some x =>
      let x := { x with left := false, degraded := false }
      a.setGuest g (if x.runPend.isSome then { x with runPend := some false }
        else { x with restart := some ⟨false, a.startAfter x.img.n 500000⟩ })
    | none => a) s

/-- The outcome of a mode command: its code and the state it leaves (R294 to R301). `placing` tells that a LOAD or EXCHANGE was in
progress at its write. -/
def State.modeCommand (s : State) (op : Nat) (placing : Bool) : Nat × State :=
  let m := s.role.mode
  match op with
  | 1 =>
    if m ≠ .configure then (E_MODE, s)
    else if placing then (E_BUSY, s)
    else if bit (s.rd .chip CHIP.CHIP_CTL) 1 then
      if s.guests ≠ [] then (E_CONFLICT, s)
      else match s.restore with
      | none => (E_NOCKPT, s)
      | some t =>
        let t : State := { t with role := { t.role with restored := true } }
        (0, (t.toMode .coldStandby 0).startPw.tryResync)
    else (0, (s.toMode .coldStandby 0).startPw.tryResync)
  | 2 =>
    if m = .coldStandby ∨ m = .test then
      let s := s.unloadAll
      (0, ({ s with role := { s.role.clear with noState := false, restored := false } } : State).toMode .configure 0)
    else (E_MODE, s)
  | 3 =>
    if m = .configure ∨ m = .coldStandby then
      let t := if s.ckpt.state = 1 ∨ s.ckpt.state = 2 then s.ckptFail E_MODE else s
      (0, (({ t with role := { t.role.clear with noState := false } } : State).toMode .test 0).testGuests)
    else (E_MODE, s)
  | 4 =>
    if m = .test then
      let s := s.unloadAll.toMode .coldStandby 0
      let s : State := match s.restore with
        | some t => { t with role := { t.role with restored := true, returned := some true } }
        | none => { s with role := { s.role with noState := true, returned := some true } }
      (0, s.coldChoice)
    else (E_MODE, s)
  | 5 =>
    if m ≠ .coldStandby then (E_MODE, s)
    else if s.partnerRuns then (E_PARTNER, s)
    else (0, s.goActive 0 false)
  | 6 => if m = .boot then (E_MODE, s) else (0, s.enterSafe 2)
  | 7 => if m = .active then (0, s.goCold 0) else (E_MODE, s)
  | _ => (E_RANGE, s)

/-- MODE_DONE (R306): the mode command in progress takes effect and reports. -/
def execModeDone (s : State) : Result :=
  match s.role.modeJob with
  | none => .next s
  | some (op, placing) =>
    let t : State := { s with role := { s.role with modeJob := none } }
    let (c, t) := t.modeCommand op (placing == 1)
    done s ((t.wrn .chip CHIP.MODE_RESULT (op * 65536 + c)).raise .chip 17)

/-- The outcome of an expiry of PARTNER_WAIT (R296). -/
def State.pwExpiry (s : State) : State :=
  let alone := bit (s.rd .chip CHIP.CHIP_CTL) 0
  let act : State → State := fun t =>
    { t with role := { t.role with pwRunning := false, activeAt := some (t.topAfter 1000000) } }
  let stay : State := { s with role := { s.role with pwRunning := false } }
  if s.pairConflict then stay
  else match s.partner with
  | some .active => stay.tryResync
  | some .hotStandby | some .resync => stay
  | some .coldStandby => if s.unitB then s.startPw else act s
  | _ => if alone then act s else stay

/-- PW_EXPIRY (R296): PARTNER_WAIT runs out; with none running, or before its end, nothing happens. -/
def execPwExpiry (s : State) : Result :=
  if s.role.mode = .coldStandby ∧ s.role.pwRunning ∧ s.role.pwEnd ≤ s.time.elapsed then done s s.pwExpiry else .next s

end Sys2Proof.Machine
end

