-- ==== Sys2Proof/Machine/Courier.lean ====
section
/-! DEFINITION. Sys2Proof/Machine/Courier.lean: guest functions and the Courier (R313 to R339): queues, segments and shares,
transfer errors, function resets, the guest pages' selections, the function settings, and the PCIe events of R443, R444,
R463. -/
namespace Sys2Proof.Machine

abbrev E_FOREIGN : Nat := 0x58
abbrev E_HOSTFAULT : Nat := 0x59
abbrev E_DATAERR : Nat := 0x5A
abbrev E_GONE : Nat := 0x5B

/-- Store a queue register. -/
def State.qwr (s : State) (q o v : Nat) : State := s.wrn (qPage q) (qOfs q o) v

def State.modCourier (s : State) (f : CourierSt → CourierSt) : State := { s with courier := f s.courier }
def State.setQueue (s : State) (q : Nat) (x : QueueSt) : State :=
  s.modCourier (fun c => { c with queues := Tbl.set {} q x c.queues })
def State.setFn (s : State) (q : Nat) (x : FnSt) : State := s.modCourier (fun c => { c with fns := Tbl.set {} q x c.fns })

def State.qEn (s : State) (q : Nat) : Bool := (s.qrd q GQ.SQ_CFG).testBit 16

/-- The PCIe link carries host accesses of the device: it is up, HOSTIF is enabled and not isolated (R46, R331, R444). -/
def State.hostUp (s : State) : Bool :=
  bit (s.rd .hostif HOSTIF.HI_LINK) 0 && bit (s.rd .hostif HDR.PAGE_CTL) 0 && !s.isolated .hostif

/-- A function may start Courier transfers (R313, R443). -/
def State.fnActive (s : State) (q : Nat) : Bool :=
  (q == 0 || s.courier.vfEnable) && (s.fnOf q).bme && !(s.fnOf q).d3

/-- COURIER works: ENABLE 1, not isolated. -/
def State.courierOn (s : State) : Bool := bit (s.rd .courier HDR.PAGE_CTL) 0 && !s.isolated .courier

/-! ### Descriptors (R318, R320) -/

/-- A descriptor as its 32 bytes spell it, little-endian. -/
def courierDesc (w : BitVec 256) : Desc :=
  let v := w.toNat
  let op := fld v 7 0
  { op := op, flags := fld v 15 8, tag := fld v 63 32, host := fld v 127 64, dev := fld v 191 128, len := fld v 223 192,
    rsvd := fld v 15 10 != 0 || fld v 31 16 != 0 || fld v 255 224 != 0 || (op == 3 && fld v 191 153 != 0) }

/-- ORDER and IRQ of a descriptor. -/
def Desc.order (d : Desc) : Bool := d.flags.testBit 1
def Desc.irq (d : Desc) : Bool := d.flags.testBit 0

/-- A point lies inside an enabled grant of a function (R324). -/
def FnSt.granted (f : FnSt) (p : Nat) : Bool :=
  (List.range 4).any (fun k => Tbl.get false k f.grantEn && decide (Tbl.get 0 k f.grantFirst ≤ p) &&
    decide (p < Tbl.get 0 k f.grantFirst + Tbl.get 0 k f.grantCount))

/-- Every point from `p` to before `last` lies in an enabled grant: grants are taken one by one, each moving on to its end;
`n` bounds them. -/
def FnSt.covers (f : FnSt) (p last : Nat) : Nat → Bool
  | 0 => decide (last ≤ p)
  | n + 1 =>
    if last ≤ p then true
    else match (List.range 4).find? (fun k => Tbl.get false k f.grantEn && decide (Tbl.get 0 k f.grantFirst ≤ p) &&
        decide (p < Tbl.get 0 k f.grantFirst + Tbl.get 0 k f.grantCount)) with
      | some k => FnSt.covers f (Tbl.get 0 k f.grantFirst + Tbl.get 0 k f.grantCount) last n
      | none => false

/-- The checks of R320 in their order. (DEDUCED, log 82). -/
def State.descCode (s : State) (q : Nat) (d : Desc) : Nat :=
  let f := s.fnOf q
  if d.rsvd then E_RESERVED
  else if d.op = 0 ∨ 3 < d.op ∨ d.len = 0 ∨ 16777216 < d.len then E_RANGE
  else if d.op = 3 ∧ d.len % 8 ≠ 0 then E_ALIGN
  else if d.op ≠ 3 ∧ (if q = 0 then dramSize else f.winLen) < d.dev + d.len then E_RANGE
  else if d.op = 3 ∧ pointCount < d.dev + d.len / 8 then E_RANGE
  else if d.op = 1 ∧ q ≠ 0 ∧ ¬ f.write then E_PERM
  else if d.op = 3 ∧ q ≠ 0 ∧ ¬ f.covers d.dev (d.dev + d.len / 8) 4 then E_PERM
  else 0

/-- DRAM address of a descriptor's first byte. -/
def State.descBase (s : State) (q : Nat) (d : Desc) : Nat :=
  if d.op = 3 then s.pointAddr d.dev else if q = 0 then d.dev else (s.fnOf q).winBase + d.dev

/-! ### Completions (R319, R321) -/

/-- A descriptor has completed: its last segment has, and none is still to start. -/
def DescRun.complete (r : DescRun) : Bool := r.open_ == 0 && (r.code != 0 || r.next == r.desc.len)

/-- A queue stops on a host fault (R326): STOPPED, its interrupts, HOSTFAULTS. -/
def State.qStop (s : State) (q : Nat) : State :=
  let s := s.setQueue q { s.queue q with stopped := true }
  let s := if q = 0 then s else s.raise (.guest q 2) 17
  (s.bump .courier COURIER.HOSTFAULTS).raise .courier 16

/-- A completion cannot be written (R326): the queue stops, and the completion holds the later ones back (R321).
(DEDUCED, log 79). -/
def State.qCut (s : State) (q : Nat) : State :=
  let s := s.qStop q
  s.setQueue q { s.queue q with cut := true }

/-- Write one completion (R319): its entry to the ring's slot, CI, the phase, the counters, CQ_DONE. -/
def State.complete1 (s : State) (q : Nat) (r : DescRun) : State :=
  let x := s.queue q
  let entry := leBytes 4 r.desc.tag ++ leBytes 4 r.done ++ leBytes 1 r.code ++ leBytes 1 (b2n x.phase) ++
    leBytes 2 r.index ++ [0, 0, 0, 0]
  let cq := s.rd2 (qPage q) (qOfs q GQ.CQ_BASE_LO)
  let s : State := s.out (.hostWrite q (cq + 16 * r.index) entry)
  let nxt := (r.index + 1) % s.qSize q
  let s := (s.qwr q GQ.SQ_CI nxt).setQueue q { x with runs := x.runs.drop 1, phase := if nxt = 0 then !x.phase else x.phase }
  let s := s.bump (qPage q) (qOfs q GQ.Q_DONE)
  let s := if r.code = 0 then s else s.bump (qPage q) (qOfs q GQ.Q_ERRS)
  if r.desc.irq ∧ q ≠ 0 then s.raise (.guest q 2) 16 else s

/-- Write the completions that stand at the front, in ring order; `n` bounds them. None is written while COURIER is isolated
or the function resets; one that the host cannot take stops the queue (R326, R331). (DEDUCED, log 79). -/
def State.flush (s : State) (q : Nat) : Nat → State
  | 0 => s
  | n + 1 =>
    match (s.queue q).runs with
    | [] => s
    | r :: _ =>
      if ¬ r.complete ∨ s.isolated .courier ∨ (s.queue q).resetting ∨ (s.queue q).cut then s
      else if ¬ s.hostUp then s.qCut q
      else State.flush (s.complete1 q r) q n

/-- Write what a queue's started descriptors allow. -/
def State.flushQ (s : State) (q : Nat) : State := s.flush q ((s.queue q).runs.length)

/-! ### Starting segments (R321, R323) -/

/-- Bytes of the segment that starts at an offset of a descriptor: to the next 4 KiB boundary of the host address, or to the
end (R321). -/
def segLen (d : Desc) (ofs : Nat) : Nat := min (d.len - ofs) (4096 - (d.host + ofs) % 4096)

/-- A started descriptor with a segment still to hand out. -/
def DescRun.more (r : DescRun) : Bool := r.code == 0 && decide (r.next < r.desc.len)

/-- A posted descriptor may start, given what a fetch of it reads: the queue is on, not stopped, not resetting, its function
active, and an ORDER descriptor waits for the earlier ones (R313, R321, R326, R329). -/
def State.mayStart (s : State) (q : Nat) (d : Option Desc) : Bool :=
  let x := s.queue q
  s.qEn q && !x.stopped && !x.resetting && s.fnActive q && x.fetch % s.qSize q != s.qrd q GQ.SQ_PI % s.qSize q &&
    d.any (fun d => !d.order || x.runs.isEmpty)

/-- A queue has a segment ready. -/
def State.ready (s : State) (q : Nat) (d : Option Desc) : Bool :=
  let x := s.queue q
  (x.runs.any DescRun.more && !x.resetting && s.fnActive q) || s.mayStart q d

/-- WEIGHT in force in the round in progress (R325). (DEDUCED, log 81). -/
def State.roundWeight (s : State) (q : Nat) : Nat :=
  if (s.queue q).weight = 0 then s.weight q else (s.queue q).weight

/-- A round ends (R323, R325). (DEDUCED, log 81). -/
def State.newRound (s : State) : State :=
  let qs := s.courier.queues.map Prod.fst
  qs.foldl (fun t q => t.setQueue q { t.queue q with used := 0, weight := 0 }) s

/-- Whether a queue may have a segment ready, whatever a fetch of it would read. -/
def State.posted (s : State) (q : Nat) : Bool :=
  (s.queue q).runs.any DescRun.more && !(s.queue q).resetting && s.fnActive q || s.mayStart q (some (courierDesc 0))

/-- A round ends once no queue has a segment ready (R323). (DEDUCED, log 81). -/
def State.roundEnd (s : State) : State := if (List.range 256).any (fun q => s.posted q) then s else s.newRound

/-- A round is in progress: a segment was started in it. -/
def State.inRound (s : State) : Bool := s.courier.queues.any (fun e => e.2.used != 0)

/-- The next segment of the first started descriptor that has one goes to an engine. -/
def State.issue (s : State) (e q : Nat) : State :=
  let x := s.queue q
  match x.runs.find? DescRun.more with
  | none => s
  | some r =>
    let n := segLen r.desc r.next
    let seg : Segment := ⟨q, r.index, r.desc.op, r.desc.host + r.next, r.base + r.next, n, false, false⟩
    let runs := x.runs.map (fun y => if y.index = r.index then { y with next := y.next + n, open_ := y.open_ + 1 } else y)
    let s := s.setQueue q { x with runs := runs, used := x.used + 1 }
    s.modCourier (fun c => { c with engines := Tbl.put e seg c.engines })

/-- A queue fetches its next descriptor and checks it (R320), in ring order. -/
def State.takeDesc (s : State) (q : Nat) (d : Desc) : State :=
  let x := s.queue q
  let i := x.fetch % s.qSize q
  let run : DescRun := ⟨d, i, s.descBase q d, 0, 0, 0, s.descCode q d⟩
  s.setQueue q { x with runs := x.runs ++ [run], fetch := (i + 1) % s.qSize q }

/-- A queue starts its next descriptor; one that fails the checks completes with DONE_LEN 0. -/
def State.startDesc (s : State) (q : Nat) (d : Desc) : State := (s.takeDesc q d).flushQ q

/-- What the fetch of a queue's next descriptor would read, as the command gives it. -/
def fetchedAt (l : List (Nat × BitVec 256)) (q : Nat) : Option Desc := (l.find? (fun e => e.1 == q)).map (fun e => courierDesc e.2)

/-- A free engine takes its next segment, by weighted round-robin over the queues that have one ready, lowest number first;
with every ready queue's WEIGHT used the next round begins (R323). A host that cannot be reached stops the queue at its
fetch (R326). -/
def State.segmentStart (s : State) (e : Nat) (l : List (Nat × BitVec 256)) : State :=
  let ready := (List.range 256).filter (fun q => s.ready q (fetchedAt l q))
  let s := if ready.any (fun q => decide ((s.queue q).used < s.roundWeight q)) then s else s.newRound
  match ready.find? (fun q => decide ((s.queue q).used < s.roundWeight q)) with
  | none => s
  | some q =>
    if ((s.queue q).runs.any DescRun.more) then s.issue e q
    else if ¬ s.hostUp then s.qStop q
    else match fetchedAt l q with
      | none => s
      | some d => (s.startDesc q d).issue e q

/-- SEGMENT_START (R323): engine `e` is free and takes a segment; `fetched` says what the host's memory holds at each queue's
next descriptor. -/
def execSegmentStart (e : Fin 8) (fetched : List (Nat × BitVec 256)) (s : State) : Result :=
  if s.courierOn ∧ ¬ s.quarantined .courier e.val ∧ (Tbl.look e.val s.courier.engines).isNone then
    done s (s.segmentStart e.val fetched).roundEnd
  else .next s

/-! ### Segments that end (R321, R326, R329) -/

/-- Change the started descriptor of a segment. -/
def State.modRun (s : State) (g : Segment) (f : DescRun → DescRun) : State :=
  let x := s.queue g.queue
  s.setQueue g.queue { x with runs := x.runs.map (fun y => if y.index = g.index then f y else y) }

/-- The counters of a segment that moved its bytes (R338). (DEDUCED, log 82). -/
def State.countSeg (s : State) (e : Nat) (g : Segment) : State :=
  let s := (s.bump .courier COURIER.SEGMENTS).bump .courier (win e COURIERW.ENG_SEGS)
  if g.op = 1 then
    let s := s.modCourier (fun c => { c with h2d := c.h2d + g.len })
    s.wrn .courier COURIER.BYTES_H2D (min 0xFFFF_FFFF (s.courier.h2d / 4096))
  else
    let s := s.modCourier (fun c => { c with d2h := c.d2h + g.len })
    s.wrn .courier COURIER.BYTES_D2H (min 0xFFFF_FFFF (s.courier.d2h / 4096))

/-- The engine is free; ENG_QUEUE keeps the segment's queue. -/
def State.freeEngine (s : State) (e : Nat) (g : Segment) : State :=
  (s.wrn .courier (win e COURIERW.ENG_QUEUE) g.queue).modCourier (fun c => { c with engines := Tbl.del e c.engines })

/-- A segment ends well: H2D writes `data` to DRAM, D2H and POINT_READ read DRAM and write the host; an uncorrectable error
in the data read ends the descriptor with E_DATAERR (R326). -/
def State.segEffect (s : State) (e : Nat) (g : Segment) (data : List Byte) : State :=
  if g.op = 1 then
    ((s.writeMem g.addr (data.take g.len)).countSeg e g).modRun g
      (fun r => { r with open_ := r.open_ - 1, done := r.done + g.len })
  else if s.poisoned g.addr g.len then
    (((s.ueRange g.addr g.len 6).bump .courier COURIER.DATAERRS).raise .courier 17).modRun g
      (fun r => { r with open_ := r.open_ - 1, code := if r.code = 0 then E_DATAERR else r.code })
  else
    let t : State := s.out (.hostWrite g.queue g.host (s.readMem g.addr g.len))
    (t.countSeg e g).modRun g (fun r => { r with open_ := r.open_ - 1, done := r.done + g.len })

/-- A segment whose queue was reset or restarted ends: writes of DRAM that had been issued and a host write that had left the engine
complete, everything else of it is discarded (R329). -/
def State.segDropped (s : State) (g : Segment) (data : List Byte) (left : Bool) : State :=
  if g.op = 1 then (if g.issued then s.writeMem g.addr (data.take g.len) else s)
  else if left then s.out (.hostWrite g.queue g.host (s.readMem g.addr g.len))
  else s

/-- A segment fails at the host (R326): its descriptor ends with E_HOSTFAULT and the queue stops. -/
def State.segFault (s : State) (e : Nat) (g : Segment) : State :=
  let s := s.freeEngine e g
  if g.dropped then s
  else
    let s := s.modRun g (fun r => { r with open_ := r.open_ - 1, code := if r.code = 0 then E_HOSTFAULT else r.code })
    ((s.qStop g.queue)).flushQ g.queue

/-- SEGMENT_DONE (R321): engine `e`'s segment completes. `data` is what H2D read from the host, of the segment's length;
`left` says, for a segment to the host of a queue under reset, that its write had left the engine. With the host out of reach the
segment fails as a host fault (R444). While COURIER is disabled its engines are idle and hold their segments (R46).
(DEDUCED, log 79). -/
def execSegmentDone (e : Fin 8) (data : List Byte) (left : Bool) (s : State) : Result :=
  match Tbl.look e.val s.courier.engines with
  | none => .next s
  | some g =>
    if (g.op = 1 ∧ data.length < g.len) ∨ (¬ g.dropped ∧ ¬ bit (s.rd .courier HDR.PAGE_CTL) 0) then .next s
    else guardDram g.addr g.len <|
    if g.dropped then done s ((s.freeEngine e.val g).segDropped g data left)
    else if ¬ s.hostUp then done s (s.segFault e.val g).roundEnd
    else done s (((s.freeEngine e.val g).segEffect e.val g data).flushQ g.queue).roundEnd

/-- HOSTIF's counters of the way a host access failed (R326, R451): 0 Unsupported Request or Completer Abort, 1 poisoned
data, 2 completion timeout. -/
def State.hostCause (s : State) (cause : Fin 3) : State :=
  if cause = 1 then s.bump .hostif HOSTIF.POISON_RX else if cause = 2 then s.bump .hostif HOSTIF.CPL_TIMEOUTS else s

/-- The write of queue `q`'s front completion fails, where one is due (R326). -/
def State.completionFault (s : State) (q : Nat) (cause : Fin 3) (old : State) : Result :=
  if (s.queue q).runs.head?.any DescRun.complete ∧ ¬ s.isolated .courier ∧ ¬ (s.queue q).cut then
    done old ((s.hostCause cause).qCut q)
  else .next old

/-- HOST_FAULT (R326): a host access of engine `n`'s segment fails; or the fetch of queue `n`'s next descriptor; or the write of the
completion of a descriptor that fails R320 at its start (`data` being its 32 bytes); or the write of a completion that engine `n`'s
segment leads to, after `after` that were written (`data` as in SEGMENT_DONE). -/
def execHostFault (at_ : HostFaultAt) (n : Nat) (cause : Fin 3) (data : List Byte) (s : State) : Result :=
  match at_ with
  | .segment =>
    match Tbl.look n s.courier.engines with
    | none => .next s
    | some g => done s ((s.hostCause cause).segFault n g).roundEnd
  | .fetch =>
    if s.mayStart n (some (courierDesc 0)) then done s ((s.hostCause cause).qStop n) else .next s
  | .check =>
    let d := courierDesc (BitVec.ofNat 256 (ofLe (data.take 32)))
    if s.mayStart n (some d) ∧ s.descCode n d ≠ 0 ∧ (s.queue n).runs = [] then (s.takeDesc n d).completionFault n cause s
    else .next s
  | .completion after =>
    match Tbl.look n s.courier.engines with
    | none => .next s
    | some g =>
      if g.dropped ∨ (g.op = 1 ∧ data.length < g.len) ∨ ¬ bit (s.rd .courier HDR.PAGE_CTL) 0 then .next s
      else guardDram g.addr g.len <|
        (((s.freeEngine n g).segEffect n g data).flush g.queue after).completionFault g.queue cause s

/-- Drop the segments of a queue that engines hold, of a list of engines: whether the writes of DRAM of a segment from the host had
been issued is open (R329). (DEDUCED, log 83). -/
def State.dropSegsOf (s : State) (q : Nat) : List (Nat × Segment) → State
  | [] => s
  | (e, g) :: t =>
    if g.queue = q ∧ ¬ g.dropped then
      let (v, s) := s.draw
      let s := s.modCourier (fun c => { c with
        engines := Tbl.put e { g with dropped := true, issued := decide (g.op = 1) && v.getLsbD 0 } c.engines })
      State.dropSegsOf s q t
    else State.dropSegsOf s q t

/-- Drop every segment of a queue that an engine holds. -/
def State.dropSegs (s : State) (q : Nat) : State := s.dropSegsOf q s.courier.engines

/-! ### Queue registers (R334) -/

def ringBaseRule (q : Nat) : Rule where
  legal := fun _ _ v => if v % 4096 ≠ 0 then [(0, E_ALIGN)] else []
  busy := fun s _ _ => s.qEn q
def ringBaseLowRule (q : Nat) : Rule where
  busy := fun s _ _ => s.qEn q

/-- SQ_CFG: setting EN makes CI equal PI, clears STOPPED, starts phase 1 and discards what was posted (R326, R334). -/
def sqCfgRule (q : Nat) : Rule where
  legal := fun _ _ v => if fld v 3 0 < 4 ∨ 12 < fld v 3 0 then [(0, E_RANGE)] else []
  busy := fun s _ v => s.qEn q && fld v 3 0 != s.qrd q GQ.SQ_CFG % 16
  pre := fun s _ v =>
    if fld v 16 16 = 1 ∧ ¬ s.qEn q then
      let pi := s.qrd q GQ.SQ_PI
      let s := (s.qwr q GQ.SQ_CI pi).setQueue q
        { s.queue q with runs := [], fetch := pi, phase := true, stopped := false, cut := false }
      s.dropSegs q
    else s

/-- SQ_EN (R334): a write of SQ_CFG with EN 1 and a LOG2. -/
def execSqEn (src : Src) (q : Fin 256) (log2 : BitVec 4) (s : State) : Result :=
  done s (s.writeReg (sqCfgRule q.val) src (qPage q.val) (qOfs q.val GQ.SQ_CFG) (BitVec.ofNat 32 (2 ^ 16 + log2.toNat)))

/-- Descriptors that a write of PI posts. -/
def State.advance (s : State) (q v : Nat) : Nat := (v + s.qSize q - s.qrd q GQ.SQ_PI % s.qSize q) % s.qSize q

/-- (DEDUCED, log 80). -/
def sqPiRule (q : Nat) : Rule where
  legal := fun s _ v =>
    if s.isolated .courier then [(0, E_LOCKED)] else if s.qSize q ≤ v then [(0, E_RANGE)] else []
  busy := fun s _ _ => (s.queue q).resetting
  check := fun s _ v =>
    let a := s.advance q (fld v 11 0)
    if ¬ s.qEn q ∨ (s.queue q).stopped then some E_MODE
    else if s.qSize q ≤ s.occ q + a then some E_SEQ
    else if 0 < a ∧ s.limit q < s.occ q + a then some E_FULL
    else none

/-- SQ_PI_WRITE (R323). -/
def execSqPiWrite (src : Src) (q : Fin 256) (w : Word) (s : State) : Result :=
  done s (s.writeReg (sqPiRule q.val) src (qPage q.val) (qOfs q.val GQ.SQ_PI) w)

/-- Q_SHAREq (R325, R338): the round in progress keeps the old WEIGHT. -/
def qShareRule (q : Nat) : Rule where
  legal := fun _ _ v =>
    (if fld v 4 0 = 0 ∨ 16 < fld v 4 0 then [(0, E_RANGE)] else []) ++ (if fld v 27 16 = 0 ∨ fld v 31 28 ≠ 0 then [(16, E_RANGE)] else [])
  pre := fun s _ _ =>
    let x := s.queue q
    if x.weight = 0 ∧ s.inRound then s.setQueue q { x with weight := s.weight q } else s

/-- Q_SHARE_WRITE (R325). -/
def execQShareWrite (src : Src) (q : Fin 256) (w : Word) (s : State) : Result :=
  done s (s.writeReg (qShareRule q.val) src .courier (COURIER.Q_SHARE q.val) w)

/-- CNT_CLR of COURIER (R338). -/
def courierClrRule : Rule where
  apply := fun s _ v =>
    if fld v 0 0 = 0 then s
    else
      let s := s.zero .courier ([COURIER.SEGMENTS, COURIER.BYTES_H2D, COURIER.BYTES_D2H, COURIER.HOSTFAULTS,
        COURIER.DATAERRS, COURIER.FN_RESETS, 0x100 + GQ.Q_DONE, 0x100 + GQ.Q_ERRS] ++ (List.range 8).map (fun e => win e COURIERW.ENG_SEGS))
      s.modCourier (fun c => { c with h2d := 0, d2h := 0 })

/-! ### Function reset (R328 to R331) -/

/-- Segments of started descriptors that were not issued; `n` bounds them. -/
def segsLeft (d : Desc) (ofs : Nat) : Nat → Nat
  | 0 => 0
  | n + 1 => if d.len ≤ ofs then 0 else 1 + segsLeft d (ofs + segLen d ofs) n

/-- Start a function reset with a cause of R371 (0 FLR, 1 FRESET, 2 FN_RESET, 3 VF Enable cleared); one that runs takes it
in (R329, R331). (DEDUCED, log 83). -/
def State.startReset (s : State) (g cause : Nat) : State :=
  let x := s.queue g
  if x.resetting then s
  else
    let left := (x.runs.map (fun r => if r.more then segsLeft r.desc r.next 4097 else 0)).foldl (· + ·) 0
    ((s.setQueue g { x with resetting := true, cause := cause, dropped := left, runs := [] }).dropSegs g).roundEnd

/-- Return a range of registers to their reset values, with half-written fields and latched words of it. -/
def State.clearRegs (s : State) (lo hi : Nat) : State :=
  let out : Nat → Bool := fun a => !(decide (lo ≤ a) && decide (a < hi))
  { s with regs := Tbl.keep out s.regs, shadow := Tbl.keep out s.shadow,
           latch := Tbl.keep (fun a => out (a % 2 ^ 33)) s.latch }

/-- The reset finishes (R329, R330): queue and guest page registers return to their reset values, RESET_DONE, the counts,
FN_RESET_DONE, the record. (DEDUCED, log 83). -/
def State.resetEnd (s : State) (g : Nat) : State :=
  let x := s.queue g
  let s := s.setQueue g {}
  let s := if g = 0 then s.clearRegs (Page.base .courier + 0x140) (Page.base .courier + 0x16C)
    else (s.clearRegs (Page.base (.guest g 0)) (Page.base (.guest g 0) + 0x4000)).raise (.guest g 0) 18
  let s := s.setFn g { s.fnOf g with resets := satAdd 0xFFFF (s.fnOf g).resets 1 }
  let s := (s.bump .courier COURIER.FN_RESETS).raise .hostif 16
  s.emitAt .courier 0 0x042 g (leBytes 1 x.cause ++ [0, 0, 0] ++ leBytes 4 x.dropped)

/-- FN_RESET_DONE (R329): function `g`'s fence count has reached zero. -/
def execFnResetDone (g : Fin 256) (s : State) : Result :=
  if (s.queue g.val).resetting ∧ s.fence g.val = 0 then done s (s.resetEnd g.val) else .next s

/-- FLR (R328): of the physical function (0) or a virtual one. -/
def execFlr (g : Fin 256) (s : State) : Result := done s (s.startReset g.val 0)

def gCtlRule (g : Nat) : Rule where
  busy := fun s _ v => decide (fld v 0 0 = 1) && (s.queue g).resetting
  apply := fun s _ v => if fld v 0 0 = 1 then s.startReset g 1 else s

/-- G_FRESET (R328, R332): the guest's own function writes G_CTL.FRESET. -/
def execGFreset (g : Fin 256) (s : State) : Result :=
  done s (s.writeReg (gCtlRule g.val) (.fn g.val) (.guest g.val 0) GCTL.G_CTL 1)

/-! ### Function settings (R337) -/

/-- The function that FN_SEL names. -/
def State.fnSel (s : State) : Nat := s.rdf .hostif HOSTIF.FN_SEL 7 0

/-- FN_WIN_BASE as written for the next write of FN_WIN_LEN_HI. -/
def State.winBase (s : State) : Nat :=
  let b := Page.base .hostif
  (Tbl.get (s.rd .hostif HOSTIF.FN_WIN_BASE_LO) (b + HOSTIF.FN_WIN_BASE_LO) s.shadow).toNat +
    2 ^ 32 * (Tbl.get (s.rd .hostif HOSTIF.FN_WIN_BASE_HI) (b + HOSTIF.FN_WIN_BASE_HI) s.shadow).toNat

/-- The window registers show the selected function's window; words that wait are taken or gone. -/
def State.loadWin (s : State) : State :=
  let f := s.fnOf s.fnSel
  let b := Page.base .hostif
  let s : State := { s with shadow := Tbl.del (b + HOSTIF.FN_WIN_BASE_LO) (Tbl.del (b + HOSTIF.FN_WIN_BASE_HI)
    (Tbl.del (b + HOSTIF.FN_WIN_LEN_LO) s.shadow)) }
  (s.wr2 .hostif HOSTIF.FN_WIN_BASE_LO f.winBase).wr2 .hostif HOSTIF.FN_WIN_LEN_LO f.winLen

def fnSelRule : Rule where
  legal := fun _ _ v => if v = 0 ∨ 255 < v then [(0, E_RANGE)] else []
  apply := fun s _ _ => s.loadWin

/-- Two ranges share a byte. -/
def overlap (a n b m : Nat) : Bool := decide (0 < n) && decide (0 < m) && decide (a < b + m) && decide (b < a + n)

/-- FN_WIN_LEN_HI: the window's four words apply together (R337). -/
def fnWinRule : Rule where
  legal := fun s _ v =>
    let base := s.winBase
    if base % 4096 ≠ 0 ∨ v % 4096 ≠ 0 then [(0, E_ALIGN)] else if dramSize < base + v then [(0, E_RANGE)] else []
  busy := fun s _ v =>
    let f := s.fnOf s.fnSel
    (s.winBase != f.winBase || v != f.winLen) && s.occ s.fnSel != 0
  check := fun s _ v =>
    let base := s.winBase
    if s.courier.fns.any (fun e => e.1 != s.fnSel && overlap base v e.2.winBase e.2.winLen) ∨
        overlap base v (s.rd2 .point POINT.PIMG_BASE_LO) (8 * pointCount) then some E_CONFLICT else none
  apply := fun s _ v =>
    let g := s.fnSel
    (s.setFn g { s.fnOf g with winBase := s.winBase, winLen := v }).loadWin

def fnWinCtlRule : Rule where
  busy := fun s _ v => (decide (fld v 0 0 = 1) != (s.fnOf s.fnSel).write) && s.occ s.fnSel != 0
  apply := fun s _ v => s.setFn s.fnSel { s.fnOf s.fnSel with write := decide (fld v 0 0 = 1) }

/-- FIRST of grant k (R337). -/
def grantLoRule (k : Nat) : Rule where
  legal := fun s _ v =>
    if pointCount < fld v 24 0 + Tbl.get 0 k (s.fnOf s.fnSel).grantCount then [(0, E_RANGE)] else []
  busy := fun s _ v => fld v 24 0 != Tbl.get 0 k (s.fnOf s.fnSel).grantFirst && s.occ s.fnSel != 0
  apply := fun s _ v =>
    let f := s.fnOf s.fnSel
    s.setFn s.fnSel { f with grantFirst := Tbl.set 0 k (fld v 24 0) f.grantFirst }
/-- COUNT and EN of grant k (R337). -/
def grantHiRule (k : Nat) : Rule where
  legal := fun s _ v =>
    if (fld v 16 0 = 0 ∧ fld v 31 31 = 1) ∨ 65536 < fld v 16 0 ∨
      pointCount < Tbl.get 0 k (s.fnOf s.fnSel).grantFirst + fld v 16 0 then [(0, E_RANGE)] else []
  busy := fun s _ v => fld v 16 0 != Tbl.get 0 k (s.fnOf s.fnSel).grantCount && s.occ s.fnSel != 0
  apply := fun s _ v =>
    let f := s.fnOf s.fnSel
    s.setFn s.fnSel { f with
      grantCount := Tbl.set 0 k (fld v 16 0) f.grantCount, grantEn := Tbl.set false k (decide (fld v 31 31 = 1)) f.grantEn }

def fnResetRule : Rule where
  apply := fun s _ v => if fld v 0 0 = 1 then s.startReset s.fnSel 2 else s

/-- FN_RESET (R328): a write of FN_RESET.GO. -/
def execFnReset (src : Src) (s : State) : Result := done s (s.writeReg fnResetRule src .hostif HOSTIF.FN_RESET 1)

/-! ### Streams page and Ledger view (R333, R335) -/

/-- Words of a latched selection. -/
def State.putStr (s : State) (g lock d0 d1 d2 d3 : Nat) : State :=
  let p : Page := .guest g 1
  ((((s.wrn p GSTR.STR_STS (2 ^ 31 + lock * 2 ^ 16)).wrn p GSTR.STR_D0 d0).wrn p GSTR.STR_D1 d1).wrn p GSTR.STR_D2 d2).wrn p
    GSTR.STR_D3 d3

/-- A publication entry that stands. -/
def State.pubOf (s : State) (i : Nat) : Option Pub := Tbl.look i s.pubs

/-- STR_SEL: the object must be valid and the guest's own; its values are latched at one instant (R333). -/
def strSelRule (g : Nat) : Rule where
  legal := fun _ _ v => if fld v 15 12 ≠ 0 then [(0, E_RANGE)] else []
  check := fun s _ v =>
    let i := fld v 11 0
    let owner := if fld v 16 16 = 1 then (s.pubOf i).map (fun u => u.entry.guest)
      else (Tbl.look i s.porter.ctxs).map (fun c => c.d.guest)
    match owner with
    | none => some E_ORPHAN
    | some h => if h = g then none else some E_FOREIGN
  apply := fun s _ v =>
    let i := fld v 11 0
    if fld v 16 16 = 1 then
      match s.pubOf i with
      | none => s
      | some u => s.putStr g 0 (u.count % 2 ^ 32) (u.count / 2 ^ 32) u.stNum u.sqNum
    else
      match Tbl.look i s.porter.ctxs with
      | none => s
      | some c => s.putStr g (s.actx i).state (c.st.rxOk % 2 ^ 32) (c.st.rxOk / 2 ^ 32) c.st.authFail
          (satAdd 0xFFFF_FFFF c.st.authLate c.st.lateDrop)

/-- STR_SEL (R333): `pub` selects publications. -/
def execStrSel (g : Fin 256) (pub : Bool) (index : BitVec 16) (s : State) : Result :=
  done s (s.writeReg (strSelRule g.val) (.fn g.val) (.guest g.val 1) GSTR.STR_SEL
    (BitVec.ofNat 32 (b2n pub * 2 ^ 16 + index.toNat)))

/-- Outcome of a selection in the Ledger view: CODE, and the record's entry when it is copied (R335). -/
def State.lvFind (s : State) (g seq : Nat) : Nat × Option RingEnt :=
  if s.rd2 (.guest g 3) GLV.LV_HEAD_LO < seq then (E_RANGE, none)
  else match s.ledger.idx.find? (fun e => !e.filler && e.seq == seq) with
    | none => (E_GONE, none)
    | some e => if e.guest = g then (0, some e) else (E_FOREIGN, none)

/-- Put a record's bytes into sixty-four data registers; bytes beyond its end read 0. -/
def State.putData (s : State) (p : Page) (at_ : Nat → Nat) (bs : List Byte) : State :=
  (List.range 64).foldl (fun t k => t.wrn p (at_ k) (ofLe ((bs.drop (4 * k)).take 4))) s

/-- (DEDUCED, log 84). -/
def lvSelRule (g : Nat) : Rule where
  apply := fun s _ v =>
    let p : Page := .guest g 3
    match s.lvFind g v with
    | (c, none) => s.wrf p GLV.LV_STS 23 16 c
    | (_, some e) =>
      let (bs, s) := s.readOpen (s.ringBase + e.ofs) e.len
      (s.putData p GLV.LV_DATA bs).wrn p GLV.LV_STS (2 ^ 31 + e.len)

/-- LV_SEL (R335): a write of LV_SEL, low word then high word. -/
def execLvSel (g : Fin 256) (seq : BitVec 64) (s : State) : Result :=
  let t := s.writeReg {} (.fn g.val) (.guest g.val 3) GLV.LV_SEL_LO (BitVec.ofNat 32 seq.toNat)
  done s (t.writeReg (lvSelRule g.val) (.fn g.val) (.guest g.val 3) GLV.LV_SEL_HI (BitVec.ofNat 32 (seq.toNat / 2 ^ 32)))

/-! ### PCIe events (R313, R328, R443, R444, R463, R66) -/

/-- VF_ENABLE_SET (R313). -/
def execVfEnableSet (s : State) : Result := .next (s.modCourier (fun c => { c with vfEnable := true }))

/-- VF_ENABLE_CLEAR (R328): every virtual function is reset. -/
def execVfEnableClear (s : State) : Result :=
  let t := s.modCourier (fun c => { c with vfEnable := false })
  done s ((List.range 255).foldl (fun t i => t.startReset (i + 1) 3) t)

/-- BUS_MASTER_ENABLE_CHG (R313). -/
def execBusMasterEnableChg (fn : Fin 256) (on : Bool) (s : State) : Result :=
  .next (s.setFn fn.val { s.fnOf fn.val with bme := on })

/-- D3HOT_TRANSITION (R443): to D3hot, or back to D0. -/
def execD3hotTransition (fn : Fin 256) (d3 : Bool) (s : State) : Result :=
  .next (s.setFn fn.val { s.fnOf fn.val with d3 := d3 })

/-- Speed codes 1 to 5; widths 1, 2, 4 and 8 as 0 to 3 (R443, R451). PCIE_LINK_UP: training ends, which takes SerDes PLL 1 (R455). -/
def execPcieLinkUp (speed : Fin 5) (width : Fin 4) (s : State) : Result :=
  if ¬ s.sdLocked 1 then .next s else .next (s.wrn .hostif HOSTIF.HI_LINK (2 ^ width.val * 2 ^ 16 + (speed.val + 1) * 2 ^ 8 + 1))

/-- The link is down (R444): every host access in flight fails as a host fault. -/
def State.linkLost (s : State) : State :=
  let s := s.wrn .hostif HOSTIF.HI_LINK 0
  s.courier.engines.foldl (fun t e => t.segFault e.1 e.2) s

/-- PCIE_LINK_DOWN (R444). -/
def execPcieLinkDown (s : State) : Result := done s s.linkLost

/-- PCIE_RESET (R463): the link and the configuration space of every function, with a function reset of each. -/
def execPcieReset (s : State) : Result :=
  let t := (List.range 256).foldl (fun t g => t.startReset g 0) (s.wrn .hostif HOSTIF.HI_LINK 0)
  let t := t.modCourier (fun c => { c with
    vfEnable := false, fns := Tbl.change {} (fun _ f => { f with bme := false, d3 := false }) c.fns })
  done s { t with msixMask := [], msixPend := [] }

/-- A vector of a function: ten for the physical function, four for a virtual one. -/
def msixOk (fn vec : Nat) : Bool := if fn = 0 then decide (vec < 10) else decide (fn < 256) && decide (vec < 4)

/-- MSIX_MASK (R66). (DESIGN CHOICE, log 30). -/
def execMsixMask (fn vec : Nat) (s : State) : Result :=
  if msixOk fn vec then .next { s with msixMask := Tbl.set false (vecKey fn vec) true s.msixMask } else .next s

/-- MSIX_UNMASK (R66): a message that waits is sent if its summary is still 1; its pending bit clears. -/
def execMsixUnmask (fn vec : Nat) (s : State) : Result :=
  if msixOk fn vec then
    let k := vecKey fn vec
    let t : State := { s with msixMask := Tbl.set false k false s.msixMask, msixPend := Tbl.set false k false s.msixPend }
    .next (if Tbl.get false k s.msixPend && s.vecLevel fn vec then t.fire fn vec else t)
  else .next s

/-! ### Rules -/

/-- The rules of a queue's registers (R334), at their offsets in the queues page. -/
def queueRule (q o : Nat) : Rule :=
  if o = GQ.SQ_BASE_LO ∨ o = GQ.CQ_BASE_LO then ringBaseLowRule q
  else if o = GQ.SQ_BASE_HI ∨ o = GQ.CQ_BASE_HI then ringBaseRule q
  else if o = GQ.SQ_CFG then sqCfgRule q
  else if o = GQ.SQ_PI then sqPiRule q
  else {}

/-- The rules of COURIER's registers (R338). -/
def courierRule (o : Nat) : Rule :=
  if 0x140 ≤ o ∧ o < 0x16C then queueRule 0 (o - 0x100)
  else if o = COURIER.CNT_CLR then courierClrRule
  else if 0x400 ≤ o ∧ o < 0x800 then qShareRule ((o - 0x400) / 4)
  else {}

/-- The rules of HOSTIF's registers (R337, R451). -/
def hostifRule (o : Nat) : Rule :=
  if o = HOSTIF.FN_SEL then fnSelRule
  else if o = HOSTIF.FN_WIN_LEN_HI then fnWinRule
  else if o = HOSTIF.FN_WIN_CTL then fnWinCtlRule
  else if 0x060 ≤ o ∧ o < 0x080 then
    if o % 8 = 0 then grantLoRule ((o - 0x060) / 8) else grantHiRule ((o - 0x060) / 8)
  else if o = HOSTIF.FN_RESET then fnResetRule
  else if o = HOSTIF.HI_CNT_CLR then
    { apply := fun s _ v => if fld v 0 0 = 0 then s
        else s.zero .hostif [HOSTIF.CORR_ERRS, HOSTIF.UNCORR_ERRS, HOSTIF.POISON_RX, HOSTIF.CPL_TIMEOUTS] }
  else {}

/-- The rules of a guest's pages (R332 to R335). -/
def guestRule (g p o : Nat) : Rule :=
  match p with
  | 0 => if o = GCTL.G_CTL then gCtlRule g else {}
  | 1 => if o = GSTR.STR_SEL then strSelRule g else {}
  | 2 => queueRule g o
  | _ => if o = GLV.LV_SEL_HI then lvSelRule g else {}

end Sys2Proof.Machine
end

