-- ==== Sys2Proof/Machine/Flash.lean ====
section
/-! DEFINITION. Sys2Proof/Machine/Flash.lean: the patrol scrubber, DRAMC's registers, flash commands and the writing of
checkpoints (R440, R441, R445 to R453). -/
namespace Sys2Proof.Machine

/-! ### Scrubber (R438, R440, R450) -/

/-- Lines of one controller. -/
def scrubLines : Nat := 2 ^ 27
/-- The k-th line of a controller: address bit 11 names the controller (R436). (DEDUCED, log 107). -/
def scrubAddr (c k : Nat) : Nat := k / 32 * 4096 + c * 2048 + k % 32 * 64

/-- The next line of a controller's scrubber. -/
def State.scrubPos (s : State) (c : Nat) : Nat := (Tbl.get {} c s.scrub).pos

/-- SCRUB_READ (R440): controller `c` reads its next line, in which it finds what `find` says; a poisoned line is
uncorrectable whatever it finds. (DEDUCED, log 107). -/
def execScrubRead (c : Fin 2) (find : EccFind) (s : State) : Result :=
  let p : Page := .dramc c.val
  if s.role.mode = .boot ∨ ¬ bit (s.rd p DRAMC.SCRUB_CTL) 0 ∨ s.isolated p then .next s
  else
    let k := s.scrubPos c.val % scrubLines
    let a := scrubAddr c.val k
    let t := if s.poisoned a 64 ∨ find = .uncorrectable then
        let (v, t) := s.draw
        t.dramUe a (v.toNat % 256)
      else if find = .corrected then
        (s.eccCorrect p (a / 256 % 8)).bump p DRAMC.SCRUB_FIX
      else s
    let k := (k + 1) % scrubLines
    let t : State := { t with scrub := Tbl.set {} c.val { pos := k } t.scrub }
    if k = 0 then done s ((t.bumpf p DRAMC.SCRUB_STS 31 16).raise p 17) else done s t

def scrubCtlRule : Rule where
  legal := fun _ _ v => if fld v 15 8 = 0 ∨ 168 < fld v 15 8 then [(8, E_RANGE)] else []

/-- Bytes of the guest store area (R441). -/
def gstoreSize : Nat := 2684354560

/-- GSTORE_BASE, at its high word (R450). -/
def gstoreRule : Rule where
  legal := fun _ _ v =>
    if v % 268435456 ≠ 0 then [(0, E_ALIGN)] else if dramSize < v + gstoreSize then [(0, E_RANGE)] else []
  check := fun s _ v =>
    if overlap v gstoreSize (s.rd2 .point POINT.PIMG_BASE_LO) (8 * pointCount) ∨
        overlap v gstoreSize s.ringBase s.ringSize then some E_CONFLICT else none

/-- Clear the counters of a controller. -/
def dramcClrRule (p : Page) : Rule where
  apply := fun s _ v =>
    if fld v 0 0 = 0 then s
    else s.zero p ([DRAMC.CE_TOTAL, DRAMC.UE_TOTAL, DRAMC.SCRUB_FIX] ++
      (List.range 8).flatMap (fun c => [win c DRAMCW.CH_CE, win c DRAMCW.CH_UE]))

/-- The rules of DRAMC's registers. -/
def dramcRule (n o : Nat) : Rule :=
  if o = DRAMC.SCRUB_CTL then scrubCtlRule
  else if o = DRAMC.GSTORE_BASE_HI ∧ n = 0 then gstoreRule
  else if o = DRAMC.CNT_CLR then dramcClrRule (.dramc n)
  else {}

/-! ### Flash commands (R445, R452) -/

/-- Structure of a boot image: MAGIC, LEN and CRC-32C (R303). -/
def bootImageOk (b : List Byte) : Bool :=
  let len := leAt b 4 4
  b.take 4 == [0x58, 0x42, 0x54, 0x31] && decide (320 ≤ len) && decide (len ≤ 1048576) && len % 8 == 0 &&
    decide (len ≤ b.length) &&
    (crc32c (b.take 12 ++ [0, 0, 0, 0] ++ (b.take len).drop 16)).beq (leAt b 12 4)

def flLenRule : Rule where
  legal := fun _ _ v => if fld v 29 0 = 0 then [(0, E_RANGE)] else []

/-- FL_CMD (R452). -/
def flCmdRule : Rule where
  legal := fun s _ v =>
    let ofs := s.rdf .flash FLASH.FL_OFS 29 0
    let len := s.rdf .flash FLASH.FL_LEN 29 0
    if fld v 1 0 = 0 ∨ fld v 1 0 = 3 then [(0, E_RANGE)]
    else if fld v 1 0 = 1 ∧ s.flashSize ≠ 0 ∧ s.flashSize < ofs + len then [(0, E_RANGE)] else []
  busy := fun s _ _ => s.flashJob.isSome
  check := fun s _ v => if fld v 1 0 = 2 ∧ s.role.mode = .safe then some E_MODE else none
  apply := fun s _ v =>
    let s := s.flashHold
    let dram := s.rd2 .flash FLASH.FL_DRAM_LO % 2 ^ 34
    { s with flashJob := some (if fld v 1 0 = 1 then
        .read (s.rdf .flash FLASH.FL_OFS 29 0) dram (s.rdf .flash FLASH.FL_LEN 29 0)
      else .slotWrite (fld v 8 8) dram 0) }

/-- FL_READ (R452): a write of FL_CMD with OP READ. -/
def execFlRead (src : Src) (s : State) : Result := done s (s.writeReg flCmdRule src .flash FLASH.FL_CMD 1)
/-- SLOT_WRITE (R452): a write of FL_CMD with OP SLOT_WRITE and a slot. (DEDUCED, log 106). -/
def execSlotWrite (src : Src) (slot : Bool) (s : State) : Result :=
  done s (s.writeReg flCmdRule src .flash FLASH.FL_CMD (BitVec.ofNat 32 (b2n slot * 256 + 2)))

/-- The manager's flash command ends with a code: FL_RESULT and IRQ FL_DONE. -/
def State.flEnd (s : State) (code : Nat) : State :=
  (({ s with flashJob := none } : State).wrn .flash FLASH.FL_RESULT code).raise .flash 16

/-- A SLOT_WRITE ends, with its kept record (R448, R452). -/
def State.slotEnd (s : State) (slot dram code : Nat) : State :=
  (s.emit .flash 0x0B2 0 (leBytes 1 slot ++ leBytes 1 code ++ [0, 0] ++ leBytes 4 (s.leMem (dram + 8) 4))).flEnd code

/-- Program bytes into flash, which was erased before. -/
def State.program (s : State) (a : Nat) (bs : List Byte) : State := { s with flash := putFlash s.flash a bs }
/-- Erase whole sectors of 64 KiB from an offset. -/
def State.erase (s : State) (a n : Nat) : State := { s with flash := eraseFlash s.flash a (ceilDiv n 65536 * 65536) }

/-- One flash command of a SLOT_WRITE completes (R449, R452): the check with the erase, the program, the read-back. `ok` is
that the flash did what it was told. In SAFE the write stops after it. An image whose LEN runs past the end of DRAM fails the
check. (DEDUCED, log 106; DESIGN CHOICE, log 115). -/
def State.slotStep (s : State) (slot dram stage : Nat) (ok : Bool) : State :=
  let len := s.leMem (dram + 4) 4
  let at_ := slot * 1048576
  let next : State → State := fun t =>
    if t.role.mode = .safe then t.slotEnd slot dram E_MODE
    else { t with flashJob := some (.slotWrite slot dram (stage + 1)) }
  if stage = 0 then
    if s.poisoned dram (min 1048576 len) then
      let (v, t) := s.draw
      (t.ueRange dram (min 1048576 len) (v.toNat % 256)).slotEnd slot dram E_DRAMUE
    else if dramSize < dram + min 1048576 len ∨ ¬ bootImageOk (s.readMem dram (min 1048576 len)) then s.slotEnd slot dram E_FLIMG
    else
      let t := s.erase at_ 1048576
      if ok then next t else t.slotEnd slot dram E_FLASH
  else if stage = 1 then
    let t := s.program at_ (s.readMem dram len)
    if ok then next t else t.slotEnd slot dram E_FLASH
  else s.slotEnd slot dram (if ok then 0 else E_FLASH)

/-- One flash command of the checkpoint completes (R446): the erase of the copy not in force, the body, the header, the
read-back, after which that copy is in force. (DEDUCED, log 105). -/
def State.ckptStep (s : State) (ok : Bool) : State :=
  let c := s.ckptTarget
  let seq := s.ckptSeq
  let copy := s.ckptCopy seq
  let next : State → State := fun t =>
    if t.role.mode = .safe then t.ckptFail E_MODE else { t with ckpt := { t.ckpt with stage := t.ckpt.stage + 1 } }
  let bad := s.ckpt.snaps.any (fun n =>
    s.poisoned (s.imgStore n.guest) n.image.length || s.poisoned (s.stageAt n.guest) n.retained.length)
  if s.ckpt.stage = 1 ∧ bad then
    (s.ckpt.snaps.foldl (fun t n =>
      (t.ueRange (t.imgStore n.guest) n.image.length 8).ueRange (t.stageAt n.guest) n.retained.length 8) s).ckptFail E_DRAMUE
  else if s.ckpt.stage = 0 then
    let t := s.erase (s.ckptOfs c) copy.length
    if ok then next t else t.ckptFail E_FLASH
  else if s.ckpt.stage = 1 then
    let t := s.program (s.ckptOfs c + 64) (copy.drop 64)
    if ok then next t else t.ckptFail E_FLASH
  else if s.ckpt.stage = 2 then
    let t := s.program (s.ckptOfs c) (copy.take 64)
    if ok then { t with ckpt := { t.ckpt with stage := 3, target := some (c, seq, copy.length) } } else t.ckptFail E_FLASH
  else
    match s.ckpt.target with
    | none => s.ckptFail E_FLASH
    | some (c, seq, len) =>
      if ¬ ok then s.ckptFail E_FLASH
      else if s.role.mode = .safe then s.ckptFail E_MODE
      else
        let s := ((s.wrf .flash FLASH.CKPT_STS 24 24 c).wr2 .flash FLASH.CKPT_SEQ_LO seq).wr2 .flash FLASH.CKPT_LEN_LO len
        let s := ((s.wrf .flash FLASH.CKPT_STS 7 0 0).raise .flash 17).ckptRecord 0 c len seq
        { s with ckpt := { state := 4 } }

/-- The manager's flash command completes a flash command. -/
def State.managerStep (s : State) (old : State) (ok : Bool) : Result :=
  match s.flashJob with
  | none => .next old
  | some j =>
    if s.flashSize = 0 then done old (match j with | .read .. => s.flEnd E_NOFLASH | .slotWrite n d _ => s.slotEnd n d E_NOFLASH)
    else match j with
    | .read ofs dram len => guardDram dram len (done old ((s.writeMem dram (s.readFlash ofs len)).flEnd 0))
    | .slotWrite n d st => done old (s.slotStep n d st ok)

/-- FLASH_OP_DONE (R445): the flash command that runs completes, of a commit, of the manager's command or of the checkpoint; `ok` is
that the flash did what it was told. The next one is then issued in the order of R445. (DESIGN CHOICE, log 115). -/
def execFlashOpDone (ok : Bool) (s : State) : Result :=
  if ¬ s.working .flash then .next s
  else
    let t : State := { s with flashRun := none }
    match s.flashOwner with
    | none => .next s
    | some .keys => done s (t.commitStep ok)
    | some .manager => t.managerStep s ok
    | some .ckpt => done s (t.ckptStep ok)

/-! ### Checkpoint registers (R446, R452) -/

def ckptCmdRule : Rule where
  busy := fun s _ _ => s.ckptRuns
  apply := fun s _ v => if fld v 0 0 = 1 then s.ckptGo else s

/-- CKPT_GO (R446). -/
def execCkptGo (src : Src) (s : State) : Result := done s (s.writeReg ckptCmdRule src .flash FLASH.CKPT_CMD 1)

def ckptCtlRule : Rule where
  legal := fun _ _ v => if 86400 < fld v 16 0 then [(0, E_RANGE)] else []

/-- The rules of FLASH's registers. -/
def flashRule (o : Nat) : Rule :=
  if o = FLASH.FL_LEN then flLenRule
  else if o = FLASH.FL_CMD then flCmdRule
  else if o = FLASH.CKPT_CTL then ckptCtlRule
  else if o = FLASH.CKPT_CMD then ckptCmdRule
  else {}

end Sys2Proof.Machine
end

