-- ==== Sys2Proof/Machine/Float.lean ====
section
/-! DEFINITION. Sys2Proof/Machine/Float.lean: IEEE 754-2019 binary32 and binary64 arithmetic as R196 and R233 fix it
(round to nearest, ties to even; subnormals kept; canonical quiet NaN; five sticky flags; tininess after rounding).
Operands are taken to exact integers, the result is computed exactly and rounded once. -/
namespace Sys2Proof.Machine

/-- A binary format: precision `p` (with the hidden bit) and exponent field width `w`. -/
structure Fmt where
  p : Nat
  w : Nat
deriving DecidableEq, Repr

/-- binary32. -/
def fmt32 : Fmt := ⟨24, 8⟩
/-- binary64. -/
def fmt64 : Fmt := ⟨53, 11⟩

/-- The five sticky flags of FPS (R233): invalid, division by zero, overflow, underflow, inexact. -/
structure FFlags where
  nv : Bool := false
  dz : Bool := false
  ofl : Bool := false
  ufl : Bool := false
  nx : Bool := false
deriving DecidableEq, Repr

/-- Flags as bits 0 to 4 of FPS. -/
def flagBits (f : FFlags) : Nat := b2n f.nv + 2 * b2n f.dz + 4 * b2n f.ofl + 8 * b2n f.ufl + 16 * b2n f.nx

/-- Flags of two operations together. -/
def orFlags (a b : FFlags) : FFlags := ⟨a.nv || b.nv, a.dz || b.dz, a.ofl || b.ofl, a.ufl || b.ufl, a.nx || b.nx⟩

/-- A decoded operand. A finite value is (−1)^s × m × 2^e. -/
inductive FVal where
  | nan (signalling : Bool)
  | inf (s : Bool)
  | fin (s : Bool) (m : Nat) (e : Int)
deriving DecidableEq, Repr

/-- Largest exponent of a format; the bias. -/
def fBias (f : Fmt) : Int := 2 ^ (f.w - 1) - 1
/-- Exponent of the least bit of a subnormal. -/
def fTiny (f : Fmt) : Int := 1 - fBias f - (f.p - 1)
/-- Canonical quiet NaN (R233). -/
def fNaN (f : Fmt) : Nat := (2 ^ f.w - 1) * 2 ^ (f.p - 1) + 2 ^ (f.p - 2)
/-- Infinity of a sign. -/
def fInf (f : Fmt) (s : Bool) : Nat := b2n s * 2 ^ (f.p - 1 + f.w) + (2 ^ f.w - 1) * 2 ^ (f.p - 1)
/-- Zero of a sign. -/
def fZero (f : Fmt) (s : Bool) : Nat := b2n s * 2 ^ (f.p - 1 + f.w)

/-- Decode an encoding. -/
def fUnpack (f : Fmt) (x : Nat) : FVal :=
  let frac := x % 2 ^ (f.p - 1)
  let ex := (x / 2 ^ (f.p - 1)) % 2 ^ f.w
  let s := (x / 2 ^ (f.p - 1 + f.w)) % 2 == 1
  if ex = 2 ^ f.w - 1 then
    if frac = 0 then .inf s else .nan (decide (frac < 2 ^ (f.p - 2)))
  else if ex = 0 then .fin s frac (fTiny f)
  else .fin s (2 ^ (f.p - 1) + frac) (fTiny f + (ex : Int) - 1)

/-- Bit length of a natural number; 0 for 0. -/
def bitLength (n : Nat) : Nat := if n = 0 then 0 else Nat.log2 n + 1

/-- `m × 2^e` (plus something below its last bit when `sticky`) to an integer multiple of 2^q, nearest, ties to even;
with whether bits were lost. -/
def roundAt (m : Nat) (e : Int) (sticky : Bool) (q : Int) : Nat × Bool :=
  if q ≤ e then (m * 2 ^ (e - q).toNat, sticky)
  else
    let sh := (q - e).toNat
    let lo := m % 2 ^ sh
    let hi := m / 2 ^ sh
    let half := 2 ^ (sh - 1)
    let up := decide (half < lo) || (decide (lo = half) && (sticky || hi % 2 == 1))
    (if up then hi + 1 else hi, decide (lo ≠ 0) || sticky)

/-- Round (−1)^s × m × 2^e once to the format, with the flags it raises. -/
def roundPack (f : Fmt) (s : Bool) (m : Nat) (e : Int) (sticky : Bool) : Nat × FFlags :=
  if m = 0 then (fZero f s, {})
  else
    let free : Int := e + bitLength m - f.p
    let q := if free < fTiny f then fTiny f else free
    let r := roundAt m e sticky q
    -- tininess after rounding: the value rounded with an unbounded exponent range lies below the least normal
    let u := roundAt m e sticky free
    let tiny := decide (free + (bitLength u.1 : Int) - 1 < 1 - fBias f)
    let carry := decide (r.1 = 2 ^ f.p)
    let mant := if carry then 2 ^ (f.p - 1) else r.1
    let q' := if carry then q + 1 else q
    if mant < 2 ^ (f.p - 1) then
      (fZero f s + mant, { ufl := tiny && r.2, nx := r.2 })
    else
      let ex := q' - fTiny f + 1
      if (2 ^ f.w - 1 : Int) ≤ ex then (fInf f s, { ofl := true, nx := true })
      else (fZero f s + ex.toNat * 2 ^ (f.p - 1) + (mant - 2 ^ (f.p - 1)), { ufl := tiny && r.2, nx := r.2 })

/-- A signed exact sum `v × 2^e` rounded; `z` is the sign of an exact zero. -/
def roundInt (f : Fmt) (v : Int) (e : Int) (z : Bool) : Nat × FFlags :=
  if v = 0 then (fZero f z, {}) else roundPack f (decide (v < 0)) v.natAbs e false

/-- Signed significand. -/
def sgn (s : Bool) (m : Nat) : Int := if s then -(m : Int) else m

/-- Whether any operand is a signalling NaN. -/
def isSNaN : FVal → Bool
  | .nan b => b
  | _ => false

/-- Exact sum of two finite values, rounded. -/
def addFin (f : Fmt) (sa : Bool) (ma : Nat) (ea : Int) (sb : Bool) (mb : Nat) (eb : Int) : Nat × FFlags :=
  let e := if ea < eb then ea else eb
  let v := sgn sa ma * 2 ^ (ea - e).toNat + sgn sb mb * 2 ^ (eb - e).toNat
  roundInt f v e (sa && sb)

/-- a + b. -/
def fAdd (f : Fmt) (x y : Nat) : Nat × FFlags :=
  match fUnpack f x, fUnpack f y with
  | .nan p, b => (fNaN f, { nv := p || isSNaN b })
  | a, .nan q => (fNaN f, { nv := q || isSNaN a })
  | .inf s, .inf t => if s = t then (fInf f s, {}) else (fNaN f, { nv := true })
  | .inf s, .fin _ _ _ => (fInf f s, {})
  | .fin _ _ _, .inf t => (fInf f t, {})
  | .fin sa ma ea, .fin sb mb eb => addFin f sa ma ea sb mb eb

/-- The encoding with its sign bit inverted. -/
def fNeg (f : Fmt) (x : Nat) : Nat :=
  let top := 2 ^ (f.p - 1 + f.w)
  if (x / top) % 2 = 1 then x % top else x % top + top
/-- The encoding with its sign bit cleared. -/
def fAbs (f : Fmt) (x : Nat) : Nat := x % 2 ^ (f.p - 1 + f.w)

/-- a − b. A NaN's sign has no meaning, so this is a + (−b). -/
def fSub (f : Fmt) (x y : Nat) : Nat × FFlags := fAdd f x (fNeg f y)

/-- a × b. -/
def fMul (f : Fmt) (x y : Nat) : Nat × FFlags :=
  match fUnpack f x, fUnpack f y with
  | .nan p, b => (fNaN f, { nv := p || isSNaN b })
  | a, .nan q => (fNaN f, { nv := q || isSNaN a })
  | .inf s, .inf t => (fInf f (s != t), {})
  | .inf s, .fin t m _ => if m = 0 then (fNaN f, { nv := true }) else (fInf f (s != t), {})
  | .fin s m _, .inf t => if m = 0 then (fNaN f, { nv := true }) else (fInf f (s != t), {})
  | .fin sa ma ea, .fin sb mb eb => roundPack f (sa != sb) (ma * mb) (ea + eb) false

/-- a / b. -/
def fDiv (f : Fmt) (x y : Nat) : Nat × FFlags :=
  match fUnpack f x, fUnpack f y with
  | .nan p, b => (fNaN f, { nv := p || isSNaN b })
  | a, .nan q => (fNaN f, { nv := q || isSNaN a })
  | .inf _, .inf _ => (fNaN f, { nv := true })
  | .inf s, .fin t _ _ => (fInf f (s != t), {})
  | .fin s _ _, .inf t => (fZero f (s != t), {})
  | .fin sa ma ea, .fin sb mb eb =>
    if mb = 0 then
      if ma = 0 then (fNaN f, { nv := true }) else (fInf f (sa != sb), { dz := true })
    else
      let k := 2 * f.p + 3
      let n := ma * 2 ^ k
      roundPack f (sa != sb) (n / mb) (ea - eb - k) (decide (n % mb ≠ 0))

/-- Integer square root by digits, from bit `k` down. -/
def isqrtFrom : Nat → Nat → Nat → Nat
  | 0, n, r => if (r + 1) * (r + 1) ≤ n then r + 1 else r
  | k + 1, n, r =>
    let t := r + 2 ^ (k + 1)
    if t * t ≤ n then isqrtFrom k n t else isqrtFrom k n r

/-- Integer square root of numbers below 2^256. -/
def isqrt (n : Nat) : Nat := isqrtFrom 127 n 0

/-- Square root. -/
def fSqrt (f : Fmt) (x : Nat) : Nat × FFlags :=
  match fUnpack f x with
  | .nan p => (fNaN f, { nv := p })
  | .inf s => if s then (fNaN f, { nv := true }) else (fInf f false, {})
  | .fin s m e =>
    if m = 0 then (fZero f s, {})
    else if s then (fNaN f, { nv := true })
    else
      let odd := decide (e % 2 ≠ 0)
      let m' := if odd then 2 * m else m
      let e' := if odd then e - 1 else e
      let k := f.p + 2
      let n := m' * 2 ^ (2 * k)
      let r := isqrt n
      roundPack f false r (e' / 2 - k) (decide (r * r ≠ n))

/-- Exact order of two finite values. -/
def finLt (sa : Bool) (ma : Nat) (ea : Int) (sb : Bool) (mb : Nat) (eb : Int) : Bool :=
  let e := if ea < eb then ea else eb
  decide (sgn sa ma * 2 ^ (ea - e).toNat < sgn sb mb * 2 ^ (eb - e).toNat)

/-- a < b over numbers; false when an operand is a NaN. -/
def numLt : FVal → FVal → Bool
  | .inf s, .inf t => s && !t
  | .inf s, .fin _ _ _ => s
  | .fin _ _ _, .inf t => !t
  | .fin sa ma ea, .fin sb mb eb => finLt sa ma ea sb mb eb
  | _, _ => false

/-- a = b over numbers; false when an operand is a NaN; the two zeros are equal. -/
def numEq : FVal → FVal → Bool
  | .inf s, .inf t => s == t
  | .fin sa ma ea, .fin sb mb eb => !finLt sa ma ea sb mb eb && !finLt sb mb eb sa ma ea
  | _, _ => false

/-- Whether a value is a NaN. -/
def isNaN : FVal → Bool
  | .nan _ => true
  | _ => false

/-- Sign of a value. -/
def fSign : FVal → Bool
  | .nan _ => false
  | .inf s => s
  | .fin s _ _ => s

/-- minimumNumber (`mx` false) and maximumNumber (`mx` true) of IEEE 754-2019: a number beats a NaN, −0 lies below +0. -/
def fMinMax (f : Fmt) (mx : Bool) (x y : Nat) : Nat × FFlags :=
  let a := fUnpack f x
  let b := fUnpack f y
  let fl : FFlags := { nv := isSNaN a || isSNaN b }
  if isNaN a && isNaN b then (fNaN f, fl)
  else if isNaN a then (y, fl)
  else if isNaN b then (x, fl)
  else
    let less := numLt a b || (numEq a b && fSign a && !fSign b)
    (if less != mx then x else y, fl)

/-- Quiet equality. -/
def fEq (f : Fmt) (x y : Nat) : Nat × FFlags :=
  let a := fUnpack f x
  let b := fUnpack f y
  (b2n (numEq a b), { nv := isSNaN a || isSNaN b })

/-- Signalling a < b. -/
def fLt (f : Fmt) (x y : Nat) : Nat × FFlags :=
  let a := fUnpack f x
  let b := fUnpack f y
  (b2n (numLt a b), { nv := isNaN a || isNaN b })

/-- Signalling a ≤ b. -/
def fLe (f : Fmt) (x y : Nat) : Nat × FFlags :=
  let a := fUnpack f x
  let b := fUnpack f y
  (b2n (numLt a b || numEq a b), { nv := isNaN a || isNaN b })

/-- a × b + c with one rounding (R233: 0 × ∞ is invalid whatever c holds). -/
def fFma (f : Fmt) (x y z : Nat) : Nat × FFlags :=
  let a := fUnpack f x
  let b := fUnpack f y
  let c := fUnpack f z
  let sn := isSNaN a || isSNaN b || isSNaN c
  let addInf (s : Bool) : Nat × FFlags :=
    match c with
    | .nan _ => (fNaN f, { nv := sn })
    | .inf t => if s = t then (fInf f s, {}) else (fNaN f, { nv := true })
    | .fin _ _ _ => (fInf f s, {})
  match a, b with
  | .nan _, _ => (fNaN f, { nv := sn })
  | _, .nan _ => (fNaN f, { nv := sn })
  | .inf s, .inf t => addInf (s != t)
  | .inf s, .fin t m _ => if m = 0 then (fNaN f, { nv := true }) else addInf (s != t)
  | .fin s m _, .inf t => if m = 0 then (fNaN f, { nv := true }) else addInf (s != t)
  | .fin sa ma ea, .fin sb mb eb =>
    match c with
    | .nan _ => (fNaN f, { nv := sn })
    | .inf t => (fInf f t, {})
    | .fin sc mc ec => addFin f (sa != sb) (ma * mb) (ea + eb) sc mc ec

/-- a × b − c with one rounding. -/
def fFms (f : Fmt) (x y z : Nat) : Nat × FFlags := fFma f x y (fNeg f z)

/-- To a signed 64-bit integer, toward zero, saturating; a NaN gives 0. The result is two's complement. -/
def fToI (f : Fmt) (x : Nat) : Nat × FFlags :=
  match fUnpack f x with
  | .nan _ => (0, { nv := true })
  | .inf s => (if s then 2 ^ 63 else 2 ^ 63 - 1, { nv := true })
  | .fin s m e =>
    let mag := if 0 ≤ e then m * 2 ^ e.toNat else m / 2 ^ (-e).toNat
    let lost := decide (e < 0) && decide (m % 2 ^ (-e).toNat ≠ 0)
    if s then
      if 2 ^ 63 < mag then (2 ^ 63, { nv := true }) else (unsigned 64 (-(mag : Int)), { nx := lost })
    else
      if 2 ^ 63 ≤ mag then (2 ^ 63 - 1, { nv := true }) else (mag, { nx := lost })

/-- From a signed 64-bit integer. -/
def iToF (f : Fmt) (x : Nat) : Nat × FFlags := roundInt f (signed 64 x) 0 false

/-- From one format to another: WIDEN and NARROW. -/
def fConv (f g : Fmt) (x : Nat) : Nat × FFlags :=
  match fUnpack f x with
  | .nan p => (fNaN g, { nv := p })
  | .inf s => (fInf g s, {})
  | .fin s m e => roundPack g s m e false

end Sys2Proof.Machine
end

