-- ==== Sys2Proof/Machine/Role.lean ====
section
/-! DEFINITION. Sys2Proof/Machine/Role.lean: heartbeats, the judgement of a silence, roles and resynchronisation (R262 to R269,
R278 to R286, R291). -/
namespace Sys2Proof.Machine

/-! ### Paths (R262, R264 to R266) -/

/-- Nanoseconds since second 0 of a clock value. -/
def nsTotal (c : Nat) : Nat := secOf c * 1000000000 + nsOf c

/-- The first network heartbeat slot later than a time, in ns on the time line of the unit that sends: unit B's slots lie
50,000 ns after unit A's (R263, R265). (DEDUCED, log 71). -/
def slotAfter (unitB : Bool) (t : Nat) : Nat :=
  let ph := if unitB then 50000 else 0
  (t + 100000 - ph) / 100000 * 100000 + ph

/-- The Hinge alone has failed (R265, R266). -/
def State.hingeAlone (s : State) : State :=
  match s.role.mode with
  | .active => { s with role := { s.role with hingeFailed := true } }
  | .hotStandby => s.setFlags (fun r => { r with unmirrored := true })
  | _ => s

/-- Both paths have failed (R265, R266). -/
def State.bothFailed (s : State) : State :=
  match s.role.mode with
  | .active => ({ s with role := { s.role with hingeFailed := true } } : State).setFlags (fun r => { r with isolated := true })
  | .hotStandby => (({ s with role := { s.role with hingeFailed := true } } : State).takeover 3 true)
  | _ => s

/-- Leave RESYNC for COLD_STANDBY: the partial image is invalid and discarded (R266, R285). -/
def State.resyncLost (s : State) : State := (s.unloadAll).goCold 7

/-- The Hinge path is lost (R262, R265, R266). (DEDUCED, log 71). -/
def State.hingeLost (s : State) : State :=
  if ¬ s.role.hbUp then s
  else
    let s : State := { s with role := { s.role with hbUp := false, hbGood := 0, hingeLost := true } }
    let s := ((s.bump .role ROLE.HINGE_LOSSES).bump .hinge HINGE.HB_LOSSES).raise .role 17
    let s : State := { s with hinge := { s.hinge with wait := [] } }
    match s.role.mode with
    | .resync => s.resyncLost
    | .coldStandby => s.askLost.coldChoice
    | .active | .hotStandby =>
      let s := if s.role.mode = .active then s.bulkAbort else s
      if s.role.netUp then
        { s with role := { s.role with judge := some ⟨slotAfter (!s.unitB) (s.role.lastHb + 4000), false⟩ } }
      else s.bothFailed
    | _ => s

/-- The network path is lost (R264, R266). -/
def State.netPathLost (s : State) : State :=
  if ¬ s.role.netUp then s
  else
    let s : State := { s with role := { s.role with netUp := false } }
    match s.role.mode with
    | .active =>
      if s.role.hingeFailed then s.setFlags (fun r => { r with netLost := true, isolated := true })
      else s.setFlags (fun r => { r with netLost := true })
    | .hotStandby =>
      if s.role.unmirrored then (s.withFlags (fun r => { r with netLost := true })).takeover 3 true
      else s.setFlags (fun r => { r with netLost := true })
    | .coldStandby => s.coldChoice
    | _ => s

/-- The Hinge path is up again (R262, R265, R266). -/
def State.hingeBack (s : State) : State :=
  let s : State := { s with role := { s.role with hbUp := true, hingeLost := false, judge := none } }
  if s.role.mode = .hotStandby ∧ s.role.unmirrored then
    (s.setFlags (fun r => { r with unmirrored := false })).leave
  else s

/-- What the partner's report, on either path, moves (R266, R268, R280, R285, R296): `hinge` tells the path. (DEDUCED, log 73). -/
def State.partnerReport (s : State) (m : Mode) (hinge : Bool) : State :=
  let s : State := { s with role := { s.role with
    partnerSeen := true, partnerMode := m } }
  if s.pairConflict then s
  else match s.role.mode with
  | .active =>
    if m = .active then
      if s.role.isolated ∧ ¬ s.role.leaving then
        if s.unitB then
          let s := if hinge ∨ s.hinge.link then
              s.ctlSend 0 (0, 0) (.counts ((List.range 254).foldl (fun t a => Tbl.set 0 a (Tbl.get 0 a s.addrCount) t) []))
            else s
          s.leave
        else if ¬ hinge ∧ s.role.hbGood = 0 ∧ s.role.merge.isNone ∧ ¬ s.role.netMerged then
          { s with role := { s.role with merge := some none, netMerged := true } }
        else s
      else s
    else
      let s : State := { s with role := { s.role with netMerged := false } }
      if m = .hotStandby ∨ ¬ s.role.isolated then s else s.setFlags (fun r => { r with isolated := false })
  | .hotStandby => if m = .active then s else s.takeover 3 false
  | .resync => if m = .active then s else s.resyncLost
  | .coldStandby =>
    let s : State := if m = .active then { s with role := { s.role with pwRunning := false, activeAt := none } } else s.askLost
    s.coldChoice
  | _ => s

/-- A received Hinge frame that passes R257: the link is up, HINGE in service, the frame whole and the partner's; in TEST
heartbeats alone pass (R299), in BOOT nothing (R293). -/
def State.takes (s : State) (h : HHead) (hb : Bool) : Bool :=
  s.hinge.link && !s.isolated .hinge && h.ok && h.unitB != s.unitB && (hb || decide (s.role.mode ≠ .test)) && decide (s.role.mode ≠ .boot)

/-- A frame that R257 discards is counted; with the own UNIT in a heartbeat, PAIR_CONFLICT (R257, R291). (DEDUCED, log 47). -/
def State.dropFrame (s : State) (h : HHead) (hb : Bool) : State :=
  if ¬ s.hinge.link ∨ s.isolated .hinge ∨ s.role.mode = .boot then s
  else if ¬ h.ok ∨ h.unitB = s.unitB then
    let s := s.bump .hinge HINGE.FRAME_ERR
    if hb && h.ok then (s.wrf .role ROLE.ROLE_STS 6 6 1).raise .role 21 else s
  else s

/-- The effect of a Hinge heartbeat (R259, R262). -/
def State.heartbeat (s : State) (h : HHead) (b : HbRx) : State :=
  if ¬ s.takes h true then s.dropFrame h true
  else
    let good := s.role.hbGood + 1
    let s : State := { s with role := { s.role with
      hbGood := good, hbMiss := 0, lastHb := b.time, partnerDigest := b.digest, partnerF := b.phaseF } }
    let s := if ¬ s.role.hbUp ∧ 100 ≤ good then s.hingeBack else s
    s.partnerReport (modeOf b.mode) true

/-- HEARTBEAT (R259): a Hinge heartbeat arrives from the partner. -/
def execHeartbeat (h : HHead) (b : HbRx) (s : State) : Result := done s (s.heartbeat h b)

/-- HB_MISS (R262): a 1.0 µs interval ends without a valid heartbeat; the fourth consecutive miss loses the path.
(DESIGN CHOICE, log 3). -/
def execHbMiss (s : State) : Result :=
  let t : State := { s with role := { s.role with hbMiss := s.role.hbMiss + 1, hbGood := 0 } }
  done s (if 4 ≤ t.role.hbMiss then t.hingeLost else t)

/-- A network heartbeat that Porter hands to ROLE (R264): foreign ones are counted and discarded, and any with the own UNIT sets
PAIR_CONFLICT. -/
def State.netHeartbeat (s : State) (b : HbRx) : State :=
  if ¬ b.format ∨ b.pairId ≠ s.macBase ∨ b.unitB = s.unitB then
    let s := s.bump .hinge HINGE.NET_FOREIGN
    if b.unitB = s.unitB then (s.wrf .role ROLE.ROLE_STS 6 6 1).raise .role 21 else s
  else
    let was := s.role.netUp
    let s : State := { s with role := { s.role with
      netUp := true, netMiss := 0, slotSeen := true, partnerDigest := b.digest,
      judge := s.role.judge.map (fun j => if j.slot ≤ b.time then { j with alive := true } else j) } }
    let s := if ¬ was ∧ s.role.netLost then s.setFlags (fun r => { r with netLost := false }) else s
    s.partnerReport (modeOf b.mode) false

/-- NET_SLOT_END (R264): a slot of the partner ends NET_GRACE after its instant. (DESIGN CHOICE, log 3). -/
def execNetSlotEnd (s : State) : Result :=
  let n := if s.role.slotSeen then 0 else s.role.netMiss + 1
  let t : State := { s with role := { s.role with netMiss := n, slotSeen := false } }
  done s (if s.rdf .hinge HINGE.NET_CFG 19 16 ≤ n then t.netPathLost else t)

/-- JUDGE_DEADLINE (R265): the decision instant D; without a judgement nothing happens. -/
def execJudgeDeadline (s : State) : Result :=
  match s.role.judge with
  | none => .next s
  | some j =>
    let t : State := { s with role := { s.role with judge := none } }
    done s (if j.alive then t.hingeAlone else t.bothFailed)

/-! ### RESYNC (R280 to R285) -/

/-- The pieces of the bulk copy (R281). -/
def State.bulkTodo (s : State) : List (Nat × Nat × Nat) :=
  ((List.range 16).filter (fun k => decide (0 < s.rd2 .hinge (HINGE.BULK_LEN_LO k)))).map (fun k => (k, 0, 0)) ++
    s.loaded.map (fun g => (16, g, 0))

/-- RESYNC_REQ (R280): the active answers with RESYNC_GO and its CODE, and starts the bulk copy on OK (R281); with nothing to copy it
is done. -/
def execResyncReq (h : HHead) (s : State) : Result :=
  if ¬ s.takes h false then done s (s.dropFrame h false)
  else if s.role.mode ≠ .active then .next s
  else
    let code := if s.cfgDigest ≠ s.role.partnerDigest then E_CFGDIFF
      else if ¬ s.allMirrorOk then E_MIRROR
      else if s.role.demote.isSome ∨ s.role.judge.isSome then E_BUSY else 0
    let t := s.sendHinge 3 0 (.role 2 code 0)
    if code ≠ 0 then done s t
    else
      let todo := s.bulkTodo
      let t : State := { t with
        hinge := { t.hinge with bulk := { state := if todo = [] then 4 else 1, todo := todo } },
        role := { t.role with hingeFailed := false } }
      done s (if todo = [] then t.raise .hinge 20 else t)

/-- Catch-up is complete: the last chunk has come, and every COMMIT up to its CSEQ, none being owed when no commit point fell in the
copy; the unit asks for ENTER (R282, R283). -/
def State.catchUp (s : State) : State :=
  let b := s.hinge.bulk
  match b.lastChunk with
  | some q =>
    if b.state = 3 ∧ (q ≤ b.lastCommit ∨ b.firstSeq = some q) ∧ ¬ s.role.enterAsked then
      (({ s with role := { s.role with enterAsked := true } } : State).raise .hinge 20).sendHinge 3 0 (.role 3 0 0)
    else s
  | none => s

/-- RESYNC_GO (R280): RS_CODE; OK starts RESYNC, a refusal keeps COLD_STANDBY. The guests that the active holds, `held`, stay until
the copy brings them, and the others are unloaded (R295); with nothing to copy catch-up is complete. (PRESUMED, log 140). -/
def execResyncGo (h : HHead) (code : Nat) (held : List Nat) (s : State) : Result :=
  if ¬ s.takes h false then done s (s.dropFrame h false)
  else if s.role.mode ≠ .coldStandby ∨ ¬ s.role.resyncAsked then .next s
  else
    let t : State := { s with role := { s.role with rsCode := code, resyncAsked := false } }
    if code = 0 then
      let t := (t.loaded.filter (fun g => !held.contains g)).foldl (fun a g => a.unloadGuest g) t
      let empty := held = [] ∧ ¬ (List.range 16).any (fun k => decide (0 < s.rd2 .hinge (HINGE.BULK_LEN_LO k)))
      let t : State := { t with
        role := { t.role.clear with noState := false },
        hinge := { t.hinge with
          bulk := if empty then { state := 3, lastChunk := some 0 } else { state := 2 }, seen := [], later := [], img := [] } }
      done s (t.toMode .resync 5).catchUp
    else done s { t with role := { t.role with
      retryAt := if bit (s.rd .role ROLE.ROLE_CTL) 0 then some (s.time.elapsed + secU) else none } }

/-- RESYNC_RETRY (R280): 1 s after a refusal the unit tries again while AUTO_RESYNC is 1; before that nothing happens. An unanswered
request counts as refused. (DESIGN CHOICE, log 139). -/
def execResyncRetry (s : State) : Result :=
  if s.role.mode = .coldStandby ∧ s.role.retryAt.any (fun t => decide (t ≤ s.time.elapsed)) then
    done s (({ s with role := { s.role with retryAt := none, resyncAsked := false } } : State).tryResync)
  else .next s

/-- The top of second T that ENTER names (R283): at least 1 ms later, with F then at most 1,200 ns (R278). -/
def State.enterTime (s : State) : Nat :=
  max (s.topAfter 1000000) (s.nowS + max 1 (ceilDiv (s.role.f - 1200) 200))

/-- ENTER (R283): on the active, the answer that names T, at which its partner leaves RESYNC; on the returning unit, T. -/
def execEnter (h : HHead) (sec : Nat) (s : State) : Result :=
  if ¬ s.takes h false then done s (s.dropFrame h false)
  else if s.role.mode = .active then
    done s (({ s with role := { s.role with enterAt := some s.enterTime } } : State).sendHinge 3 0 (.role 3 0 s.enterTime))
  else if s.role.mode = .resync ∧ s.role.enterAsked then
    .next { s with role := { s.role with enterAt := some sec } }
  else .next s

/-- DEMOTE (R269): the standby notes the top of second at which it takes the active role. -/
def execDemote (h : HHead) (sec : Nat) (s : State) : Result :=
  if ¬ s.takes h false then done s (s.dropFrame h false)
  else if s.role.mode = .hotStandby then .next { s with role := { s.role with demote := some sec } }
  else .next s

/-! ### The top of a second (R269, R278, R283, R296) -/

/-- The returning unit enters HOT_STANDBY at T with its offsets (R270, R283); the lines of the cycle before T still come.
(DEDUCED, log 70). -/
def State.enterHot (s : State) : State :=
  let fA := s.role.partnerF - min s.role.partnerF 200
  let s : State := { s with
    role := { s.role with enterAt := none, enterAsked := false, f := fA + 1200, k := 12 },
    guests := s.guests.map (fun e => (e.1, { e.2 with joining := decide (e.2.st = .running) })),
    hinge := { s.hinge with bulk := { s.hinge.bulk with state := 4 } } }
  (s.toMode .hotStandby 6).raise .role 20

/-- What ROLE and the mode machine do at the carry into a second: the switchover, the entry to HOT_STANDBY, the entry to
ACTIVE that R296 or R297 chose, RESYNC after a digest mismatch, and the walk-back of the offsets. -/
def State.roleTop (s : State) : State :=
  let sec := s.nowS
  let reached : Option Nat → Bool := fun o => match o with | some t => decide (t ≤ sec) | none => false
  let s := if reached s.role.demote then
      match s.role.mode with
      | .active => s.leave
      | .hotStandby => ({ s with role := { s.role with demote := none } } : State).takeover 4 false
      | _ => s
    else s
  let s := if s.role.mode = .resync ∧ reached s.role.enterAt then s.enterHot else s
  let s := if s.role.mode = .coldStandby ∧ reached s.role.activeAt then
      let s : State := { s with role := { s.role with activeAt := none } }
      if s.partnerRuns then s.tryResync else if s.pairConflict then s else s.goActive 8 true
    else s
  let s := if s.role.mode = .hotStandby ∧ s.role.resyncNext then s.goCold 7 else s
  let s : State := if s.role.mode = .active ∧ s.partner = some .resync then
      { s with role := { s.role with f := s.role.f - min s.role.f 200, k := 0 } }
    else s
  if s.role.mode = .active ∧ reached s.role.enterAt then
    { s with role := { s.role with enterAt := none, partnerMode := if s.role.partnerMode = .resync then .hotStandby else s.role.partnerMode } }
  else s

/-! ### ROLE_CMD, publication hold -/

/-- ROLE_CMD (R291): OP 0 or 3 out of range; RESYNC outside COLD_STANDBY, and DEMOTE outside R269 or during a judgement,
E_ROLE; a DEMOTE or RESYNC that runs, E_BUSY. -/
def roleRule : Rule where
  legal := fun _ _ v => if fld v 1 0 = 0 ∨ fld v 1 0 = 3 then [(0, E_RANGE)] else []
  busy := fun s _ _ => s.role.demote.isSome || s.role.mode = .resync || s.role.resyncAsked
  check := fun s _ v =>
    if fld v 1 0 = 1 then if s.role.mode = .coldStandby then none else some E_ROLE
    else if s.role.mode = .active ∧ s.partner = some .hotStandby ∧ s.hingePath ∧ s.role.netUp ∧ s.role.judge.isNone then none
    else some E_ROLE
  apply := fun s _ v =>
    if fld v 1 0 = 1 then ({ s with role := { s.role with enterAsked := true, retryAt := none } } : State).tryResync
    else
      let t := s.topAfter 1000000
      ({ s with role := { s.role with demote := some t } } : State).sendHinge 3 0 (.role 4 0 t)

/-- ROLE_CMD_RESYNC (R280): OP 1. -/
def execRoleCmdResync (src : Src) (s : State) : Result := done s (s.writeReg roleRule src .role ROLE.ROLE_CMD 1)
/-- ROLE_CMD_DEMOTE (R269): OP 2. -/
def execRoleCmdDemote (src : Src) (s : State) : Result := done s (s.writeReg roleRule src .role ROLE.ROLE_CMD 2)

/-- The publication hold has lasted 500 ms since the entry to ACTIVE and since the partner's latest publication (R286).
(DEDUCED, log 74). -/
def State.holdOver (s : State) : Bool :=
  match s.role.holdFrom with
  | none => false
  | some a => decide (a + 500000000 * nsU ≤ s.time.elapsed) &&
      (match s.role.lastPubRx with | none => true | some b => decide (b + 500000000 * nsU ≤ s.time.elapsed))

/-- PUB_HOLD_END (R286): the hold ends; the first publication of each GOOSE entry is a change frame. While no hold has lasted long
enough nothing happens. -/
def execPubHoldEnd (s : State) : Result :=
  if ¬ s.holdOver then .next s
  else .next { s with
    role := { s.role with holdFrom := none },
    pubs := s.pubs.map (fun e => if e.2.entry.typ = 0 then (e.1, { e.2 with force := true }) else e) }

end Sys2Proof.Machine
end

