-- ==== Sys2Proof/Machine/Hinge.lean ====
section
/-! DEFINITION. Sys2Proof/Machine/Hinge.lean: the Hinge link, its frames as they are sent and as they arrive, the bulk copy and
the mirror allowances (R255 to R259, R262, R272 to R275, R281 to R284, R287 to R290). -/
namespace Sys2Proof.Machine

/-! ### The link (R256) -/

/-- The Hinge link goes down: waiting frames are lost with it. -/
def State.hingeDown (s : State) : State :=
  if ¬ s.hinge.link then s
  else
    let s : State := { s.askLost with hinge := { s.hinge with link := false, queue := [] } }
    (s.wrf .hinge HINGE.HINGE_STS 0 0 1).raise .hinge 16

/-- Lane `n` loses lock or alignment (R256, R290). -/
def State.laneLoss (s : State) (n : Nat) : State :=
  if n < 4 ∧ s.hinge.lock.testBit n then
    let s : State := { s with hinge := { s.hinge with lock := s.hinge.lock - 2 ^ n } }
    ((s.bump .hinge (win n HINGEW.LANE_DOWNS)).raiseCell .hinge n 0).hingeDown
  else s

/-- HINGE_LANE_LOSS (R256, R290): a lane loses lock or alignment and the link goes down, after `errs` invalid sync headers.
(DESIGN CHOICE, log 39). -/
def execHingeLaneLoss (n errs : Nat) (s : State) : Result :=
  if n < 4 ∧ s.hinge.lock.testBit n then done s ((s.bumpBy .hinge (win n HINGEW.LANE_SYNC_ERR) errs).laneLoss n) else .next s

/-- HINGE may hold a link: its lanes are on, the block is enabled and in service. -/
def State.hingeOn (s : State) : Bool :=
  bit (s.rd .hinge HINGE.HINGE_CTL) 0 && bit (s.rd .hinge HDR.PAGE_CTL) 0 && !s.isolated .hinge &&
    !Tbl.get false (Page.base .hinge) s.srst

/-- HINGE_LINK_UP (R256): the four lanes have held lock and alignment for 100 µs. SEQ and HB_SEQ start anew (R257, R259). -/
def execHingeLinkUp (s : State) : Result :=
  if s.hinge.link ∨ ¬ s.hingeOn ∨ ¬ s.sdLocked 0 then .next s
  else
    let t : State := { s with hinge := { s.hinge with link := true, lock := 15, seq := 0, hbSeq := 0, seen := [] } }
    done s ((t.wrf .hinge HINGE.HINGE_STS 0 0 1).raise .hinge 16)

/-! ### Sending (R257, R258, R262, R281) -/

/-- The state of a guest as the bulk copy takes it (R281). (DEDUCED, log 69). -/
def State.guestCopy (s : State) (g : Nat) (x : Guest) : GuestCopy :=
  let l := s.pubs.filter (fun e => e.2.entry.guest == g)
  { g := g, guest := { x with phase := .idle, rx := [], staged := [], frozen := [] },
    cells := x.cellList.map (fun c => { s.cell c with run := .idle }),
    image := s.readMem (s.imgStore g) x.img.len, retained := s.readMem (s.retStore g) (retLen x.storeRets),
    outs := x.img.outs.map (fun o => (o.point, s.point o.point)),
    allow := (s.rd .hinge (HINGE.ALLOW_LO g), s.rd .hinge (HINGE.ALLOW_HI g)), pubs := l,
    counts := (l.foldl (fun a e => addNew a e.2.entry.srcIdx) []).map (fun a => (a, Tbl.get 0 a s.addrCount)),
    patch := match Tbl.look x.exb s.patchPend with | some p => if p.guest = g then some p else none | none => none }

/-- Bytes of a guest's state in the bulk copy. (DEDUCED, log 69). -/
def State.copyBytes (x : Guest) : Nat :=
  x.img.len + retLen x.storeRets + 262144 * x.cellList.length + 64 * x.img.xch + 8 * x.img.outs.length

/-- The next piece of the bulk copy of which a chunk can be sent now: a guest's last chunk carries its lines, read only between its
commit point and its next start (R281). -/
def State.bulkNext (s : State) : Option (Nat × Nat × Nat) :=
  s.hinge.bulk.todo.find? (fun e => e.1 < 16 || (match s.guest e.2.1 with
    | some x => decide (x.st ≠ .running) || decide (x.phase = .idle) || decide (e.2.2 + 1024 < State.copyBytes x)
    | none => true))

/-- The copy has sent a chunk of a piece `e` of `len` bytes in all; the piece goes on until its end. -/
def State.bulkSent (s : State) (e : Nat × Nat × Nat) (len : Nat) : State :=
  let b := s.hinge.bulk
  let rest := b.todo.filter (fun x => x != e)
  { s with hinge := { s.hinge with bulk := { b with
      todo := if e.2.2 + 1024 < len then (e.1, e.2.1, e.2.2 + 1024) :: rest else rest,
      chunk := b.chunk + 1, bytes := b.bytes + min 1024 (len - e.2.2) } } }

/-- The BULK frame of the next piece, with the commit sequence of the latest commit point (R282). A DRAM error in the range
aborts the copy (R439). -/
def State.bulkFrame (s : State) : Option HFrame × State :=
  match s.bulkNext with
  | none => (none, s)
  | some e =>
    let b := s.hinge.bulk
    if e.1 < 16 then
      let a := s.rd2 .hinge (HINGE.BULK_BASE_LO e.1) + e.2.2
      if s.poisoned a 1024 then (none, (s.ueRange a 1024 5).bulkAbort)
      else (some ⟨6, s.hinge.cseq, .bulk e.1 b.chunk e.2.2 (s.readMem a 1024)⟩, s.bulkSent e (s.rd2 .hinge (HINGE.BULK_LEN_LO e.1)))
    else match s.guest e.2.1 with
    | none => (none, { s with hinge := { s.hinge with bulk := { b with todo := b.todo.filter (fun x => x != e) } } })
    | some x =>
      let len := State.copyBytes x
      let c := if e.2.2 + 1024 < len then none else some (s.guestCopy e.2.1 x)
      (some ⟨6, s.hinge.cseq, .guestBulk e.2.1 b.chunk e.2.2 c⟩, s.bulkSent e len)

/-- Send one frame: SEQ counts frames since the link came up (R257). -/
def State.hingeSend (s : State) (f : HFrame) : State :=
  let s := s.out (.hinge s.hinge.seq s.unitB (decide (s.role.mode = .active)) f)
  { s with hinge := { s.hinge with seq := (s.hinge.seq + 1) % 2 ^ 32 } }

/-- HINGE_TX (R258): the waiting frame of the highest priority is sent; with none waiting, the bulk copy's next chunk. -/
def execHingeTx (s : State) : Result :=
  if ¬ s.hinge.link ∨ s.isolated .hinge then .next s
  else match s.hinge.queue with
  | f :: t => .next (({ s with hinge := { s.hinge with queue := t } } : State).hingeSend f)
  | [] =>
    if s.hinge.bulk.state = 1 then
      match s.bulkFrame with
      | (some f, t) => done s (t.hingeSend f)
      | (none, t) => done s t
    else .next s

/-- HINGE_HB_SEND (R259, R262): at each whole microsecond a unit outside BOOT queues a heartbeat. -/
def execHingeHbSend (s : State) : Result :=
  if s.role.mode = .boot then .next s
  else
    let t := s.sendHinge 1 0 (.heartbeat s.nowS s.nowNs s.hinge.hbSeq (modeCode s.role.mode) s.role.flags s.macBase
      (syncCode s.time.sync) s.cfgDigest s.role.f s.role.k)
    .next { t with hinge := { t.hinge with hbSeq := (t.hinge.hbSeq + 1) % 2 ^ 32 } }

/-! ### The mirror's frames (R213, R272, R273) -/

/-- Change what the standby holds of a cycle of a guest. -/
def Guest.modRx (x : Guest) (s c : Nat) (f : MirrorRx → MirrorRx) : Guest :=
  match x.rxOf s c with
  | some r => { x with rx := x.rx.map (fun q => if q.s == s && q.c == c then f r else q) }
  | none => { x with rx := x.rx ++ [f { s := s, c := c }] }

/-- Whether a cycle of a guest is one the unit still takes mirror frames for: on the standby any cycle from the latest
committed on; on a unit that took the active role, the cycle in progress (R267). -/
def State.hears (s : State) (x : Guest) (sc : Nat × Nat) : Bool :=
  if s.follows then !cycLt sc (x.lastS, x.lastC) || decide (x.st ≠ .running)
  else decide (s.role.mode = .active) && decide (x.phase ≠ .idle) && (sc == (x.cycS, x.cycC))

/-- Whether a guest's commit deadline of a cycle has passed (R287). -/
def Guest.pastDeadline (x : Guest) (sc : Nat × Nat) : Bool :=
  (x.phase == .commit && sc == (x.cycS, x.cycC)) || (!cycLt (x.lastS, x.lastC) sc && !x.first)

/-- VERDICT (R213, R287): held for the standby's commit deadline of the cycle; one that arrives after it is discarded. -/
def execVerdict (h : HHead) (g cause c sec : Nat) (s : State) : Result :=
  if ¬ s.takes h false then done s (s.dropFrame h false)
  else match s.guest g with
  | some x =>
    if s.hears x (sec, c) ∧ ¬ x.pastDeadline (sec, c) then
      .next (s.setGuest g (x.modRx sec c (fun r => { r with verdict := some cause })))
    else .next s
  | none => .next s

/-- IMAGE (R272): points of the forwarded input image of a cycle. -/
def execImage (h : HHead) (g pos index c sec : Nat) (points : List DWord) (s : State) : Result :=
  if ¬ s.takes h false then done s (s.dropFrame h false)
  else match s.guest g with
  | some x =>
    if s.hears x (sec, c) then
      .next (s.setGuest g (x.modRx sec c (fun r =>
        { r with image := (points.zip (List.range points.length)).foldl (fun t e => Tbl.put (inKey pos (index + e.2)) e.1 t) r.image })))
    else .next s
  | none => .next s

/-- Key of a guest's line in the table of held CSEQ (R282). -/
def lineKey (g : Nat) (m : MLine) : Nat := ((g * 2 + b2n m.xch) * 16 + m.pos) * 8192 + m.line

/-- Write a mirrored line of a guest over the unit's own, and the retained ranges in it (R240, R282). -/
def State.takeLine (s : State) (g : Nat) (m : MLine) : State :=
  match s.guest g with
  | some x =>
    let s := s.putLine g x m
    if m.xch then s else s.retainLine g m.pos m.line m.bytes x.storeRets
  | none => s

/-- A line that arrives in RESYNC is written when its CSEQ is at least the held one, which the guest's state or a later line brought;
lines of a guest whose state has not come yet wait for it (R282). -/
def State.resyncLine (s : State) (cseq g : Nat) (m : MLine) : State :=
  let b := s.hinge.bulk
  match Tbl.look g b.guestSeq with
  | none => { s with hinge := { s.hinge with bulk := { b with early := b.early ++ [(g, cseq, m)] } } }
  | some q =>
    if cseq < max q (Tbl.get 0 (lineKey g m) b.heldLines) then s
    else ({ s with hinge := { s.hinge with bulk := { b with heldLines := Tbl.put (lineKey g m) cseq b.heldLines } } } :
    State).takeLine g m

/-- Lines and a COMMIT of a cycle are taken as RESYNC takes them: in it, and for the cycle before T after it (R282, R283). -/
def State.catching (s : State) (g c sec : Nat) : Bool :=
  decide (s.role.mode = .resync) || (s.follows && (s.guest g).any (fun x =>
    x.joining && (sec, c) == (if x.phase = .idle then prevCycle x.img.n (cycleAt x.img.n (s.classTick x.img.n))
      else prevCycle x.img.n (x.cycS, x.cycC))))

/-- LINES (R272, R273, R282): dirty lines of a cycle; the standby holds them for its next freeze window. -/
def execLines (h : HHead) (g c sec : Nat) (entries : List MLine) (s : State) : Result :=
  if ¬ s.takes h false then done s (s.dropFrame h false)
  else if s.catching g c sec then .next (entries.foldl (fun t m => t.resyncLine h.cseq g m) s)
  else match s.guest g with
  | some x =>
    if s.hears x (sec, c) then
      .next (s.setGuest g (x.modRx sec c (fun r => { r with lines := r.lines ++ entries, frames := r.frames + 1 })))
    else .next s
  | none => .next s

/-- A guest's commit on the returning unit (R281, R282): its outputs from its own lines, its transmit state. -/
def State.resyncCommit (s : State) (g c sec : Nat) : State :=
  match s.guest g with
  | none => s
  | some x =>
    let grid := cycleTick x.img.n sec c + cycleLen x.img.n c
    let s := s.commitPoints s.tickF x.exb (s.outputs x)
    let s := s.acceptPubs g
    let t := (s.pubsOf g).foldl (fun t e => t.publish1 e.1 e.2 c grid (s.instantOf x.img.n grid) (s.pubSync x) false) s
    let s : State := { t with due := s.due }
    let s := match Tbl.look x.exb s.patchPend with
      | some p => if p.guest = g ∧ p.tick.any (fun k => !cycLt (sec, c) (cycleAt x.img.n k)) then
          { s with patchPend := Tbl.del x.exb s.patchPend } else s
      | none => s
    s.modGuest g (fun y => { y with
      lastS := sec, lastC := c,
      st := if y.stopReq then .stopped else y.st, stopReq := false })

/-- COMMIT (R273, R282): the end of a cycle's lines, the active's SYNC_STATE and EGR_DIGEST. The digests are compared when
both are there. -/
def execCommit (h : HHead) (g sync frames c sec dig : Nat) (s : State) : Result :=
  if ¬ s.takes h false then done s (s.dropFrame h false)
  else if s.catching g c sec then
    let b := s.hinge.bulk
    let t : State := { s with hinge := { s.hinge with bulk := { b with lastCommit := max b.lastCommit h.cseq } } }
    let t := if (Tbl.look g b.guestSeq).any (fun q => decide (q < h.cseq)) then t.resyncCommit g c sec else t
    done s (t.modGuest g (fun x => { x with mirSync := some sync })).catchUp
  else match s.guest g with
  | some x =>
    if s.hears x (sec, c) then
      let y := x.modRx sec c (fun r => { r with linesDone := r.frames == frames, digest := some dig })
      let t := s.setGuest g { y with mirSync := some sync }
      match x.ownDigest with
      | some (os, oc, d) => if s.follows ∧ os = sec ∧ oc = c then done s (t.compareDigest g d dig) else .next t
      | none => .next t
    else .next s
  | none => .next s

/-! ### CONTROL frames (R274) -/

/-- Take a CONTROL frame: acknowledged each time it arrives, acted on once. -/
def State.ctlTake (s : State) (h : HHead) (seq : Nat) (f : State → State) : State :=
  if ¬ s.takes h false then s.dropFrame h false
  else
    let t := s.sendHinge 3 0 (.ack seq false)
    if Tbl.get false seq s.hinge.seen then t
    else f { t with hinge := { t.hinge with seen := Tbl.put seq true t.hinge.seen } }

/-- The unit takes commands from the active: it is its standby or its returning partner. -/
def State.obeys (s : State) : Bool := s.follows || decide (s.role.mode = .resync)

/-- A command that waits for its index on the standby; an index that has passed degrades the guest (R274). -/
def State.obey (s : State) (g c sec : Nat) (b : CtlBody) : State :=
  if ¬ s.obeys then s
  else
    let p : CtlPending := ⟨g, c, sec, b⟩
    let n := s.classOf p
    if s.follows ∧ s.passed n (sec, c) then s.degrade g else s.wait g (sec, c) b

/-- CTL_GUEST_COMMAND (R244, R274). -/
def execCtlGuestCommand (h : HHead) (seq g op mask exb c sec : Nat) (s : State) : Result :=
  done s (s.ctlTake h seq (fun t => t.obey g c sec (.cmd op mask exb)))

/-- CTL_PATCH_SET (R248, R274): pending until the apply cycle's freeze; a set received after it degrades the guest. -/
def execCtlPatchSet (h : HHead) (seq g : Nat) (entries : List (Nat × DWord)) (tick : Nat) (s : State) : Result :=
  done s (s.ctlTake h seq (fun t =>
    match t.guest g with
    | some x =>
      if ¬ t.obeys then t
      else if t.follows ∧ ¬ cycLt (cycleAt x.img.n (t.classTick x.img.n)) (cycleAt x.img.n tick) ∧
          ¬ cycLt (x.cycS, x.cycC) (cycleAt x.img.n tick) then t.degrade g
      else { t with patchPend := Tbl.put x.exb ⟨g, entries, some tick, 0, entries.length⟩ t.patchPend }
    | none => if t.follows then t.degrade g else t))

/-- CTL_PUBLICATION_ENTRY (R111, R274): the entry of an index, or its removal, waits for its cycle index. -/
def execCtlPublicationEntry (h : HHead) (seq g index : Nat) (entry : Option PubEntry) (c sec : Nat) (s : State) : Result :=
  done s (s.ctlTake h seq (fun t => t.obey g c sec (.pub index entry)))

/-- CTL_IMAGE_CHUNK (R274): a chunk of a cycle image that travels ahead of its command. -/
def execCtlImageChunk (h : HHead) (seq g ofs : Nat) (bytes : List Byte) (s : State) : Result :=
  done s (s.ctlTake h seq (fun t =>
    if ¬ t.obeys then t
    else { t with hinge := { t.hinge with img := Tbl.put g (Tbl.get [] g t.hinge.img ++ [(ofs, bytes)]) t.hinge.img } }))

/-- CTL_ADDRESS_COUNTS (R268): unit B's counts wait for unit A's next commit point. -/
def execCtlAddressCounts (h : HHead) (seq : Nat) (counts : Tbl Nat) (s : State) : Result :=
  done s (s.ctlTake h seq (fun t =>
    if t.role.mode = .active ∧ t.role.isolated ∧ ¬ t.unitB then { t with role := { t.role with merge := some (some counts) } }
    else t))

/-- CTL_ALLOWANCE_ENTRY (R274): the entry waits for its cycle index. -/
def execCtlAllowanceEntry (h : HHead) (seq g : Nat) (lo hi : Word) (c sec : Nat) (s : State) : Result :=
  done s (s.ctlTake h seq (fun t => t.obey g c sec (.allow lo hi)))

/-- ACK (R274, R281, R282): of a CONTROL frame, or of the chunks of a bulk copy up to a number; the acknowledgement of the last
chunk ends the sender's copy. -/
def execAck (h : HHead) (number : Nat) (bulk : Bool) (s : State) : Result :=
  if ¬ s.takes h false then done s (s.dropFrame h false)
  else if bulk then
    let b := s.hinge.bulk
    if b.state = 1 then
      if b.todo = [] ∧ number + 1 = b.chunk then
        done s (({ s with hinge := { s.hinge with bulk := { b with state := 4 } } } : State).raise .hinge 20)
      else .next s
    else .next s
  else .next { s with hinge := { s.hinge with wait := s.hinge.wait.filter (fun w => w.seq != number) } }

/-- CONTROL_RETRY (R274, R287): 2 µs without an ACK: the frame goes again, three times at most; then the Hinge path is
declared lost. (DEDUCED, log 75). -/
def execControlRetry (seq : Nat) (s : State) : Result :=
  match s.hinge.wait.find? (fun w => w.seq == seq) with
  | none => .next s
  | some w =>
    if w.tries < 4 then
      let t : State := { s with hinge := { s.hinge with
        wait := s.hinge.wait.map (fun x => if x.seq == seq then { x with tries := x.tries + 1 } else x) } }
      done s ((t.bump .hinge HINGE.CTL_RETRY).sendHinge w.frame.prio w.frame.cseq w.frame.body)
    else done s s.hingeLost

/-! ### The bulk copy received (R281, R282) -/

/-- Write one 64-byte unit of a range when its CSEQ is at least the held one. -/
def State.bulkUnit (s : State) (cseq a : Nat) (bytes : List Byte) : State :=
  let b := s.hinge.bulk
  if cseq < Tbl.get 0 (a / 64) b.held then s
  else ({ s with hinge := { s.hinge with bulk := { b with held := Tbl.put (a / 64) cseq b.held } } } : State).writeMem a bytes

/-- Install a guest's state (R281) with the lines that came before it. -/
def State.installGuest (s : State) (cseq : Nat) (c : GuestCopy) : State :=
  let x := { c.guest with phase := .idle, rx := [] }
  let s := s.setGuest c.g x
  let s := (x.cellList.zip c.cells).foldl (fun t e => t.setCell e.1 { e.2 with guest := c.g, run := .idle }) s
  let s := (s.writeMem (s.imgStore c.g) c.image).writeMem (s.retStore c.g) c.retained
  let s := c.outs.foldl (fun t e => t.setPoint e.1 e.2) s
  let s := s.setAllow c.g c.allow.1 c.allow.2
  let b := s.hinge.bulk
  let s : State := { s with
    pubs := c.pubs.foldl (fun t e => Tbl.put e.1 e.2 t) s.pubs,
    addrCount := c.counts.foldl (fun t e => Tbl.set 0 e.1 e.2 t) s.addrCount,
    patchPend := (match c.patch with | some p => Tbl.put x.exb p s.patchPend | none => s.patchPend),
    hinge := { s.hinge with bulk := { b with
      guestSeq := Tbl.put c.g cseq b.guestSeq, early := b.early.filter (fun e => e.1 != c.g) } } }
  (b.early.filter (fun e => e.1 == c.g && decide (cseq ≤ e.2.1))).foldl (fun t e => t.resyncLine e.2.1 c.g e.2.2) s

/-- Chunk number of a BULK frame. -/
def chunkOf : HBody → Nat
  | .bulk _ n _ _ => n
  | .guestBulk _ n _ _ => n
  | _ => 0

/-- Take a chunk's content: 64-byte units of a range that lie in it, or a guest's state. -/
def State.bulkTake (s : State) (cseq : Nat) (body : HBody) : State :=
  let count := fun (t : State) (n : Nat) =>
    ({ t with hinge := { t.hinge with bulk := { t.hinge.bulk with bytes := t.hinge.bulk.bytes + n } } } : State)
  match body with
  | .bulk range _ ofs data =>
    if range < 16 ∧ ofs % 64 = 0 ∧ ofs + data.length ≤ s.rd2 .hinge (HINGE.BULK_LEN_LO range) then
      let a := s.rd2 .hinge (HINGE.BULK_BASE_LO range) + ofs
      count ((List.range (ceilDiv data.length 64)).foldl
        (fun t k => t.bulkUnit cseq (a + 64 * k) ((data.drop (64 * k)).take 64)) s) data.length
    else s
  | .guestBulk _ _ _ none => count s 1024
  | .guestBulk _ _ ofs (some c) => count (s.installGuest cseq c) (State.copyBytes c.guest - ofs)
  | _ => s

/-- BULK (R282): a chunk of the bulk copy; every 64th and the last are acknowledged. `last` marks the sender's last chunk. -/
def execBulk (h : HHead) (body : HBody) (last : Bool) (s : State) : Result :=
  if ¬ s.takes h false then done s (s.dropFrame h false)
  else if s.role.mode ≠ .resync ∨ s.hinge.bulk.state ≠ 2 then .next s
  else
    let n := chunkOf body
    let t := s.bulkTake h.cseq body
    let t : State := if n = 0 then { t with hinge := { t.hinge with bulk := { t.hinge.bulk with firstSeq := some h.cseq } } } else t
    let t := if (n + 1) % 64 = 0 ∨ last then t.sendHinge 3 0 (.ack n true) else t
    if last then
      done s ({ t with hinge := { t.hinge with bulk := { t.hinge.bulk with state := 3, lastChunk := some h.cseq } } } : State).catchUp
    else .next t

/-- FRAME_ERR (R257, R290): a frame that the receiver discards and counts; `lanes` are those on which it came with an invalid sync
header. (DESIGN CHOICE, log 39). -/
def execFrameErr (lanes : BitVec 4) (s : State) : Result :=
  if ¬ s.hinge.link ∨ s.isolated .hinge then .next s
  else .next ((List.range 4).foldl (fun t n => if lanes.getLsbD n then t.bump .hinge (win n HINGEW.LANE_SYNC_ERR) else t)
    (s.bump .hinge HINGE.FRAME_ERR))

/-! ### Allowances (R275, R284, R289) -/

/-- The bounds of R275. -/
def MirSums.fits (m : MirSums) : Bool :=
  decide (m.fast ≤ 16384) && decide (m.img ≤ 8192) && decide (m.slow ≤ 262144) &&
    decide (m.rate.1 ≤ 10000000000 * m.rate.2)

/-- A write of an allowance entry's high word (R284, R289): `v` is the whole entry. -/
def allowRule (g : Nat) : Rule where
  legal := fun s _ v =>
    if s.standbyWithHinge then [(0, E_MODE)]
    else if fld v 47 32 < 3 ∨ 7680 < fld v 28 16 then [(0, E_RANGE)] else []
  busy := fun s _ _ => decide (s.partner = some .resync)
  check := fun s _ v =>
    let n := fld v 47 32
    if (match s.guest g, s.allow g with
        | some _, some a => a.2.2.2 != n || a.2.2.1 != fld v 51 48
        | _, _ => false) then some E_CONFLICT
    else
      let l := s.allowList.filter (fun e => e.1 != g)
      let l := if v.testBit 63 then (g, fld v 28 16, fld v 15 0, n) :: l else l
      if (mirSums l).fits then none else some E_BUDGET
  apply := fun s _ v =>
    if s.mirrored then
      let n := match s.guest g with | some x => x.img.n | none => 3
      let i := cycleAt n (s.startAfter n 200000)
      let b : CtlBody := .allow (BitVec.ofNat 32 v) (BitVec.ofNat 32 (v / 2 ^ 32))
      (s.ctlSend g i b).wait g i b
    else s

/-- ALLOW_WRITE (R275, R289): a write of ALLOWg_HI. -/
def execAllowWrite (src : Src) (g : Nat) (w : Word) (s : State) : Result :=
  done s (s.writeReg (allowRule g) src .hinge (HINGE.ALLOW_HI g) w)

/-- A bulk range's high word (R289): base and length of range `k` as they stand after the write. -/
def bulkRule (k : Nat) (len : Bool) : Rule where
  legal := fun s _ _ =>
    if s.role.mode = .configure ∨ s.role.mode = .coldStandby then [] else [(0, E_MODE)]
  check := fun s _ v =>
    let b := if len then s.rd2 .hinge (HINGE.BULK_BASE_LO k) else v
    let l := if len then v else s.rd2 .hinge (HINGE.BULK_LEN_LO k)
    if v % 4096 ≠ 0 then some E_ALIGN
    else if dramSize < b + l then some E_RANGE
    else if (List.range 16).any (fun j =>
        let ob := s.rd2 .hinge (HINGE.BULK_BASE_LO j)
        let ol := s.rd2 .hinge (HINGE.BULK_LEN_LO j)
        j != k && decide (b < ob + ol) && decide (ob < b + l) && decide (0 < l) && decide (0 < ol)) then some E_CONFLICT
    else none

/-- HINGE_CTL, NET_CFG, HB_VLAN (R288). -/
def hingeCtlRule : Rule where
  apply := fun s _ v => if fld v 0 0 = 0 then ({ s with hinge := { s.hinge with lock := 0 } } : State).hingeDown else s
def netCfgRule : Rule where
  legal := fun _ _ v =>
    (if fld v 7 0 < 5 ∨ 50 < fld v 7 0 then [(0, E_RANGE)] else []) ++
    (if fld v 19 16 < 2 then [(16, E_RANGE)] else [])
def hbVlanRule : Rule where
  legal := fun _ _ v => if fld v 15 15 = 1 ∧ (fld v 11 0 = 0 ∨ fld v 11 0 = 4095) then [(0, E_RANGE)] else []

end Sys2Proof.Machine
end

