-- ==== Sys2Proof/Machine/Time.lean ====
section
/-! DEFINITION. Sys2Proof/Machine/Time.lean: the Time Unit (R71 to R85, R93 to R103): the local clock and its edges, slewing,
steps, the synchronisation state, captures, scheduled outputs, PPS_OUT and the transmit timestamp FIFOs. -/
namespace Sys2Proof.Machine

abbrev E_JUMP : Nat := 0x10
abbrev E_PAST : Nat := 0x11
abbrev E_ONESTEP : Nat := 0x12

/-- Change the Time Unit's state. -/
def State.modTime (s : State) (f : TimeSt → TimeSt) : State := { s with time := f s.time }

/-- INCR in units of 2^-32 ns (R71). -/
def State.incr (s : State) : Nat := s.rd2 .timeu TIMEU.INCR_LO % 2 ^ 36

/-- The amount that one edge takes off a pending slew, before the limit to what remains (R76). -/
def State.slewStep (s : State) : Nat := max 1 (s.incr * s.rdf .timeu TIMEU.SLEW_RATE 19 0 / 1000000000)

/-- Local time gained in `j` edges, and the slew taken off the pending one in them (R71, R76). -/
def State.gain (s : State) (j : Nat) : Int × Int :=
  let p := s.time.slewPend
  let a : Int := min p.natAbs (j * s.slewStep)
  let d := if p < 0 then -a else a
  ((j * s.incr : Nat) + d, d)

/-! ### Pins -/

/-- Drive a TIO pin at a time in 0.25 ns. -/
def State.drive (s : State) (pin : Nat) (level : Bool) (time : Nat) : State :=
  (s.out (.tio pin level time)).modTime (fun t =>
    { t with tio := Tbl.put pin (if level then 2 else 1) t.tio })

/-- Drive PPS_OUT at a time in 0.25 ns. -/
def State.drivePps (s : State) (level : Bool) (time : Nat) : State :=
  if s.time.pps = level then s
  else (s.out (.pps level time)).modTime (fun t => { t with pps := level })

/-- PPS_OUT may be high: PPS_EN, and not FREE while PPS_GATE is 1 (R96, R100). -/
def State.ppsOpen (s : State) : Bool :=
  bit (s.rd .timeu TIMEU.PPS_CTL) 0 && !(bit (s.rd .timeu TIMEU.PPS_CTL) 1 && decide (s.time.sync = .free))

/-- PPS_OFS in units of 2^-32 ns. -/
def State.ppsOfs (s : State) : Int := signed 32 (s.rd .timeu TIMEU.PPS_OFS).toNat * nsU

/-- A clock value less PPS_OFS: PPS_OUT rises where it reaches a whole second (R96). -/
def State.ppsLine (s : State) (c : Nat) : Nat := (((c : Int) - s.ppsOfs) % (clockU : Int)).toNat

/-- PPS_WIDTH in units of 2^-32 ns. -/
def State.ppsWidth (s : State) : Nat := s.rdf .timeu TIMEU.PPS_WIDTH 18 0 * 1000 * nsU

/-- The rise of PPS_OUT when the clock ran on from `was` without a step past an instant of R96. (DEDUCED, log 127). -/
def State.ppsRise (s : State) (was : Nat) : State :=
  let x := s.ppsLine s.time.clock
  if secOf x = secOf (s.ppsLine was) ∨ ¬ s.ppsOpen then s
  else (s.drivePps true (stampOf ((s.time.clock + clockU - x % secU) % clockU))).modTime (fun t =>
    { t with ppsAt := t.elapsed - x % secU })

/-- The fall of PPS_OUT, PPS_WIDTH of local time after its rise. (DEDUCED, log 127). -/
def State.ppsFall (s : State) : State :=
  let late := s.time.elapsed - (s.time.ppsAt + s.ppsWidth)
  if s.time.pps ∧ s.time.ppsAt + s.ppsWidth ≤ s.time.elapsed then
    s.drivePps false (stampOf ((s.time.clock + clockU - late % clockU) % clockU))
  else s

/-- The level of CLK10_OUT at a local time in 0.25 ns: it rises at each whole multiple of 100 ns and is high for half of it; low while
CLK10_EN is 0 (R96, R100). (DEDUCED, log 127). -/
def State.clk10 (s : State) (q : Nat) : Bool := bit (s.rd .timeu TIMEU.PPS_CTL) 2 && decide (q % 400 < 200)

/-- Hold PPS_OUT low where it may not be high. -/
def State.ppsHold (s : State) : State := if s.ppsOpen then s else s.drivePps false s.now

/-! ### Synchronisation state (R82) -/

/-- A change of SYNC_STATE: IRQ SYNC_CHANGE and a record; the holdover time counts from the entry to HOLDOVER. -/
def State.toSync (s : State) (n : Sync) : State :=
  let old := s.time.sync
  if old = n then s
  else
    let s := s.modTime (fun t => { t with sync := n, syncSince := t.elapsed })
    ((s.raise .timeu 20).emit .timeu 0x021 0 [BitVec.ofNat 8 (syncCode old), BitVec.ofNat 8 (syncCode n)]).ppsHold

/-- Enter HOLDOVER; with HOLDOVER_S = 0 FREE follows at once. -/
def State.toHoldover (s : State) : State :=
  let s := s.toSync .holdover
  if s.rdf .timeu TIMEU.SYNC_CFG 27 16 = 0 then s.toSync .free else s

/-- One report (R82). -/
def State.syncReport (s : State) (locked : Bool) : State :=
  let s := s.modTime (fun t => { t with reported := true })
  match s.time.sync, locked with
  | .locked, true => s.modTime (fun t => { t with syncSince := t.elapsed })
  | _, true => s.toSync .locked
  | .locked, false => s.toHoldover
  | _, false => s

/-- The counts of R82 have reached their limits. -/
def State.timeoutDue (s : State) : Bool :=
  decide (s.rdf .timeu TIMEU.SYNC_CFG 15 0 * 1000000 * nsU ≤ s.time.elapsed - s.time.syncSince)
def State.holdoverDue (s : State) : Bool :=
  decide (s.rdf .timeu TIMEU.SYNC_CFG 27 16 * secU ≤ s.time.elapsed - s.time.syncSince)

/-- The expiry of TIMEOUT_MS or HOLDOVER_S at the end of a CLK_REG cycle when its count has reached its limit and no report came in
the cycle (R82, R98). (DEDUCED, log 33). -/
def State.syncExpiry (s : State) : State :=
  if s.time.reported then s
  else match s.time.sync with
  | .locked => if s.timeoutDue then s.toHoldover else s
  | .holdover => if s.holdoverDue then s.toSync .free else s
  | .free => s

/-- SYNC_TIMEOUT (R82): no report for TIMEOUT_MS. -/
def execSyncTimeout (s : State) : Result := if s.time.sync = .locked then done s s.syncExpiry else .next s

/-- HOLDOVER_EXPIRY (R82): HOLDOVER_S seconds of local time in HOLDOVER. -/
def execHoldoverExpiry (s : State) : Result := if s.time.sync = .holdover then done s s.syncExpiry else .next s

/-! ### Leap seconds (R84, R98) -/

/-- LEAP_AT (R84). -/
def State.leapAt (s : State) : Nat := s.rd2 .timeu TIMEU.LEAP_AT_LO % 2 ^ 48

/-- NEXT_OFFSET becomes UTC_OFFSET; LEAP_AT returns to 0 (R84). -/
def State.leap (s : State) : State :=
  let old := s.rdf .timeu TIMEU.UTC_CFG 15 0
  let new := s.rdf .timeu TIMEU.UTC_CFG 31 16
  let s := (s.wrf .timeu TIMEU.UTC_CFG 15 0 new).wr2 .timeu TIMEU.LEAP_AT_LO 0
  (s.raise .timeu 22).emit .timeu 0x022 0 (leBytes 2 old ++ leBytes 2 new)

/-- The leap takes place when TIME_S reached LEAP_AT on the way from second `a` to second `b`. -/
def State.leapIn (s : State) (a b : Nat) : State :=
  if s.leapAt ≠ 0 ∧ 0 < sDiff s.leapAt a ∧ 0 ≤ sDiff b s.leapAt then s.leap else s

/-! ### Scheduled outputs (R95, R98) -/

/-- Entries in firing order: by time, then in the order they were queued. -/
def schInsert (e : SchEntry) : List SchEntry → List SchEntry
  | [] => [e]
  | h :: t => if qDiff e.time h.time < 0 then e :: h :: t else h :: schInsert e t

/-- The first entry fires at a time. -/
def State.schFire (s : State) (time : Nat) (late : Bool) : State :=
  match s.time.sched with
  | [] => s
  | e :: r =>
    let s := (s.modTime (fun t => { t with sched := r })).drive e.pin e.level time
    if late then (s.bumpf .timeu TIMEU.SCH_STS 23 16).raise .timeu 19 else s

/-- A forward step fires the entries it passed, in order, 5 ns apart; `n` bounds them. -/
def State.schPassed (s : State) (time : Nat) : Nat → State
  | 0 => s
  | n + 1 =>
    match s.time.sched with
    | [] => s
    | e :: _ => if 0 ≤ qDiff s.now e.time then State.schPassed (s.schFire time true) (time + 20) n else s

/-- The entries whose time the clock has reached fire, each at its time (R95); `n` bounds them. -/
def State.schDue (s : State) : Nat → State
  | 0 => s
  | n + 1 =>
    match s.time.sched with
    | [] => s
    | e :: _ => if 0 ≤ qDiff s.now e.time then State.schDue (s.schFire e.time false) n else s

/-! ### Steps (R77 to R81, R98) -/

/-- What an applied step does to a guest's cycle in progress (R80): the commit point it gets on the stepped time line. `was`
is the clock before the step. Outside CONFIGURE only; the cycle of a guest that was halted in it ends so too (R29). -/
def State.stepGuest (s : State) (was : Nat) (x : Guest) : Guest :=
  if x.phase = .idle then x
  else
    let n := x.img.n
    let t := startTickFrom n (ceilTick (s.clockF + (s.instantOf n x.cpTick - was)) - s.kTicks n)
    let t := if cycLt (x.cycS, x.cycC) (cycleAt n t) then t else cycleTick n x.cycS x.cycC + cycleLen n x.cycC
    { x with cpTick := t, longer := true }

/-- The patch set that waits on a block whose guest's cycle a step has lengthened is applied in the cycle after it (R252). -/
def State.stepPatch (s : State) (p : PatchSet) : PatchSet :=
  match s.guest p.guest with
  | some x => if x.longer ∧ x.phase ≠ .idle ∧ p.tick.isSome then { p with tick := some x.cpTick } else p
  | none => p

/-- An applied step sets the clock to `new` (R78, R80, R98): the pending slew is discarded, STEP_GEN advances, running cycles
get their commit points, a crossed LEAP_AT acts, passed entries fire, alignment follows (R190), the Ledger writes an EPOCH
(R368). `jump` is Δ in ns. -/
def State.applyStep (s : State) (new : Nat) (jump : Int) (forced : Bool) : State :=
  let was := s.time.clock
  let s := s.modTime (fun t => { t with
    clock := new, slewPend := 0, stepGen := (t.stepGen + 1) % 4,
    steps := ((t.elapsed, (new : Int) - was) :: t.steps).take 16 })
  let s : State := if s.role.mode = .configure then s else { s with guests := s.guests.map (fun e => (e.1, s.stepGuest was e.2)) }
  let s : State := { s with patchPend := s.patchPend.map (fun e => (e.1, s.stepPatch e.2)) }
  let s := s.leapIn (secOf was) (secOf new)
  let s := s.schPassed s.now 64
  let s := if forced then
      s.emit .timeu 0x020 0 (leBytes 8 (unsigned 64 (jump.tdiv 1000000000)) ++ leBytes 4 (unsigned 32 (jump.tmod 1000000000)) ++
        [BitVec.ofNat 8 (modeCode s.role.mode), 1, BitVec.ofNat 8 s.time.stepGen])
    else s
  s.alignStep.epoch

/-- The clock value of a number of ns added to a clock, modulo 2^48 s (R71). -/
def clockPlus (c : Nat) (ns : Int) : Nat := (((c : Int) + ns * nsU) % (clockU : Int)).toNat

/-- Report a step (R77). (DEDUCED, log 35). -/
def State.stepReport (s : State) (how result : Nat) : State := s.wrn .timeu TIMEU.STEP_STS (result * 256 + how * 2)

/-- A refused step (R78): STEP_REFUSED, its interrupt and its record. -/
def State.refuseStep (s : State) (how : Nat) (jump : Int) : State :=
  (((s.stepReport how E_JUMP).wrf .timeu TIMEU.TIME_STS 8 8 1).raise .timeu 16).emit .timeu 0x020 0
    (leBytes 8 (unsigned 64 (jump.tdiv 1000000000)) ++ leBytes 4 (unsigned 32 (jump.tmod 1000000000)) ++
      [BitVec.ofNat 8 (modeCode s.role.mode), BitVec.ofNat 8 how, BitVec.ofNat 8 s.time.stepGen])

/-- The decision on an accepted step at its edge, after the edge's own advance (R77, R78, R98). -/
def State.stepNow (s : State) : State :=
  match s.time.job with
  | none => s
  | some j =>
    let s := s.modTime (fun t => { t with job := none })
    let now := s.time.clock
    let target : Nat := j.secs % 2 ^ 48 * secU + j.ns.toNat * nsU
    -- Δ in units of 2^-32 ns
    let d : Int := if j.abs then
        sDiff (target / secU) (now / secU) * secU + ((target % secU : Nat) : Int) - ((now % secU : Nat) : Int)
      else (signed 48 j.secs * 1000000000 + j.ns) * nsU
    let jump := d.tdiv nsU
    let new := if j.abs then target else clockPlus now (signed 48 j.secs * 1000000000 + j.ns)
    let limit := s.rdf .timeu TIMEU.JUMP_LIMIT 19 0 * nsU
    let sum := s.time.slewPend + d
    let fits := decide (sum.natAbs ≤ secU)
    if s.role.mode = .configure then (s.applyStep new jump false).stepReport 1 0
    else if j.force then (s.applyStep new jump true).stepReport 1 0
    else if d.natAbs ≤ limit ∧ fits then (s.modTime (fun t => { t with slewPend := sum })).stepReport 2 0
    else if ¬ d.natAbs ≤ limit ∧ bit (s.rd .timeu TIMEU.TIME_CTL) 0 ∧ fits then
      (s.modTime (fun t => { t with slewPend := sum })).refuseStep 3 jump
    else s.refuseStep 4 jump

/-! ### Edges (R71, R74, R76) -/

/-- Counts over the last completed millisecond (R167, R193, R222, R433): `n` milliseconds have ended. -/
def State.milli (s : State) (n : Nat) : State :=
  if n = 0 then s
  else
    let one := n = 1
    let pick := fun (k : Nat) => if one then k else 0
    let s := (s.wrn .point (win 0 POINTW.PORT_WRITES) (pick s.ptNow.1)).wrn .point (win 1 POINTW.PORT_WRITES) (pick s.ptNow.2)
    let s := (List.range 4).foldl (fun t l =>
      t.wrn .align (win l ALIGNW.LANE_VALUES) (pick (Tbl.get 0 l s.align.valuesNow))) s
    let s := (List.range 12).foldl (fun t c =>
      t.wrn .crypto (win c CRYPTOW.ENG_BUSY) (min 1000 (pick (Tbl.get 0 c s.porter.busyNow) / 1000))) s
    let s := s.wrn .acq ACQ.WR_MBPS (min 8191 (pick s.analog.acqNow / 1000))
    let s := s.modAna (fun a => { a with acqNow := 0 })
    { s with ptNow := (0, 0), align := { s.align with valuesNow := [] }, porter := { s.porter with busyNow := [] } }

/-- What the carry into a second does: a leap, the pair's actions at the top of second, an EPOCH when TIME_S[47:16] changed
(R84, R269, R278, R283, R296, R368, R446). -/
def State.top (s : State) (was : Nat) : State :=
  let s := s.leapIn was s.nowS
  let s := s.roleTop.ckptTop
  if s.ledger.running ∧ s.ledger.epochHi ≠ s.nowS / 65536 then s.epoch else s

/-- The configuration word of a pin: TIO_CFGn, or PPS_CTL for PPS_IN (pin 32). -/
def State.pinWord (s : State) (pin : Nat) : Word := if pin = 32 then s.rd .timeu TIMEU.PPS_CTL else s.rd .timeu (TIMEU.TIO_CFG pin)

/-- A pin's configuration takes effect at this edge (R93): entering output mode drives INIT, leaving it drives nothing (R95).
(DEDUCED, log 126). -/
def State.pinTakes (s : State) (pin : Nat) : State :=
  let w := s.pinWord pin
  let s := s.modTime (fun t => { t with
    pinCfg := Tbl.put pin (((t.elapsed, w) :: Tbl.get [] pin t.pinCfg).take 17) t.pinCfg })
  if pin = 32 then s.ppsHold
  else if bits w 2 0 = 2 then
    if Tbl.get 0 pin s.time.tio = 0 then s.drive pin (bit w 12) s.now else s
  else s.modTime (fun t => { t with tio := Tbl.del pin t.tio })

/-- The configurations written since the latest edge take effect (R93). -/
def State.pinsTake (s : State) : State :=
  (s.time.cfgWait.foldl (fun t pin => t.pinTakes pin) s).modTime (fun t => { t with cfgWait := [] })

/-- The sums of every execution block's freezes and commits change (R216, R217). (DESIGN CHOICE, log 136). -/
def State.showLoad (s : State) : State :=
  { s with exbLoad := (List.range 16).foldl (fun t n => Tbl.set 0 n
      (s.blockSum n 0 (fun x => x.img.outs.length) * 2 ^ 16 + s.blockSum n 0 (fun x => x.img.inPoints)) t) [] }

/-- The base grid's tick is signalled (R74): what waits for it acts. -/
def State.tick (s : State) : State :=
  let k := absTick s.time.clock % 288000
  (s.applyLater.showLoad.acqTick (stampOf (clockOfTick (absTick s.time.clock))) k).gridTrig k

/-- `j` edges at once, of which the last alone meets an event: the clock and the counts that local time drives advance, slewing goes
on, pins take their configurations, a carry acts, a tick is signalled, scheduled outputs and PPS_OUT move, and at the end of a CLK_REG cycle
the counts of R82 are judged. -/
def State.edges (s : State) (j : Nat) : State :=
  let (g, d) := s.gain j
  let was := s.time.clock
  let ms := s.time.elapsed / (1000000 * nsU)
  let pend := s.time.slewPend - d
  let s := s.modTime (fun t => { t with
    clock := ((t.clock : Int) + g).toNat % clockU, elapsed := t.elapsed + g.toNat, slewPend := pend, phase := (t.phase + j) % 4 })
  let s := if pend = 0 ∧ d ≠ 0 then s.raise .timeu 21 else s
  let s := s.pinsTake
  let s := s.milli (s.time.elapsed / (1000000 * nsU) - ms)
  let s := if s.nowS ≠ secOf was then s.top (secOf was) else s
  let s := if absTick s.time.clock ≠ absTick was then s.tick else s
  let s := ((s.schDue 64).ppsRise was).ppsFall
  if s.time.phase = 0 then s.syncExpiry.modTime (fun t => { t with reported := false }) else s

/-- One CLK_TIME edge (R71): its advance, then a step that was accepted before it. (DESIGN CHOICE, log 1). -/
def State.edge (s : State) : State := (s.edges 1).stepNow

/-- The least number of edges that gains `need`; a jump ends on it. While slewing lasts an edge gains INCR plus or minus the
slewing amount, and INCR alone after it. (DESIGN CHOICE, log 34). -/
def State.edgesFor (s : State) (need : Nat) : Nat :=
  let i := s.incr
  let a := s.slewStep
  let p := s.time.slewPend.natAbs
  let full := p / a
  if s.time.slewPend = 0 then ceilDiv need i
  else if s.time.slewPend < 0 then
    let j := ceilDiv need (i - a)
    if j ≤ full then j else max (full + 1) (ceilDiv (need + p) i)
  else
    let j := ceilDiv need (i + a)
    if j ≤ full then j else max (full + 1) (ceilDiv (need - p) i)

/-- Units of local time until the nearest event that an edge may meet: the next tick, the first scheduled output, a move of
PPS_OUT. -/
def State.need (s : State) : Nat :=
  let c := s.time.clock
  let l := [clockOfTick (absTick c + 1) - c, secU - s.ppsLine c % secU]
  let l := match s.time.sched with | e :: _ => ((qDiff e.time s.now * 2 ^ 30).toNat - c % 2 ^ 30) :: l | [] => l
  let l := if s.time.pps then (s.time.ppsAt + s.ppsWidth - s.time.elapsed) :: l else l
  l.foldl min secU

/-- Edges until the counts of R82 are judged with their limit reached: the end of the CLK_REG cycle in which it is. -/
def State.syncEdges (s : State) : Option Nat :=
  let up := fun (k : Nat) => k + (4 - (s.time.phase + k) % 4) % 4
  let lim := fun (n : Nat) => some (up (max 1 (s.edgesFor (n - (s.time.elapsed - s.time.syncSince)))))
  match s.time.sync with
  | .locked => lim (s.rdf .timeu TIMEU.SYNC_CFG 15 0 * 1000000 * nsU)
  | .holdover => lim (s.rdf .timeu TIMEU.SYNC_CFG 27 16 * secU)
  | .free => none

/-- The edges up to the first that meets an event. (DESIGN CHOICE, log 34). -/
def State.hop (s : State) : State :=
  if s.time.cfgWait ≠ [] then s.edges 1
  else
    let j := max 1 (s.edgesFor s.need)
    s.edges (match s.syncEdges with | some k => min j k | none => j)

/-- The edges until the tick `was` is past; `n` bounds the events met on the way. -/
def State.toTick (s : State) (was : Nat) : Nat → State
  | 0 => s
  | n + 1 => if absTick s.time.clock ≠ was then s else State.toTick s.hop was n

/-- The edges up to the next tick of the base grid (R74). (DESIGN CHOICE, log 34). -/
def State.nextTick (s : State) : State := s.toTick (absTick s.time.clock) 128

/-- Tick after tick until the second `sec` is past; `n` bounds them. -/
def State.toTop (s : State) (sec : Nat) : Nat → State
  | 0 => s
  | n + 1 => if s.nowS ≠ sec then s else State.toTop s.nextTick sec n

/-- TOP_OF_SECOND (R71, R74): the edges up to the one that carries into the next second, no tick lost on the way. A step that waits for
its edge takes it first. (DESIGN CHOICE, log 34). -/
def execTopOfSecond (s : State) : Result :=
  if s.time.job.isSome then done s s.edge else done s (s.toTop s.nowS 288000)

/-- GRID_TICK (R74): the edges up to the first at or after the next tick of the base grid. (DESIGN CHOICE, log 34). -/
def execGridTick (s : State) : Result :=
  if s.time.job.isSome then done s s.edge else done s s.nextTick

/-- SCH_FIRE (R95): the edge that reaches the first scheduled entry's time, when it is the next one. -/
def execSchFire (s : State) : Result :=
  match s.time.sched with
  | [] => .next s
  | e :: _ => if 0 ≤ qDiff (stampOf ((s.time.clock : Int) + (s.gain 1).1).toNat) e.time then done s s.edge else .next s

/-- PPS_OUT_RISE (R96): the edge that reaches the instant of a rise, when it is the next one. -/
def execPpsOutRise (s : State) : Result :=
  if secOf (s.ppsLine (((s.time.clock : Int) + (s.gain 1).1).toNat % clockU)) ≠ secOf (s.ppsLine s.time.clock) then done s s.edge else .next s

/-- PPS_OUT_FALL (R96): the edge by which PPS_OUT has been high for PPS_WIDTH, when it is the next one. -/
def execPpsOutFall (s : State) : Result :=
  if s.time.pps ∧ s.time.ppsAt + s.ppsWidth ≤ s.time.elapsed + (s.gain 1).1.toNat then done s s.edge else .next s

/-- STEP_APPLY (R78): the first edge after a step command was accepted; with none waiting nothing happens. -/
def execStepApply (s : State) : Result := if s.time.job.isSome then done s s.edge else .next s

/-- SLEW_DONE (R76): the edge at which slewing brings the pending slew to zero, when it is the next one. -/
def execSlewDone (s : State) : Result :=
  if s.time.slewPend ≠ 0 ∧ s.time.slewPend.natAbs ≤ s.slewStep then done s s.edge else .next s

/-! ### Registers (R99) -/

def incrRule : Rule where
  legal := fun _ _ v => let i := v % 2 ^ 36; if i < 0x2_7F5C_28F6 ∨ 0x2_80A3_D70A < i then [(0, E_RANGE)] else []

/-- SLEW (R76, R98, R99): the pending sum stays within 1 s; any write while a step is BUSY is rejected. -/
def slewRule : Rule where
  legal := fun s _ v =>
    if secU < (s.time.slewPend + signed 64 v * 2 ^ 24).natAbs then [(0, E_RANGE)] else []
  busy := fun s _ _ => s.time.job.isSome
  apply := fun s _ v => s.modTime (fun t => { t with slewPend := t.slewPend + signed 64 v * 2 ^ 24 })
def slewRateRule : Rule where
  legal := fun _ _ v => if fld v 19 0 = 0 ∨ 500000 < fld v 19 0 then [(0, E_RANGE)] else []
def stepNsRule : Rule where
  legal := fun _ _ v => if 999999999 < (signed 32 v).natAbs then [(0, E_RANGE)] else []

/-- STEP_CMD (R77, R99). -/
def stepCmdRule : Rule where
  legal := fun s _ v =>
    (if fld v 0 0 = 0 ∧ fld v 1 1 = 1 then [(1, E_CONFLICT)] else []) ++
    (if fld v 2 2 = 1 then
      if fld v 0 0 = 0 then [(2, E_CONFLICT)]
      else if signed 32 (s.rd .timeu TIMEU.STEP_NS).toNat < 0 then [(2, E_RANGE)] else []
     else [])
  busy := fun s _ _ => s.time.job.isSome
  apply := fun s _ v =>
    if fld v 0 0 = 0 then s
    else s.modTime (fun t => { t with job := some ⟨fld v 2 2 = 1, fld v 1 1 = 1, s.rd2 .timeu TIMEU.STEP_S_LO % 2 ^ 48,
      signed 32 (s.rd .timeu TIMEU.STEP_NS).toNat⟩ })
def jumpLimitRule : Rule where
  legal := fun _ _ v => if 1000000 < fld v 19 0 then [(0, E_RANGE)] else []

/-- SNAP_CMD (R99). -/
def snapRule : Rule where
  apply := fun s _ v =>
    if fld v 0 0 = 0 then s
    else (s.wrn .timeu TIMEU.SNAP_NS (qWord s.now)).wr2 .timeu TIMEU.SNAP_S_LO s.nowS

/-- SLEW_WRITE (R76): a write of SLEW, low word then high word. -/
def execSlewWrite (src : Src) (v : BitVec 64) (s : State) : Result :=
  let t := s.writeReg { busy := slewRule.busy } src .timeu TIMEU.SLEW_LO (BitVec.ofNat 32 v.toNat)
  done s (t.writeReg slewRule src .timeu TIMEU.SLEW_HI (BitVec.ofNat 32 (v.toNat / 2 ^ 32)))

/-- STEP_CMD (R77). -/
def execStepCmd (src : Src) (w : Word) (s : State) : Result := done s (s.writeReg stepCmdRule src .timeu TIMEU.STEP_CMD w)

/-- SNAP_CMD (R99). -/
def execSnapCmd (src : Src) (s : State) : Result := done s (s.writeReg snapRule src .timeu TIMEU.SNAP_CMD 1)

/-! ### Synchronisation, time quality and PPS registers (R100) -/

def syncReportRule : Rule where
  apply := fun s _ v => s.syncReport (fld v 0 0 = 1)

/-- SYNC_REPORT (R82). -/
def execSyncReport (src : Src) (locked : Bool) (s : State) : Result :=
  done s (s.writeReg syncReportRule src .timeu TIMEU.SYNC_REPORT (if locked then 1 else 0))

def syncCfgRule : Rule where
  legal := fun _ _ v => if fld v 15 0 = 0 then [(0, E_RANGE)] else []
def leapAtRule : Rule where
  check := fun s _ v => let t := v % 2 ^ 48; if t ≠ 0 ∧ sDiff t s.nowS ≤ 0 then some E_PAST else none
def ppsWidthRule : Rule where
  legal := fun _ _ v => if fld v 18 0 = 0 ∨ 500000 < fld v 18 0 then [(0, E_RANGE)] else []
def ppsOfsRule : Rule where
  legal := fun _ _ v => if 500000000 < (signed 32 v).natAbs then [(0, E_RANGE)] else []
def ppsCtlRule : Rule where
  apply := fun s _ _ => s.modTime (fun t => { t with cfgWait := addNew t.cfgWait 32 })

/-! ### Captures, scheduled outputs, pins (R93 to R95, R101) -/

/-- Entries in timestamp order (R94). -/
def capInsert (e : CapEntry) : List CapEntry → List CapEntry
  | [] => [e]
  | h :: t => if qDiff e.time h.time < 0 then e :: h :: t else h :: capInsert e t

/-- The configuration of a pin in force at an elapsed time (R93). -/
def State.pinAt (s : State) (pin at_ : Nat) : Word :=
  let l := Tbl.get [] pin s.time.pinCfg
  match l.find? (fun e => decide (e.1 ≤ at_)) with
  | some e => e.2
  | none => resetWord (Page.base .timeu + (if pin = 32 then TIMEU.PPS_CTL else TIMEU.TIO_CFG pin))

/-- Whether a pin with a configuration captures an edge: MODE and EDGE of TIO_CFGn, PPSIN_EDGE of PPS_CTL. -/
def captures (pin : Nat) (w : Word) (rise : Bool) : Bool :=
  (pin == 32 || (decide (pin < 32) && bits w 2 0 == 1)) && (bits w 5 4).testBit (if rise then 0 else 1)

/-- The clock and STEP_GEN at an elapsed time not long ago, on the time line of that instant: steps applied after it are taken off.
One applied at it counts (R98). -/
def State.clockAt (s : State) (at_ : Nat) : Nat × Nat :=
  let l := s.time.steps.filter (fun e => decide (at_ < e.1))
  let d := l.foldl (fun a e => a + e.2) (0 : Int)
  ((((s.time.clock : Int) - d - ((s.time.elapsed - at_ : Nat) : Int)) % (clockU : Int)).toNat, (s.time.stepGen + 3 * l.length) % 4)

/-- TIO_EDGE (R94): an accepted edge, `back` × 0.25 ns after the transition itself, which it is stamped with; the filter accepts a level
only after FILT edges, the present one the last, and the configuration is that of the transition's instant (R93). (DESIGN CHOICE, log 5;
DEDUCED, log 126). -/
def execTioEdge (pin : Nat) (rise : Bool) (back : Nat) (s : State) : Result :=
  let when := s.time.elapsed - back * 2 ^ 30
  let w := s.pinAt pin when
  if ¬ captures pin w rise ∨ back + 9 < 10 * bits w 11 8 then .next s
  else
    let seq := s.time.capSeq
    let t := s.modTime (fun x => { x with capSeq := (seq + 1) % 2 ^ 32 })
    let c := s.clockAt when
    let at_ := stampOf c.1
    let t := if pin < 32 then (t.acqTio at_ pin).tioTrig pin else t
    if 256 ≤ s.time.capFifo.length then
      done s (((t.modTime (fun x => { x with capLoss := true })).bumpf .timeu TIMEU.CAP_STS 31 16).raise .timeu 18)
    else
      let e : CapEntry := ⟨at_, s.time.capLoss, c.2, rise, pin, seq⟩
      done s ((t.modTime (fun x => { x with capFifo := capInsert e x.capFifo, capLoss := false })).raise .timeu 17)

def capPopRule : Rule where
  check := fun s _ v => if fld v 0 0 = 1 ∧ s.time.capFifo = [] then some E_SEQ else none
  apply := fun s _ v =>
    let s := if fld v 0 0 = 1 then s.modTime (fun t => { t with capFifo := t.capFifo.drop 1 }) else s
    if fld v 1 1 = 1 then s.wrf .timeu TIMEU.CAP_STS 31 16 0 else s

/-- CAP_POP (R101). -/
def execCapPop (src : Src) (s : State) : Result := done s (s.writeReg capPopRule src .timeu TIMEU.CAP_POP 1)
/-- CAP_CLR_LOST (R101). -/
def execCapClrLost (src : Src) (s : State) : Result := done s (s.writeReg capPopRule src .timeu TIMEU.CAP_POP 2)

def schNsRule : Rule where
  legal := fun _ _ v => if 1000000000 ≤ fld v 29 0 then [(0, E_RANGE)] else []

/-- The entry time as SCH_NS and SCH_S hold it, in 0.25 ns. -/
def State.schTime (s : State) : Nat :=
  s.rd2 .timeu TIMEU.SCH_S_LO % 2 ^ 48 * 4000000000 + s.rdf .timeu TIMEU.SCH_NS 29 0 * 4 + s.rdf .timeu TIMEU.SCH_NS 31 30

/-- Queued entries of a pin. -/
def State.schOf (s : State) (pin : Nat) : List SchEntry := s.time.sched.filter (fun e => e.pin == pin)

/-- SCH_CMD (R95, R101). -/
def schCmdRule : Rule where
  legal := fun _ _ v => if fld v 15 15 = 1 ∧ fld v 16 16 = 1 then [(15, E_CONFLICT)] else []
  check := fun s _ v =>
    let pin := fld v 4 0
    let q := s.schOf pin
    if fld v 15 15 = 0 then none
    else if s.rdf .timeu (TIMEU.TIO_CFG pin) 2 0 ≠ 2 then some E_CONFLICT
    else if qDiff s.schTime s.now < 4000 then some E_PAST
    else if q.any (fun e => decide (qDiff s.schTime e.time < 20)) then some E_SEQ
    else if 64 ≤ s.time.sched.length ∨ 16 ≤ q.length then some E_FULL
    else none
  apply := fun s _ v =>
    let pin := fld v 4 0
    if fld v 15 15 = 1 then
      s.modTime (fun t => { t with sched := schInsert ⟨pin, s.schTime, fld v 8 8 = 1⟩ t.sched })
    else if fld v 16 16 = 1 then s.modTime (fun t => { t with sched := t.sched.filter (fun e => e.pin != pin) })
    else s

/-- SCH_ENQ (R95): a write of SCH_CMD with ENQ, a level and a pin. -/
def execSchEnq (src : Src) (pin : BitVec 5) (level : Bool) (s : State) : Result :=
  done s (s.writeReg schCmdRule src .timeu TIMEU.SCH_CMD (BitVec.ofNat 32 (2 ^ 15 + b2n level * 256 + pin.toNat)))
/-- SCH_FLUSH (R101): a write of SCH_CMD with FLUSH and a pin. -/
def execSchFlush (src : Src) (pin : BitVec 5) (s : State) : Result :=
  done s (s.writeReg schCmdRule src .timeu TIMEU.SCH_CMD (BitVec.ofNat 32 (2 ^ 16 + pin.toNat)))

/-- TIO_CFGn (R93, R95, R101): a MODE above 2 is out of range; a MODE change with queued entries is busy; the configuration takes
effect from the next CLK_TIME edge. -/
def tioCfgRule (n : Nat) : Rule where
  legal := fun _ _ v => if 2 < fld v 2 0 then [(0, E_RANGE)] else []
  busy := fun s _ v => decide (fld v 2 0 ≠ s.rdf .timeu (TIMEU.TIO_CFG n) 2 0) && !(s.schOf n).isEmpty
  apply := fun s _ _ => s.modTime (fun t => { t with cfgWait := addNew t.cfgWait n })

/-- TIO_CFG_WRITE (R93): a write of TIO_CFGn. -/
def execTioCfgWrite (src : Src) (n : BitVec 5) (w : Word) (s : State) : Result :=
  done s (s.writeReg (tioCfgRule n.toNat) src .timeu (TIMEU.TIO_CFG n.toNat) w)

/-! ### Port windows (R87, R91, R102) -/

/-- Write a transmit timestamp entry; a full FIFO loses it (R91). -/
def State.txtsPut (s : State) (port : Nat) (e : TxtsEntry) : State :=
  if 64 ≤ (s.txts port).length then
    (s.bumpf .timeu (tsWin port TIMEUW.TXTS_STS) 31 16).raiseCell .timeu (port + 1) 1
  else (s.modTime (fun t => { t with txts := Tbl.put port (s.txts port ++ [e]) t.txts })).raiseCell .timeu (port + 1) 0

def ptpCtlRule : Rule where
  legal := fun _ _ v => if fld v 6 4 = 0 ∧ fld v 0 0 = 1 then [(4, E_CONFLICT)] else []
def txtsPopRule (port : Nat) : Rule where
  check := fun s _ v => if fld v 0 0 = 1 ∧ s.txts port = [] then some E_SEQ else none
  apply := fun s _ v =>
    let s := if fld v 0 0 = 1 then s.modTime (fun t => { t with txts := Tbl.set [] port ((s.txts port).drop 1) t.txts }) else s
    if fld v 1 1 = 1 then s.wrf .timeu (tsWin port TIMEUW.TXTS_STS) 31 16 0 else s

/-- TXTS_POP (R91). -/
def execTxtsPop (src : Src) (port : Fin 4) (s : State) : Result :=
  done s (s.writeReg (txtsPopRule port.val) src .timeu (tsWin port.val TIMEUW.TXTS_POP) 1)
/-- TXTS_CLR_LOST (R102). -/
def execTxtsClrLost (src : Src) (port : Fin 4) (s : State) : Result :=
  done s (s.writeReg (txtsPopRule port.val) src .timeu (tsWin port.val TIMEUW.TXTS_POP) 2)

/-- Local time at a phase of CLK_TIME after the present edge: each of the ten phases lies 0.25 ns on (R73). (DEDUCED, log 123). -/
def State.phaseClock (s : State) (ph : Nat) : Nat := s.time.clock + ph * 2 ^ 30

/-- The timestamp of a frame whose start-of-frame delimiter a port received at a phase, in 0.25 ns (R73, R87). -/
def State.rxStamp (s : State) (port ph : Nat) : Nat :=
  let back := (s.rdf .timeu (tsWin port TIMEUW.ING_LAT) 15 0 + s.rdf .timeu (tsWin port TIMEUW.BOARD_ING) 15 0) * 2 ^ 24
  stampOf ((s.phaseClock ph + clockU - back) % clockU)

/-- The timestamp of a frame whose start-of-frame delimiter a port sent at a phase (R73, R87). -/
def State.txStamp (s : State) (port ph : Nat) : Nat :=
  let on := (s.rdf .timeu (tsWin port TIMEUW.EGR_LAT) 15 0 + s.rdf .timeu (tsWin port TIMEUW.BOARD_EGR) 15 0) * 2 ^ 24
  stampOf ((s.phaseClock ph + on) % clockU)

/-- The rules of the Time Unit's registers, by offset (R99 to R102). -/
def timeuRule (o : Nat) : Rule :=
  if o = TIMEU.INCR_HI then incrRule
  else if o = TIMEU.SLEW_LO then { busy := slewRule.busy }
  else if o = TIMEU.SLEW_HI then slewRule
  else if o = TIMEU.SLEW_RATE then slewRateRule
  else if o = TIMEU.STEP_NS then stepNsRule
  else if o = TIMEU.STEP_CMD then stepCmdRule
  else if o = TIMEU.JUMP_LIMIT then jumpLimitRule
  else if o = TIMEU.SNAP_CMD then snapRule
  else if o = TIMEU.SYNC_REPORT then syncReportRule
  else if o = TIMEU.SYNC_CFG then syncCfgRule
  else if o = TIMEU.LEAP_AT_HI then leapAtRule
  else if o = TIMEU.PPS_CTL then ppsCtlRule
  else if o = TIMEU.PPS_WIDTH then ppsWidthRule
  else if o = TIMEU.PPS_OFS then ppsOfsRule
  else if o = TIMEU.CAP_POP then capPopRule
  else if o = TIMEU.SCH_NS then schNsRule
  else if o = TIMEU.SCH_CMD then schCmdRule
  else if 0x100 ≤ o ∧ o < 0x180 then tioCfgRule ((o - 0x100) / 4)
  else if 0x880 ≤ o ∧ o < 0xA80 then
    let k := (o - 0x880) / 0x80
    if (o - 0x880) % 0x80 = TIMEUW.PTP_CTL then ptpCtlRule
    else if (o - 0x880) % 0x80 = TIMEUW.TXTS_POP then txtsPopRule k
    else {}
  else {}

end Sys2Proof.Machine
end

