-- ==== Sys2Proof/Machine/Ports.lean ====
section
/-! DEFINITION. Sys2Proof/Machine/Ports.lean: ports, links, redundancy, transmission, publication entries (R104 to R128) and
PTP at departure (R86 to R92). -/
namespace Sys2Proof.Machine

/-- The other port of a pair. -/
def otherPort (n : Nat) : Nat := if n % 2 = 0 then n + 1 else n - 1

/-- A port's page is in service: ENABLE, no soft reset, not isolated. -/
def State.portOn (s : State) (n : Nat) : Bool :=
  bit (s.rd (portPage n) HDR.PAGE_CTL) 0 && !Tbl.get false (Page.base (portPage n)) s.srst && !s.isolated (portPage n)

/-- A port can send (R118); nothing leaves one of ports 0 to 3 while its scheduler, a cell of EGRESS, is out of service (R30). -/
def State.canSend (s : State) (n : Nat) : Bool :=
  s.linkOf n && bit (s.rd (portPage n) PORT.PORT_CTL) 4 && s.portOn n && !(decide (n < 4) && s.quarantined .egress n)

/-! ### The transmit queue of non-scheduled frames (R116, R150) -/

def State.nsOf (s : State) (n : Nat) : List NsFrame := Tbl.get [] n s.nsq

/-- Index of the oldest entry of queue 3 that still waits at a port, in ring order from `ci`; the index after the entries
taken when none waits (R150). -/
def State.txNext (s : State) (ci : Nat) : Nat :=
  let mask := 2 ^ (s.rdf .porter (PORTER.Q_CFG 3) 3 0)
  let wait := s.nsq.flatMap (fun e => e.2.filterMap (fun f => f.entry))
  let dist := fun i => (i + mask - ci % mask) % mask
  let taken := s.porter.txTaken
  wait.foldl (fun a i => if dist i < dist a then i else a) (if wait = [] then taken else wait.headD taken)

/-- CI of queue 3 follows the entries that have left (R150). -/
def State.txAdvance (s : State) : State :=
  s.wrn .porter (PORTER.Q_CI 3) (s.txNext (s.rd .porter (PORTER.Q_CI 3)).toNat)

/-- Put a non-scheduled frame at a port; a port whose link is down drops it (R123). -/
def State.nsPut (s : State) (n : Nat) (f : NsFrame) : State :=
  if s.linkOf n then { s with nsq := Tbl.put n (s.nsOf n ++ [f]) s.nsq }
  else s.bump (portPage n) PORT.TX_DROP

/-- The frame a port serves next: by class, then arrival (R116). -/
def nextNs (l : List NsFrame) : Option NsFrame :=
  match l.find? (fun f => f.cls == 0) with
  | some f => some f
  | none => match l.find? (fun f => f.cls == 1) with
    | some f => some f
    | none => l.head?

/-! ### Links (R104, R123) -/

/-- A pair's ring opens or closes (R126). -/
def State.ringChange (old new : State) (port : Nat) : State :=
  if port < 4 then
    let lo := port / 2 * 2
    let m := new.pairMode port
    if ringOpen m (old.linkOf lo) (old.linkOf (lo + 1)) ≠ ringOpen m (new.linkOf lo) (new.linkOf (lo + 1)) then
      new.raise .redun 16
    else new
  else new

/-- The frames that a port still sends, or has yet to send, at this instant: those begun and those not begun (R123). -/
def State.onWire (s : State) (n : Nat) : List (Nat × Nat) × List (Nat × Nat) :=
  ((Tbl.get [] n s.wire).filter (fun e => decide (s.time.elapsed < e.2))).partition (fun e => decide (e.1 ≤ s.time.elapsed))

/-- A port's link goes down (R98, R123): its waiting non-scheduled frames are dropped and counted; a PTP frame leaves no
entry. The frame being sent is cut off and counted in TX_DROP; scheduled frames that were to follow it count in TX_SKIP.
(DEDUCED, log 40). -/
def State.linkDown (s : State) (n : Nat) : State :=
  if ¬ s.linkOf n then s
  else
    let p := portPage n
    let cut := (s.onWire n).1.length
    let skip := (s.onWire n).2.length
    let k := (s.nsOf n).length + cut
    let t : State := { s with link := Tbl.del n s.link, nsq := Tbl.del n s.nsq, wire := Tbl.del n s.wire }
    let t := if cut + skip = 0 then t else t.out (.cut n skip)
    let t := if skip = 0 then t
      else ((t.wrn p PORT.TX_FRAMES ((t.rd p PORT.TX_FRAMES).toNat - skip)).bumpBy p PORT.TX_SKIP skip).raise p 18
    let t := ((t.wrf p PORT.PORT_STS 3 3 1).raise p 16).bump p PORT.LINK_DOWNS
    (s.ringChange (t.bumpBy p PORT.TX_DROP k) n).txAdvance

/-- LINK_DOWN (R123): the PCS of a port loses block lock or sync. -/
def execLinkDown (n : Fin 5) (s : State) : Result := done s (s.linkDown n.val)

/-- LINK_UP (R87, R123): lock has held for LINK_UP_MS; ING_LAT and EGR_LAT are loaded for the port's speed and FEC.
(DESIGN CHOICE, log 38). -/
def execLinkUp (n : Fin 5) (s : State) : Result :=
  let n := n.val
  if s.linkOf n ∨ ¬ s.portOn n ∨ ¬ s.sdLocked 0 then .next s
  else
    let p := portPage n
    let t : State := { s with link := Tbl.put n true s.link }
    let t := (t.wrf p PORT.PORT_STS 3 3 1).raise p 16
    let t := s.ringChange t n
    if n < 4 then
      let fec := bit (s.rd p PORT.PORT_CTL) 2
      done s ((t.wrn .timeu (tsWin n TIMEUW.ING_LAT) (Config.ingLat n (s.speed n) fec).toNat).wrn .timeu (tsWin n TIMEUW.EGR_LAT)
        (Config.egrLat n (s.speed n) fec).toNat)
    else done s t

/-- PORT_CTL (R104, R125, R162). -/
def portCtlRule (n : Nat) : Rule where
  legal := fun _ _ v =>
    (if fld v 1 0 = 3 then [(0, E_RANGE)] else []) ++
    (if fld v 2 2 = 1 ∧ fld v 1 0 ≠ 2 then [(2, E_CONFLICT)] else []) ++
    (if fld v 3 3 = 1 ∧ fld v 1 0 ≠ 0 then [(3, E_CONFLICT)] else []) ++
    (if fld v 23 16 = 0 then [(16, E_RANGE)] else [])
  pre := fun s _ v =>
    let s := if n < 4 ∧ s.speed n ≠ fld v 1 0 ∧ lineRate (fld v 1 0) / 1000 < portSum s.porter.ctxs n then s.raise .porter 22 else s
    if s.rdf (portPage n) PORT.PORT_CTL 3 0 ≠ fld v 3 0 then s.linkDown n else s

/-- PORT_CTL_WRITE (R104): a change of SPEED, FEC or AN takes the link down at the write. -/
def execPortCtlWrite (src : Src) (n : Fin 5) (w : Word) (s : State) : Result :=
  done s (s.writeReg (portCtlRule n.val) src (portPage n.val) PORT.PORT_CTL w)

/-- The counters of a port page (R125). (DESIGN CHOICE, log 39). -/
def portCounters : List Nat :=
  [PORT.RX_FRAMES, PORT.RX_FCS_ERR, PORT.RX_LEN_DROP, PORT.RX_VLAN_DROP, PORT.RX_CTRL_DROP, PORT.TX_FRAMES, PORT.TX_SKIP,
   PORT.TX_DROP, PORT.TX_LATE, PORT.LINK_DOWNS, PORT.FEC_CORR]
def pvidRule : Rule where
  legal := fun _ _ v => if fld v 11 0 = 0 ∨ fld v 11 0 = 4095 then [(0, E_RANGE)] else []
def portMtuRule : Rule where
  legal := fun _ _ v => if fld v 13 0 < 64 ∨ 9216 < fld v 13 0 then [(0, E_RANGE)] else []
def vlanMapRule (w : Nat) : Rule where
  legal := fun _ _ v =>
    (if w = 0 ∧ v.testBit 0 then [(0, E_RESERVED)] else []) ++ (if w = 127 ∧ v.testBit 31 then [(31, E_RESERVED)] else [])
def portRule (n o : Nat) : Rule :=
  if o = PORT.PORT_CTL then portCtlRule n
  else if o = PORT.PVID then pvidRule
  else if o = PORT.PORT_MTU then portMtuRule
  else if o = PORT.CNT_CLR then { apply := fun s _ v => if fld v 0 0 = 1 then s.zero (portPage n) portCounters else s }
  else if 0x400 ≤ o ∧ o < 0x600 then vlanMapRule ((o - 0x400) / 4)
  else {}

/-! ### PTP in a frame (R86, R89, R90, R92) -/

/-- A PTP message within a frame's octets from its Ethertype on: its offset there, and the UDP header's offset with the IP
version for the UDP transports. The octet layouts are those of IEEE 1588, IPv4, IPv6 and UDP. -/
structure PtpAt where
  ofs : Nat
  udp : Option (Nat × Nat)
deriving DecidableEq, Repr

/-- Find a PTP message, by the transports that TRANSPORT enables: bit 0 Layer 2, 1 UDP/IPv4, 2 UDP/IPv6. An 802.1Q tag before
the Ethertype is passed over. -/
def ptpFind (transport : Nat) (b : List Byte) : Option PtpAt :=
  let b0 := if ofBe (b.take 2) = 0x8100 then 4 else 0
  let at_ := fun o n => ofBe ((b.drop (b0 + o)).take n)
  let ports := fun u => ((b.drop (b0 + u)).length ≥ 8) && (at_ (u + 2) 2 == 319 || at_ (u + 2) 2 == 320)
  match at_ 0 2 with
  | 0x88F7 => if transport.testBit 0 then some ⟨b0 + 2, none⟩ else none
  | 0x0800 =>
    let u := 2 + at_ 2 1 % 16 * 4
    if transport.testBit 1 ∧ at_ 11 1 = 17 ∧ ports u then some ⟨b0 + u + 8, some (b0 + u, 4)⟩ else none
  | 0x86DD => if transport.testBit 2 ∧ at_ 8 1 = 17 ∧ ports 42 then some ⟨b0 + 50, some (b0 + 42, 6)⟩ else none
  | _ => none

/-- The PTP messages that a port may carry: PTP_CTL.TRANSPORT. (PRESUMED, log 37). -/
def State.ptpOf (s : State) (port : Nat) (b : List Byte) : Option PtpAt :=
  if 4 ≤ port then none else ptpFind (s.rdf .timeu (tsWin port TIMEUW.PTP_CTL) 6 4) b

def PtpAt.field (p : PtpAt) (b : List Byte) (o n : Nat) : Nat := ofBe ((b.drop (p.ofs + o)).take n)
def PtpAt.type (p : PtpAt) (b : List Byte) : Nat := p.field b 0 1 % 16
def PtpAt.event (p : PtpAt) (b : List Byte) : Bool := decide (p.type b < 4)
def PtpAt.domain (p : PtpAt) (b : List Byte) : Nat := p.field b 4 1
def PtpAt.twoStep (p : PtpAt) (b : List Byte) : Bool := (p.field b 6 1).testBit 1
def PtpAt.seqId (p : PtpAt) (b : List Byte) : Nat := p.field b 30 2
/-- sourcePortIdentity and sequenceId, the key of R92. -/
def PtpAt.key (p : PtpAt) (b : List Byte) : Nat := p.field b 20 12
/-- Octets from the Ethertype to the end of the fields that a change of the first `n` octets of the message touches, the last two
octets of the payload with UDP over IPv6 among them (R90). -/
def PtpAt.reach (p : PtpAt) (b : List Byte) (n : Nat) : Nat :=
  match p.udp with
  | some (u, 6) => max (p.ofs + n) (u + ofBe ((b.drop (u + 4)).take 2))
  | _ => p.ofs + n
def PtpAt.put (p : PtpAt) (b : List Byte) (o n v : Nat) : List Byte := overlay b (p.ofs + o) (beBytes n v)

/-- Add to a correctionField (R89): 0x7FFF_FFFF_FFFF_FFFF is left unchanged; a sum outside the field takes an open value.
(DEDUCED, log 36). -/
def corrAdd (c : Nat) (d : Int) (free : Nat) : Nat :=
  if c = 2 ^ 63 - 1 then c
  else
    let v := signed 64 c + d
    if -(2 ^ 63 : Int) ≤ v ∧ v < 2 ^ 63 then unsigned 64 v else free

/-- Ones' complement sum of 16-bit words. (PRESUMED, log 37). -/
def onesSum (l : List Byte) : Nat :=
  let rec go : List Byte → Nat
    | a :: b :: t => a.toNat * 256 + b.toNat + go t
    | [a] => a.toNat * 256
    | [] => 0
  let v := go l % 65535
  v

/-- Make a changed frame's UDP checksum hold again (R90): over IPv4 incrementally, a zero one stays zero; over IPv6 by the
last two octets of the UDP payload. -/
def PtpAt.fix (p : PtpAt) (old new : List Byte) : List Byte :=
  match p.udp with
  | none => new
  | some (u, ver) =>
    let len := ofBe ((new.drop (u + 4)).take 2)
    let part := fun (b : List Byte) => onesSum ((b.drop u).take len)
    let diff := (part new + 65535 - part old) % 65535
    if ver = 4 then
      let c := ofBe ((new.drop (u + 6)).take 2)
      if c = 0 then new
      else
        let n := (65535 - c + diff) % 65535
        overlay new (u + 6) (beBytes 2 (if 65535 - n = 0 then 65535 else 65535 - n))
    else
      let x := ofBe ((new.drop (u + len - 2)).take 2)
      overlay new (u + len - 2) (beBytes 2 ((x + 65535 - diff) % 65535))

/-- Seconds and whole nanoseconds of a timestamp as 10 octets. -/
def ptpTime (q : Nat) : Nat := qS q * 2 ^ 32 + qNs q
/-- The 0.25 ns count that 10 octets of a PTP timestamp name. -/
def ptpRead (v : Nat) : Nat := v / 2 ^ 32 % 2 ^ 48 * 4000000000 + v % 2 ^ 32 * 4

/-- The next open value for a correctionField, when one is asked for. -/
def State.drawIf (s : State) (b : Bool) : Nat × State := if b then let (v, t) := s.draw; (v.toNat, t) else (0, s)

/-- Whether a sum leaves a correctionField. (DEDUCED, log 36). -/
def corrOver (c : Nat) (d : Int) : Bool :=
  c != 2 ^ 63 - 1 && !(decide (-(2 ^ 63 : Int) ≤ signed 64 c + d) && decide (signed 64 c + d < 2 ^ 63))

/-- R89 on departure of a manager's PTP event message at a port: the frame as it leaves (none when its fields lie beyond 256
octets), and its transmit timestamp entry. `lead` is the number of octets that stand before `body` on the wire. -/
def State.ptpDepart (s : State) (port ph lead : Nat) (p : PtpAt) (b : List Byte) : Option (List Byte) × State :=
  let q := s.txStamp port ph
  let ent : Bool → Nat → TxtsEntry := fun ins st => ⟨q, ins, p.type b, st, p.domain b, p.seqId b⟩
  let act := (p.type b = 0 ∨ p.type b = 3) ∧ ¬ p.twoStep b
  if ¬ act then (some b, s.txtsPut port (ent false 0))
  else if 256 < lead + p.reach b 44 then (none, s.txtsPut port (ent false E_ONESTEP))
  else
    let c := p.field b 8 8
    let d : Int := if p.type b = 0 then (qSub q : Int) * 2 ^ 14 else qDiff q (ptpRead (p.field b 34 10)) * 2 ^ 14
    let (free, s) := s.drawIf (corrOver c d)
    let n := p.put (p.put b 8 8 (corrAdd c d free)) 34 10 (if p.type b = 0 then ptpTime q else 0)
    (some (p.fix b n), s.txtsPut port (ent true 0))

/-- Store a two-step residence; the 64-entry table replaces its oldest entry (R92). -/
def State.tcStore (s : State) (e : TcEntry) : State :=
  s.modTime (fun t => { t with tcTable := (if 64 ≤ t.tcTable.length then t.tcTable.drop 1 else t.tcTable) ++ [e] })

/-- Transparent clock at both ports of a pair (R92). -/
def State.tcOn (s : State) (port : Nat) : Bool :=
  bit (s.rd .timeu (tsWin port TIMEUW.PTP_CTL)) 1 && bit (s.rd .timeu (tsWin (otherPort port) TIMEUW.PTP_CTL)) 1

/-- The correction of a forwarded PTP message as it leaves (R92): `stamp` is its reception, at port `inp`. A message whose
fields lie beyond 256 octets is discarded (R90). A matched Follow_Up takes its entry out of the table, and one without an entry counts
at the port it came in by. (DESIGN CHOICE, log 124, 125). -/
def State.tcDepart (s : State) (port ph lead inp stamp : Nat) (b : List Byte) : Option (List Byte) × State :=
  match s.ptpOf inp b with
  | none => (some b, s)
  | some p =>
    if ¬ s.tcOn port ∨ p.domain b ≠ s.rdf .timeu TIMEU.TIME_CTL 15 8 then (some b, s)
    else
      let res : Int := qDiff (s.txStamp port ph) stamp * 2 ^ 14
      let link : Int := (s.rdf .timeu (tsWin inp TIMEUW.LINK_DELAY) 23 0 * 256 : Nat)
      let add := fun (s : State) (d : Int) =>
        if 256 < lead + p.reach b 16 then (none, s)
        else
          let c := p.field b 8 8
          let (free, s) := s.drawIf (corrOver c d)
          (some (p.fix b (p.put b 8 8 (corrAdd c d free))), s)
      if p.type b = 0 then
        if p.twoStep b then (some b, s.tcStore ⟨p.key b, res + link⟩) else add s (res + link)
      else if p.type b = 1 then add s res
      else if p.type b = 8 then
        match s.time.tcTable.find? (fun e => e.key == p.key b) with
        | some e => add (s.modTime (fun t => { t with tcTable := t.tcTable.filter (fun x => x.key != p.key b) })) e.value
        | none => (some b, s.bump .timeu (tsWin inp TIMEUW.TC_FU_MISS))
      else (some b, s)

/-! ### Transmission (R112, R116, R118 to R120, R123) -/

def TxFrame.len (f : TxFrame) : Nat := frameLen f.vlan.isSome f.red.isSome (f.body.length + extLen f.signed.isSome)

/-- Octets of a frame that stand before its body on the wire (R90, R120). -/
def TxFrame.lead (f : TxFrame) : Nat := 12 + (if f.vlan.isSome then 4 else 0) + (if f.red.any (fun (r : RedTag) => r.hsr) then 6 else 0)

/-- A frame with its padding up to the least length, and the LSDUsize that its tag or trailer then holds: the octets after the Ethertype,
padding and the six of the tag or trailer among them (R119). (PRESUMED, log 133). -/
def TxFrame.fit (f : TxFrame) : TxFrame :=
  let have_ := 16 + (if f.vlan.isSome then 4 else 0) + (if f.red.isSome then 6 else 0) + f.body.length + extLen f.signed.isSome
  let pad := 64 - have_
  { f with pad := pad, red := f.red.map (fun (r : RedTag) =>
      { r with size := (f.body.length + extLen f.signed.isSome + pad + 4) % 4096 }) }

/-- The redundancy tag of the unit's own frame at a port of a pair (R119, R120): LanId A or B in PRP, the path in HSR; its LSDUsize
follows from the frame. -/
def State.ownTag (s : State) (port seq : Nat) : Option RedTag :=
  match s.pairMode port with
  | 1 => some ⟨false, seq, if port % 2 = 0 then 0xA else 0xB, 0⟩
  | 2 => some ⟨true, seq, port % 2, 0⟩
  | _ => none

/-- The launch instant of a guest of class `n` on this unit at or after a clock value. -/
def State.launchOf (s : State) (n : Nat) : Nat :=
  let ofs := (s.rd .egress EGRESS.LAUNCH_OFS).toNat * nsU
  let from_ := s.clockF + clockU - ofs
  let t := startTickFrom n ((if clockOfTick (absTick (from_ % clockU)) = from_ % clockU then absTick (from_ % clockU)
    else absTick (from_ % clockU) + 1) - s.kTicks n)
  s.instantOf n t + ofs

/-- The earlier of two clock values, where there are two. -/
def sooner (a : Option Nat) (b : Nat) : Option Nat := some (match a with | some c => if cDiff b c < 0 then b else c | none => b)

/-- The launch instants that lie ahead at a port (R113, R116): those of the guests with a publication on it, of the frames that wait
for theirs, and of the repeats to come. -/
def State.launches (s : State) (port : Nat) : List Nat :=
  let l := s.pubs.filter (fun e => !e.2.stopped && e.2.entry.ports.contains port)
  let gs := l.foldl (fun a e => addNew a e.2.entry.guest) []
  gs.filterMap (fun g => (s.guest g).map (fun (x : Guest) => s.launchOf x.img.n)) ++
    (s.due.filter (fun d => d.ports.contains port)).map (fun d => d.at_) ++
    l.filterMap (fun e => match s.guest e.2.entry.guest, e.2.repeatAt with
      | some x, some grid => some (s.instantOf x.img.n grid + (s.rd .egress EGRESS.LAUNCH_OFS).toNat * nsU)
      | _, _ => none)

/-- The next launch instant at a port (R116): the nearest of them. (DEDUCED, log 41). -/
def State.nextLaunch (s : State) (port : Nat) : Option Nat := (s.launches port).foldl sooner none

/-- Elapsed local time at which a port has sent what it was given to send. -/
def State.wireFree (s : State) (port : Nat) : Nat := ((Tbl.get [] port s.wire).map Prod.snd).foldl max s.time.elapsed

/-- Send one frame at a port, its first bit at an elapsed time. (DEDUCED, log 40). -/
def State.emitFrame (s : State) (port : Nat) (f : TxFrame) (sched : Bool) (start : Nat) : State :=
  let l := (Tbl.get [] port s.wire).filter (fun e => decide (s.time.elapsed < e.2))
  let t : State := { s with wire := Tbl.put port (l ++ [(start, start + wireTime (s.speed port) f.len * nsU / 100)]) s.wire }
  (t.out (.frame port f sched)).bump (portPage port) PORT.TX_FRAMES

/-- NONSCHED_TX (R116): the port serves the next waiting non-scheduled frame when its wire time ends before the port's next
launch instant and it sends no other; a frame that the guard holds is counted once. R89 and R92 act on departure; the frame's start-of-frame
delimiter leaves at phase `ph` of CLK_TIME. (DEDUCED, log 40, 41, 123). -/
def execNonschedTx (n : Fin 5) (ph : Fin 10) (s : State) : Result :=
  let n := n.val
  match nextNs (s.nsOf n) with
  | none => .next s
  | some f =>
    if ¬ s.canSend n ∨ s.time.elapsed < s.wireFree n then .next s
    else
      let wire := wireTime (s.speed n) f.frame.len * nsU / 100
      let fits : Bool := match s.nextLaunch n with | some l => decide (cDiff (s.time.clock + wire) l < 0) | none => true
      if ¬ fits then
        if f.held ∨ 4 ≤ n then .next s
        else .next (({ s with nsq := Tbl.put n ((s.nsOf n).map (fun x => if x = f then { x with held := true } else x)) s.nsq } :
          State).bump .egress (win n EGRESSW.GUARD_HOLDS))
      else
        let t : State := { s with nsq := Tbl.set [] n ((s.nsOf n).erase f) s.nsq }
        let (b, t) := match f.ingress with
          | some (stamp, inp) => t.tcDepart n ph.val f.frame.lead inp stamp f.frame.body
          | none =>
            match t.ptpOf n f.frame.body with
            | some p =>
              if p.event f.frame.body ∧ bit (t.rd .timeu (tsWin n TIMEUW.PTP_CTL)) 0 then
                t.ptpDepart n ph.val f.frame.lead p f.frame.body
              else (some f.frame.body, t)
            | none => (some f.frame.body, t)
        let t := match b with | some b => t.emitFrame n { f.frame with body := b } false t.time.elapsed | none => t
        done s (if f.entry.isSome then t.txAdvance else t)

/-- Blocks that a frame of `n` protected octets takes in an HMAC engine (R155), and its time in ns in an engine. -/
def hmacNs (n : Nat) : Nat := (ceilDiv (n + 9) 64 + 1) * 80
def gmacNs (n : Nat) : Nat := n * 5 / 32

/-- A job of `ns` ends in an engine: ENG_JOBS and ENG_BUSY (R167). -/
def State.engineJob (s : State) (e ns : Nat) : State :=
  let s := s.bump .crypto (win e CRYPTOW.ENG_JOBS)
  { s with porter := { s.porter with busyNow := Tbl.set 0 e (Tbl.get 0 e s.porter.busyNow + ns) s.porter.busyNow } }

/-- The healthy GMAC engine that serves a port (R154). -/
def State.gmacFor (s : State) (port : Nat) : Option Nat :=
  if ¬ s.working .crypto then none
  else if port < 4 ∧ ¬ s.quarantined .crypto port then some port
  else (List.range 4).find? (fun e => !s.quarantined .crypto e)

/-- What signing a publication's frame meets at its launch (R154, R160, R167): a job of the port's engine over the frame's octets, or a
refusal. (DEDUCED, log 141). -/
def State.signing (s : State) (d : DueFrame) (port : Nat) : Bool × State :=
  match d.sign with
  | none => (true, s)
  | some slot =>
    let alg := match s.kslot slot with | some k => if k.long then 1 else 0 | none => 0
    match s.gmacFor port, s.keyUse slot d.guest alg true with
    | some e, none => (true, (s.engineJob e (gmacNs d.body.length)).bump .crypto CRYPTO.SIGNED)
    | some _, some _ => (false, (s.useRefused.bump .crypto CRYPTO.SIGN_REFUSED).raise .crypto 18)
    | none, _ => (false, (s.bump .crypto CRYPTO.SIGN_REFUSED).raise .crypto 18)

/-- Launch one due frame at a port, `late` × 10 ps after the launch instant (R116, R118). -/
def State.launch1 (s : State) (port : Nat) (d : DueFrame) (late : Nat) : State × Nat :=
  let p := portPage port
  let skip := fun (t : State) => ((t.bump p PORT.TX_SKIP).raise p 18, late)
  if d.skip ∨ ¬ s.canSend port then skip s
  else
    let (ok, s) := s.signing d port
    if ¬ ok then skip s
    else
      let f : TxFrame := ⟨d.dst, s.macBase + d.srcIdx, d.vlan.map (fun v => v.2 * 8192 + v.1), s.ownTag port d.seq, d.body,
        d.sign, 0⟩
      let f := f.fit
      let s := s.emitFrame port f true (s.time.elapsed + late * nsU / 100)
      let s := if 30000 < late then (s.bump p PORT.TX_LATE).raise .egress 17 else s
      (s, late + wireTime (s.speed port) f.len)

/-- Insert by ascending publication index. -/
def dueInsert (d : DueFrame) : List DueFrame → List DueFrame
  | [] => [d]
  | h :: t => if d.pub < h.pub then d :: h :: t else h :: dueInsert d t

/-- The frames due at a port in the order of R116: URGENT ones, then the others, each by publication index. -/
def dueAt (l : List DueFrame) (port : Nat) : List DueFrame :=
  let q := l.filter (fun d => d.ports.contains port)
  (q.filter (fun d => d.urgent)).foldl (fun a d => dueInsert d a) [] ++
    (q.filter (fun d => !d.urgent)).foldl (fun a d => dueInsert d a) []

/-- The frames of one launch instant leave a port in the order of R116, after what the port still sends. -/
def State.launchAt (s : State) (n at_ : Nat) : State :=
  let r := (dueAt (s.due.filter (fun d => d.at_ == at_)) n).foldl (fun (a : State × Nat) d => a.1.launch1 n d a.2)
    (s, (s.wireFree n - s.time.elapsed) * 100 / nsU)
  let left := s.due.map (fun d => if d.at_ = at_ then { d with ports := d.ports.filter (fun q => q != n) } else d)
  { r.1 with due := left.filter (fun d => !d.ports.isEmpty) }

/-- LAUNCH (R113, R116): the earliest launch instant at a port that has frames due, once the clock has reached it. -/
def execLaunch (n : Fin 4) (s : State) : Result :=
  match ((s.due.filter (fun d => d.ports.contains n.val)).map (fun d => d.at_)).foldl sooner none with
  | none => .next s
  | some at_ => if cDiff s.time.clock at_ < 0 then .next s else done s (s.launchAt n.val at_)

/-- GOOSE_REPEAT (R113): a repeat falls due at its grid tick, once the clock has reached it, and the frame goes again with sqNum
advanced. -/
def execGooseRepeat (i : Nat) (s : State) : Result :=
  match Tbl.look i s.pubs with
  | none => .next s
  | some u =>
    match s.guest u.entry.guest, u.repeatAt with
    | some x, some grid =>
      let cp := s.instantOf x.img.n grid
      if u.stopped ∨ u.entry.typ ≠ 0 ∨ cDiff s.time.clock cp < 0 then .next s
      else match s.sendState x with
      | none => .next s
      | some send => done s (s.goose i u (u.last.getD []) u.force grid cp (s.pubSync x) send)
    | _, _ => .next s

/-! ### Redundancy on reception (R119 to R122) -/

/-- The window decision of R122 on one window: accepted, the window with its TOP, and whether it was reset. -/
def ddStep (e : Option (Nat × BitVec 64)) (s : Nat) : Bool × (Nat × BitVec 64) × Bool :=
  match e with
  | none => (true, (s, 1), false)
  | some (top, w) =>
    let d := (s + 65536 - top) % 65536
    let back := (top + 65536 - s) % 65536
    if d ≠ 0 ∧ d < 0x8000 then (true, (s, (w <<< d) ||| 1), false)
    else if back < 64 then
      if w.getLsbD back then (false, (top, w), false) else (true, (top, w ||| (1 <<< back)), false)
    else (true, (s, 1), true)

/-- The duplicate-discard table of a pair. -/
def State.ddTab (s : State) (pair : Nat) : Tbl DdEntry := Tbl.get [] pair s.dd
def State.ddPut (s : State) (pair src : Nat) (e : DdEntry) : State :=
  { s with dd := Tbl.put pair (Tbl.put src e (s.ddTab pair)) s.dd }

/-- A fresh entry of a source (R122). -/
def State.ddNew (s : State) : DdEntry := ⟨none, none, none, s.time.elapsed⟩

/-- The decisions of R122 on a frame from `src` with number `seq` at a port: delivery (when asked for), and forwarding. -/
def State.ddDecide (s : State) (port src seq : Nat) (deliver : Bool) : Bool × Bool × State :=
  let pair := port / 2
  let w := fun o => win pair o
  let entry := match Tbl.look src (s.ddTab pair) with
    | some e => some e
    | none => if (s.ddTab pair).length < 4096 then some s.ddNew else none
  match entry with
  | none => (true, true, s.bump .redun (w REDUNW.DD_FULL))
  | some e =>
    let (ok, del, reset) := if deliver then (let r := ddStep e.del seq; (r.1, some r.2.1, r.2.2)) else (true, e.del, false)
    let lower := decide (port % 2 = 0)
    let f := ddStep (if lower then e.fwd0 else e.fwd1) seq
    let fok := f.1
    let hsr := decide (s.pairMode port = 2)
    let e := { e with del := del, seen := s.time.elapsed }
    let e := if ¬ hsr then e else if lower then { e with fwd0 := some f.2.1 } else { e with fwd1 := some f.2.1 }
    let s := s.ddPut pair src e
    let s := if ok then s else s.bump .redun (w REDUNW.DUP_DROP)
    (ok, fok, if reset then s.bump .redun (w REDUNW.OUT_OF_WIN) else s)

/-- DD_AGE_EXPIRY (R122): an entry with no frame for DD_AGE_MS is freed. -/
def execDdAgeExpiry (pair : Fin 2) (src : Nat) (s : State) : Result :=
  match Tbl.look src (s.ddTab pair.val) with
  | none => .next s
  | some e =>
    if s.time.elapsed < e.seen + s.rdf .redun REDUN.DD_AGE 15 0 * 1000000 * nsU then .next s
    else .next { s with dd := Tbl.set [] pair.val (Tbl.del src (s.ddTab pair.val)) s.dd }

/-- The octets a frame presents where its trailer or tag is not stripped. -/
def RxFrame.unstripped (f : RxFrame) : List Byte :=
  match f.red with
  | none => f.body
  | some r =>
    let size := (r.lan % 16) * 4096 + r.size % 4096
    if r.hsr then beBytes 2 0x892F ++ beBytes 2 size ++ beBytes 2 r.seq ++ f.body
    else f.body ++ beBytes 2 r.seq ++ beBytes 2 size ++ beBytes 2 0x88FB

/-- Forward a frame of an HSR ring to the other port (R92, R116, R120): as received, with its number and path. With the transparent clock
on, the Pdelay messages, Pdelay_Resp_Follow_Up among them, are link-local. -/
def State.hsrForward (s : State) (port : Nat) (fr : InFrame) : State :=
  let o := otherPort port
  let local_ := s.tcOn port && (s.ptpOf port fr.f.body).any (fun (p : PtpAt) =>
    let t := p.type fr.f.body
    t == 2 || t == 3 || t == 0xA)
  let f : TxFrame := ⟨fr.f.dst, fr.f.src, fr.f.vlan, fr.red, fr.f.body, none, 0⟩
  if local_ then s
  else
    (s.nsPut o ⟨if 4 ≤ fr.pcp then 1 else 2, { f with pad := f.fit.pad }, some (fr.stamp, port), none, false⟩).bump .redun
      (win (port / 2) REDUNW.HSR_FWD_CNT)

/-- What REDUN makes of a received frame (R144): removed, a duplicate, or accepted. -/
inductive Dd where
  | removed | dup | accept
deriving DecidableEq, Repr

/-- REDUN on a received frame (R119 to R122). A frame of Porter's PTP, supervision and heartbeat classes (`classed`) takes no
part in the delivery window (R144); in HSR its forwarding is decided like any other's. (DEDUCED, log 74). -/
def State.redunRx (s : State) (port : Nat) (fr : InFrame) (classed : Bool) : Dd × State :=
  let m := s.pairMode port
  let w := fun o => win (port / 2) o
  if m = 0 then (.accept, s)
  else if s.quarantined .redun (port / 2) then (.removed, s)
  else match fr.red with
  | none => (.accept, s.bump .redun (w REDUNW.UNTAGGED))
  | some r =>
    let src := fr.f.src
    if m = 1 then
      let s := if r.lan ≠ (if port % 2 = 0 then 0xA else 0xB) then s.bump .redun (w REDUNW.WRONG_LAN) else s
      if classed then (.accept, s)
      else
        let (ok, _, s) := s.ddDecide port src r.seq true
        (if ok then .accept else .dup, s)
    else if (s.macBase ≤ src ∧ src ≤ s.macBase + 0xFD) ∨ src = s.unitAddr then
      (.removed, s.bump .redun (w REDUNW.HSR_OWN_REMOVED))
    else
      let (ok, fok, s) := s.ddDecide port src r.seq (!classed)
      let fwd := fok && fr.f.dst != s.unitAddr && bit (s.rd .redun (w REDUNW.PAIR_CTL)) 2
      let s := if fwd then s.hsrForward port fr else s
      if ok then (.accept, s) else (.dup, s)

/-! ### Reception at a port (R104, R106, R108) -/

/-- The Ethertype of a frame, after its 802.1Q tag. -/
def etherType (b : List Byte) : Nat := ofBe (b.take 2)

/-- Bytes of a trailer or tag. -/
def redBytes : Nat := 6

/-- What RS-FEC reports as a frame comes in (R104, R125): corrections counted, an uncorrectable codeword raised. (DEDUCED, log 134). -/
def State.fecRx (s : State) (n : Nat) (f : RxFrame) : State :=
  let p := portPage n
  if s.portOn n ∧ s.linkOf n ∧ bit (s.rd p PORT.PORT_CTL) 2 then
    let t := s.bumpBy p PORT.FEC_CORR f.fecCorr
    if f.fecBad then t.raise p 17 else t
  else s

/-- The checks of a port on a frame (R104, R106, R108): the frame that goes on to REDUN, or none. -/
def State.portRx (s : State) (n ph : Nat) (f : RxFrame) : Option InFrame × State :=
  let p := portPage n
  let s := s.fecRx n f
  if ¬ (s.portOn n ∧ bit (s.rd p PORT.PORT_CTL) 5 ∧ s.linkOf n) then (none, s)
  else
    let s := s.bump p PORT.RX_FRAMES
    let m := s.pairMode n
    -- a trailer or tag counts as one only on a pair of its kind
    let red := if (m = 1 ∧ f.red.any (fun r => !r.hsr)) ∨ (m = 2 ∧ f.red.any (fun r => r.hsr)) then f.red else none
    let f := if red.isNone then { f with body := f.unstripped, red := none } else f
    let len := if red.isSome then f.len - redBytes else f.len
    let et := etherType f.body
    let vid := match f.vlan with
      | some t => if t % 4096 = 0 then s.rdf p PORT.PVID 11 0 else t % 4096
      | none => s.rdf p PORT.PVID 11 0
    let pcp := match f.vlan with | some t => t / 8192 % 8 | none => s.rdf p PORT.PVID 14 12
    if ¬ f.fcsOk then (none, s.bump p PORT.RX_FCS_ERR)
    else if f.len < 64 ∨ s.rdf p PORT.PORT_MTU 13 0 < len then (none, s.bump p PORT.RX_LEN_DROP)
    else if et = 0x8808 ∧ (ofBe ((f.body.drop 2).take 2) = 0x0001 ∨ ofBe ((f.body.drop 2).take 2) = 0x0101) then (none, s.bump p PORT.RX_CTRL_DROP)
    else if (f.vlan.isNone ∧ et = 0x88A8) ∨ (bit (s.rd p PORT.PORT_CTL) 6 ∧ ¬ bit (s.rd p (PORT.VLAN_MAP (vid / 32))) (vid % 32)) then
      (none, s.bump p PORT.RX_VLAN_DROP)
    else
      let s : State := if s.macBase ≤ f.src ∧ f.src ≤ s.macBase + 0xFD ∧ n < 4 then
          { s with role := { s.role with lastPubRx := some s.time.elapsed } } else s
      (some ⟨n, f, if n < 4 then s.rxStamp n ph else s.now, s.time.stepGen, vid, pcp, f.vlan.isSome, red, s.time.elapsed⟩, s)

/-! ### The network heartbeat (R263) -/

/-- The 46 payload octets of a network heartbeat (R263). -/
def State.netHbBytes (s : State) : List Byte :=
  [0x58, 0x01, if s.unitB then 1 else 0, BitVec.ofNat 8 (modeCode s.role.mode), BitVec.ofNat 8 s.role.flags, 0] ++
    beBytes 6 s.macBase ++ beBytes 6 s.nowS ++ beBytes 4 s.nowNs ++ beBytes 4 ((s.hinge.hbSeq + 2 ^ 32 - 1) % 2 ^ 32) ++
    beBytes 4 s.hinge.netSeq ++ beBytes 4 s.cfgDigest ++ List.replicate 12 0

/-- Queue a frame of the unit on ports; on a PRP or HSR pair both ports carry it under one unit-local number (R118 to
R120). -/
def State.sendUnit (s : State) (ports : List Nat) (f : TxFrame) (cls : Nat) (entry : Option Nat) (pair : Bool) : State :=
  (List.range 3).foldl (fun t k =>
    let mine := ports.filter (fun n => n / 2 == k)
    if mine = [] then t
    else if pair && k < 2 && t.pairMode (2 * k) != 0 then
      let seq := t.unitSeq % 65536
      let t : State := { t with unitSeq := seq + 1 }
      [2 * k, 2 * k + 1].foldl (fun t n => t.nsPut n ⟨cls, TxFrame.fit { f with red := t.ownTag n seq }, none, entry, false⟩) t
    else mine.foldl (fun t n => t.nsPut n ⟨cls, f.fit, none, entry, false⟩) t) s

/-- NET_HB_SEND (R263): the unit's send instant; a heartbeat leaves on every PORTn with TX_EN = 1. -/
def execNetHbSend (s : State) : Result :=
  if s.role.mode = .boot ∨ ¬ bit (s.rd .hinge HINGE.HINGE_CTL) 1 then .next s
  else
    let v := (s.rd .hinge HINGE.HB_VLAN).toNat
    let ports := (List.range 4).filter (fun n => bit (s.rd (.port n) PORT.PORT_CTL) 4)
    let f : TxFrame := ⟨s.macBase + (if s.unitB then 0xFE else 0xFF), s.unitAddr,
      if v.testBit 15 then some (7 * 8192 + v % 4096) else none, none, beBytes 2 0x88B5 ++ s.netHbBytes, none, 0⟩
    let t := s.sendUnit ports f 2 none true
    done s { t with hinge := { t.hinge with netSeq := (s.hinge.netSeq + 1) % 2 ^ 32 } }

/-! ### Publication entries (R110 to R112, R124, R127) -/

/-- Maximum frame rate of a publication (R112) as a fraction; a raw one's is its guest's cycle rate. (DESIGN CHOICE, log 129). -/
def State.pubRate (s : State) (e : PubEntry) : Nat × Nat :=
  let c := match s.guest e.guest with | some x => cyclesPerSec x.img.n | none => 0
  if e.typ = 0 then (c * e.t1 + 1000, e.t1) else (c, 1)

/-- Sum of fractions over a common denominator. -/
def fracSum (l : List (Nat × Nat)) : Nat × Nat :=
  l.foldl (fun a b => let d := Nat.lcm a.2 b.2; (a.1 * (d / a.2) + b.1 * (d / b.2), d)) (0, 1)

/-- A port exceeds the load or urgency limit of R112. -/
def State.overload (s : State) (port : Nat) (l : List PubEntry) : Bool :=
  let on := l.filter (fun e => e.ports.contains port)
  let sum := fracSum (on.map (fun e => let r := s.pubRate e; ((s.pubLen port e + 20) * 8 * r.1, r.2)))
  decide (lineRate (s.speed port) * 8 * sum.2 < sum.1 * 10) || decide (30000 < s.urgentLoad port l)

/-- A map entry's reserved bits (R110). -/
def mapReserved (v : Nat) : Bool := decide (v / 2 ^ 25 % 2 ^ 7 ≠ 0) || decide (v / 2 ^ 43 % 8 ≠ 0) || decide (v / 2 ^ 48 ≠ 0)

/-- The fields that the device fills in a template: offset and width (R110). -/
def PubEntry.fills (e : PubEntry) : List (Nat × Nat) :=
  match e.typ with
  | 0 => [(e.ofsT, 8), (e.ofsA, 4), (e.ofsB, 4), (e.ofsTal, 4)]
  | 1 => [(e.ofsA, 2), (e.ofsB, 1)]
  | _ => []

/-- A reserved field of an entry is 1 (R110). (DEDUCED, log 42). -/
def pubReserved (b : List Byte) : Bool :=
  let ctl := ofLe (b.take 4)
  ctl.testBit 7 || decide (ctl / 2 ^ 24 ≠ 0) || decide (b.getD 0x21 0 ≠ 0) || decide (leAt b 0x30 2 / 512 ≠ 0) ||
    (b.drop 0x32).any (fun x => x != 0)

/-- The checks of R111 in order, on the 64 bytes of entry `i`. (DEDUCED, log 42). -/
def State.pubCheck (s : State) (i : Nat) (b : List Byte) : Option Nat :=
  let e := pubOfBytes b
  let map := (List.range e.mapCount).map (fun k => s.leMem (e.mapAddr + 8 * k) 8)
  if pubReserved b ∨ map.any mapReserved then some E_RESERVED
  else if e.typ = 3 ∨ e.tmplLen < 64 ∨ 1500 < e.tmplLen ∨ e.mapCount = 0 ∨ 64 < e.mapCount ∨
      (e.typ = 0 ∧ (e.t1 = 0 ∨ 1000 < e.t1 ∨ e.t0 < e.t1 ∨ 60000 < e.t0)) ∨ e.guest = 0 then some E_RANGE
  else if e.tmplAddr % 64 ≠ 0 ∨ e.mapAddr % 8 ≠ 0 then some E_ALIGN
  else if (s.guest e.guest).isNone then some E_ORPHAN
  else if 0xFD < e.srcIdx ∨ (s.admitted i e).any (fun x => x.srcIdx == e.srcIdx && x.guest != e.guest) ∨
      (e.fills ++ map.map (fun v => ((mapEnt v).ofs, (mapEnt v).width))).any (fun x => decide (e.tmplLen < x.1 + x.2)) ∨
      e.ports = [] then some E_CONFLICT
  else
    let key := if e.sign then (match s.kslot e.keySlot with
      | none => some E_NOKEY
      | some k => if k.revoked then some E_REVOKED else none) else none
    match key with
    | some c => some c
    | none => if e.ports.any (fun p => s.overload p (s.admitted i e)) then some E_BUDGET else none

/-- PUB_DOORBELL (R111, R124, R127). -/
def pubDoorbellRule : Rule where
  legal := fun _ _ v => if 4095 < v then [(0, E_RANGE)] else []
  busy := fun s _ _ => s.pubJob.isSome
  check := fun s _ _ => if s.standbyWithHinge then some E_MODE else none
  apply := fun s _ v =>
    ({ s with pubJob := some (fld v 11 0) } : State).wrn .egress EGRESS.PUB_RESULT (2 ^ 31 + fld v 11 0 * 65536)

/-- PUB_DOORBELL (R111): the check of an entry starts. -/
def execPubDoorbell (src : Src) (w : Word) (s : State) : Result :=
  done s (s.writeReg pubDoorbellRule src .egress EGRESS.PUB_DOORBELL w)

/-- An accepted entry, or the removal of an index, is placed at a commit point of its guest (R111, R274): through the active's
CONTROL frames on a mirrored pair; at once where no guest that is loaded has it. (DEDUCED, log 43). -/
def State.acceptEntry (s : State) (i : Nat) (e : Option PubEntry) : State :=
  let g := match e with
    | some x => x.guest
    | none => match Tbl.look i s.pubs with | some u => u.entry.guest | none => 0
  match s.guest g with
  | none => ({ s with pubAccept := s.pubAccept.filter (fun a => a.1 != i) } : State).pubEffect i e
  | some x =>
    if s.mirrored then
      let idx := cycleAt x.img.n (s.startAfter x.img.n 200000)
      (s.ctlSend g idx (.pub i e)).wait g idx (.pub i e)
    else { s with pubAccept := s.pubAccept.filter (fun a => a.1 != i) ++ [(i, e)] }

/-- PUB_DONE (R111): the check ends and reports; in SAFE a doorbell completes with E_MODE (R301). An entry with VALID = 0, of
which only the reserved fields are checked, stops its publication. (DEDUCED, log 116). -/
def execPubDone (s : State) : Result :=
  match s.pubJob with
  | none => .next s
  | some i =>
    let a := s.rd2 .egress EGRESS.PUB_BASE_LO + 64 * i
    let b := s.readMem a 64
    let e := pubOfBytes b
    let fin := fun (t : State) (c : Nat) =>
      done s ((({ t with pubJob := none } : State).wrn .egress EGRESS.PUB_RESULT (i * 65536 + c)).raise .egress 16)
    if s.role.mode = .safe then fin s E_MODE
    else guardDram a 64 <|
    if pubReserved b then fin s E_RESERVED
    else if b.headD 0 &&& 1 = 0 then fin (s.acceptEntry i none) 0
    else guardDram e.mapAddr (8 * e.mapCount) <|
    match s.pubCheck i b with
    | some c => fin s c
    | none => guardDram e.tmplAddr e.tmplLen <| fin (s.acceptEntry i (some e)) 0

/-- LAUNCH_OFS, MAC_BASE, PUB_BASE (R127). -/
def egressRule (o : Nat) : Rule :=
  if o = EGRESS.LAUNCH_OFS then
    { legal := fun _ _ v => if fld v 13 0 < 1000 ∨ 10000 < fld v 13 0 then [(0, E_RANGE)] else [] }
  else if o = EGRESS.MAC_BASE_HI then
    { legal := fun _ _ v => if v % 256 ≠ 0 ∨ v.testBit 40 then [(0, E_RANGE)] else [] }
  else if o = EGRESS.PUB_BASE_HI then
    { legal := fun _ _ v => if v % 4096 ≠ 0 then [(0, E_ALIGN)] else [] }
  else if o = EGRESS.PUB_DOORBELL then pubDoorbellRule
  else {}

/-- PAIR_CTL (R105, R126). -/
def pairCtlRule (c : Nat) : Rule where
  legal := fun _ _ v => if fld v 1 0 = 3 then [(0, E_RANGE)] else []
  check := fun s _ v =>
    if fld v 1 0 ≠ 0 ∧ s.rdf (.port (2 * c)) PORT.PORT_CTL 2 0 ≠ s.rdf (.port (2 * c + 1)) PORT.PORT_CTL 2 0 then some E_CONFLICT
    else none
  pre := fun s _ v =>
    let a := s.linkOf (2 * c)
    let b := s.linkOf (2 * c + 1)
    if ringOpen (s.pairMode (2 * c)) a b ≠ ringOpen (fld v 1 0) a b then s.raise .redun 16 else s
def pairCounters : List Nat :=
  [REDUNW.DUP_DROP, REDUNW.OUT_OF_WIN, REDUNW.DD_FULL, REDUNW.WRONG_LAN, REDUNW.UNTAGGED, REDUNW.HSR_FWD_CNT,
   REDUNW.HSR_OWN_REMOVED]
def redunRule (o : Nat) : Rule :=
  if o = REDUN.DD_AGE then
    { legal := fun _ _ v => if fld v 15 0 = 0 ∨ 10000 < fld v 15 0 then [(0, E_RANGE)] else [] }
  else if 0x800 ≤ o then
    let c := (o - 0x800) / 0x80
    let w := (o - 0x800) % 0x80
    if w = REDUNW.PAIR_CTL then pairCtlRule c
    else if w = REDUNW.CNT_CLR then
      { apply := fun s _ v => if fld v 0 0 = 1 then s.zero .redun (pairCounters.map (fun r => win c r)) else s }
    else {}
  else {}

end Sys2Proof.Machine
end

