-- ==== Sys2Proof/Machine/Porter.lean ====
section
/-! DEFINITION. Sys2Proof/Machine/Porter.lean: classification, the match table, descriptors, delivery, manager queues,
discovery, verification and admission (R129 to R168). -/
namespace Sys2Proof.Machine

abbrev E_STASH : Nat := 0x20
abbrev E_RATE : Nat := 0x21

/-- Change Porter's state. -/
def State.modPorter (s : State) (f : PorterSt → PorterSt) : State := { s with porter := f s.porter }

/-- The entry of a context in the table (R130). -/
def State.sdtEntry (s : State) (i : Nat) : Nat := s.rd2 .porter PORTER.SDT_BASE_LO + 256 * i
/-! ### Descriptors (R131, R132) -/

/-- A descriptor from its 128 bytes (R131). -/
def descOf (b : List Byte) : StreamDesc :=
  let ctl := leAt b 0 4
  let be := fun o n => ofBe ((b.drop o).take n)
  { valid := ctl.testBit 0, altEn := ctl.testBit 1, anySrc := ctl.testBit 2, pin := ctl.testBit 3, cls := fld ctl 5 4,
    policy := fld ctl 7 6, alg := fld ctl 9 8, ports := fld ctl 15 12, guest := fld ctl 23 16, gen := leAt b 4 2,
    vid := leAt b 6 2 % 4096, dst := be 8 6, src := be 0xE 6, appid := leAt b 0x14 2, altVid := leAt b 0x16 2 % 4096,
    altDst := be 0x18 6, altSrc := be 0x1E 6, altAppid := leAt b 0x24 2, idLen := leAt b 0x26 1, tagLen := leAt b 0x27 1,
    idCrc := leAt b 0x28 4, confRev := leAt b 0x2C 4, rate := leAt b 0x30 4, asduN := leAt b 0x34 1, chanN := leAt b 0x35 1,
    frameLen := leAt b 0x36 2, pubDelay := leAt b 0x38 4, pathDly := leAt b 0x3C 4 % 2 ^ 24, holdMax := leAt b 0x40 1,
    subst := leAt b 0x41 1, pointBase := leAt b 0x44 4 % 2 ^ 25, pointCount := leAt b 0x48 4 % 2 ^ 17,
    deadline := leAt b 0x4C 4, keyA := leAt b 0x50 2, keyB := leAt b 0x52 2, keyIdA := leAt b 0x54 4, keyIdB := leAt b 0x58 4 }

/-- Reserved bytes and bits of a descriptor (R131). -/
def descReserved (b : List Byte) : Bool :=
  let ctl := leAt b 0 4
  fld ctl 11 10 != 0 || fld ctl 31 24 != 0 || fld (leAt b 6 2) 15 12 != 0 || fld (leAt b 0x16 2) 15 12 != 0 ||
    fld (leAt b 0x3C 4) 31 24 != 0 || leAt b 0x42 2 != 0 || fld (leAt b 0x44 4) 31 25 != 0 || fld (leAt b 0x48 4) 31 17 != 0 ||
    fld (leAt b 0x50 2) 14 9 != 0 || fld (leAt b 0x52 2) 14 9 != 0 || ((b.drop 0x5C).take 36).any (fun x => x != 0)

/-- The state half of an entry (R132). -/
def CtxState.toBytes (c : CtxState) : List Byte :=
  leBytes 8 c.rxOk ++ leBytes 4 c.authFail ++ leBytes 4 c.authLate ++ leBytes 4 c.lateDrop ++ leBytes 4 c.keyRefused ++
    leBytes 4 c.formBad ++ leBytes 4 c.portBad ++ leBytes 4 c.stale ++ leBytes 4 c.simDrop ++ leBytes 4 (qWord c.last) ++
    leBytes 6 (qS c.last) ++ leBytes 2 c.lastSmpCnt ++ leBytes 4 c.lastStNum ++ leBytes 4 c.lastSqNum ++
    leBytes 2 (b2n c.simSeen + 2 * b2n c.talExpired) ++ List.replicate 66 0

/-- Write a context's state half back to its entry (R132). -/
def State.writeBack (s : State) (i : Nat) : State :=
  match Tbl.look i s.porter.ctxs with
  | some e => s.writeMem (s.sdtEntry i + 128) e.st.toBytes
  | none => s

/-- Change a context's state. -/
def State.modCtx (s : State) (i : Nat) (f : CtxState → CtxState) : State :=
  match Tbl.look i s.porter.ctxs with
  | some e => s.modPorter (fun p => { p with ctxs := Tbl.put i { e with st := f e.st } p.ctxs })
  | none => s

/-- A saturating 32-bit count. -/
def inc32 (n : Nat) : Nat := satAdd 0xFFFF_FFFF n 1

/-! ### The descriptor cache (R133) -/

def State.cacheSet (s : State) (i : Nat) : List Nat := Tbl.get [] (i % 256) s.porter.cache

/-- The context leaves the cache: its state half is written back. -/
def State.uncache (s : State) (i : Nat) : State :=
  if (s.cacheSet i).contains i then
    (s.writeBack i).modPorter (fun p => { p with cache := Tbl.set [] (i % 256) ((s.cacheSet i).filter (fun k => k != i)) p.cache })
  else s

/-- A pinned context. -/
def State.pinned (s : State) (i : Nat) : Bool := (Tbl.look i s.porter.ctxs).any (fun e => e.d.pin)

/-- The lookup of a context's descriptor: a miss is counted and fetches the entry in place of the least recently used way that
is not pinned; a fetch that meets a DRAM error drops its frame (R133, R439). (DEDUCED, log 55). -/
def State.fetchDesc (s : State) (i : Nat) : Bool × State :=
  let l := s.cacheSet i
  if l.contains i then
    (true, s.modPorter (fun p => { p with cache := Tbl.put (i % 256) (i :: l.filter (fun k => k != i)) p.cache }))
  else
    let s := s.bump .porter PORTER.DESC_MISSES
    if s.poisoned (s.sdtEntry i) 256 then
      (false, (s.ueRange (s.sdtEntry i) 256 2).bump .porter PORTER.MISS_DROP)
    else
      let s := if 4 ≤ l.length then
          match (l.filter (fun k => !s.pinned k)).getLast? with | some k => s.uncache k | none => s
        else s
      (true, s.modPorter (fun p => { p with cache := Tbl.put (i % 256) (i :: Tbl.get [] (i % 256) p.cache) p.cache }))

/-- SDT_STATE_WRITEBACK (R132): every 10 ms a cached context's state half goes to DRAM. -/
def execSdtStateWriteback (i : Nat) (s : State) : Result :=
  if (s.cacheSet i).contains i then guardDram (s.sdtEntry i) 256 (.next (s.writeBack i)) else .next s

/-! ### The match table (R138 to R140) -/

/-- A match key (R138). -/
def matchKey (dst src id vid cls : Nat) : List Byte :=
  beBytes 6 dst ++ beBytes 6 src ++ beBytes 2 id ++ leBytes 2 (vid % 4096 + 4096 * cls)

/-- The keys of a descriptor: its primary key and, with ALT_EN, its second (R131, R138). -/
def StreamDesc.keys (d : StreamDesc) : List (List Byte) :=
  matchKey d.dst (if d.anySrc then 0 else d.src) d.appid d.vid d.cls ::
    (if d.altEn then [matchKey d.altDst (if d.anySrc then 0 else d.altSrc) d.altAppid d.altVid d.cls] else [])

/-- The bucket of a key in way `w` (R139): slots 8192 w + 4 × bucket on. -/
def State.bucketOf (s : State) (w : Nat) (key : List Byte) : Nat :=
  let seed := (s.rd .porter (if w = 0 then PORTER.HASH_SEED0 else PORTER.HASH_SEED1)).toNat
  8192 * w + 4 * (crcEnd (crcOf 1) (crcRun (crcOf 1) (revBits 32 seed) key) % 2048)

/-- The entry with a key: in its two buckets or in the stash (R139). -/
def State.mtLookup (s : State) (key : List Byte) : Option (Nat × MtEnt) :=
  let a := s.bucketOf 0 key
  let b := s.bucketOf 1 key
  s.porter.mt.find? (fun e => e.2.key == key && (e.1 / 4 == a / 4 || e.1 / 4 == b / 4 || decide (stash ≤ e.1)))

/-- The lowest free slot among `n` from a slot on. -/
def mtFree (t : Tbl MtEnt) (o n : Nat) : Option Nat := ((List.range n).map (fun k => o + k)).find? (fun k => (Tbl.look k t).isNone)

/-- The other bucket of the entry at a slot. -/
def State.otherBucket (s : State) (t : Tbl MtEnt) (slot : Nat) : Nat :=
  match Tbl.look slot t with
  | some e => s.bucketOf (if slot < 8192 then 1 else 0) e.key
  | none => 0

/-- Breadth-first search for a path that ends in a free slot, with at most `n` displacements; a path lists its slots from its
far end (R140). (DEDUCED, log 51). -/
def State.mtPath (s : State) (t : Tbl MtEnt) : Nat → List (List Nat) → Option (List Nat)
  | 0, _ => none
  | n + 1, paths =>
    match paths.findSome? (fun p => (mtFree t (s.otherBucket t (p.headD 0)) 4).map (fun f => f :: p)) with
    | some p => some p
    | none => State.mtPath s t n (paths.flatMap (fun p =>
        ((List.range 4).map (fun k => s.otherBucket t (p.headD 0) + k)).filterMap (fun k => if p.contains k then none else some (k :: p))))

/-- Carry out a path from its far end: each entry is written to its new slot before its old one is cleared (R140). -/
def mtShift (t : Tbl MtEnt) : List Nat → Tbl MtEnt
  | into :: frm :: r =>
    match Tbl.look frm t with
    | some e => mtShift (Tbl.del frm (Tbl.put into e t)) (frm :: r)
    | none => mtShift t (frm :: r)
  | _ => t

/-- Insert an entry (R140); none when it cannot be placed. (DEDUCED, log 51). -/
def State.mtInsert (s : State) (t : Tbl MtEnt) (e : MtEnt) : Option (Tbl MtEnt) :=
  let a := s.bucketOf 0 e.key
  let b := s.bucketOf 1 e.key
  match mtFree t a 4, mtFree t b 4 with
  | some k, _ => some (Tbl.put k e t)
  | none, some k => some (Tbl.put k e t)
  | none, none =>
    match s.mtPath t 3 (((List.range 4).map (fun k => [a + k])) ++ ((List.range 4).map (fun k => [b + k]))) with
    | some p => some (Tbl.put (p.getLastD 0) e (mtShift t p))
    | none => (mtFree t stash 32).map (fun k => Tbl.put k e t)

/-- Move into a freed slot a stash entry whose bucket it is (R140). -/
def State.mtRefill (s : State) (t : Tbl MtEnt) (slot : Nat) : Tbl MtEnt :=
  if stash ≤ slot then t
  else match t.find? (fun e => decide (stash ≤ e.1) && s.bucketOf (slot / 8192) e.2.key / 4 == slot / 4) with
  | some e => Tbl.put slot e.2 (Tbl.del e.1 t)
  | none => t

/-- Remove a key. -/
def State.mtRemove (s : State) (t : Tbl MtEnt) (key : List Byte) : Tbl MtEnt :=
  match t.find? (fun e => e.2.key == key) with
  | some e => s.mtRefill (Tbl.del e.1 t) e.1
  | none => t

/-- The manager rules in the table (R142). -/
def mtRules (t : Tbl MtEnt) : Nat := (t.filter (fun e => e.2.ctx.isNone)).length

/-! ### Manager queues (R148, R149) -/

/-- Entry size of a queue, and its ring's entries. -/
def State.qEntry (s : State) (q : Nat) : Nat := if bit (s.rd .porter (PORTER.Q_CFG q)) 8 then 16384 else 2048
def State.qRing (s : State) (q : Nat) : Nat := 2 ^ s.rdf .porter (PORTER.Q_CFG q) 3 0
def State.qOn (s : State) (q : Nat) : Bool := bit (s.rd .porter (PORTER.Q_CFG q)) 16

/-- A queue's ring lies in DRAM. -/
def State.ringInDram (s : State) (q : Nat) : Bool :=
  decide (s.rd2 .porter (PORTER.Q_BASE_LO q) + s.qRing q * s.qEntry q ≤ dramSize)

/-- Put a frame into receive queue `q` (R148, R149). (DEDUCED, log 48, 49). -/
def State.rxqPut (s : State) (q why index : Nat) (fr : InFrame) : State :=
  let pi := (s.rd .porter (PORTER.Q_PI q)).toNat
  let n := s.qRing q
  if ¬ s.qOn q ∨ (pi + 1) % n = (s.rd .porter (PORTER.Q_CI q)).toNat % n then
    (s.bump .porter (PORTER.Q_DROP q)).raise .porter 19
  else
    let room := s.qEntry q - 32
    let bytes := beBytes 6 fr.f.dst ++ beBytes 6 fr.f.src ++ fr.f.body
    let seq := Tbl.get 0 q s.porter.qseq + 1
    let flags := b2n (decide (room < bytes.length)) + 2 * b2n fr.tagged +
      4 * b2n (decide (s.pairMode fr.port ≠ 0) && fr.red.isNone) + 16 * why
    let head := leBytes 2 (min room bytes.length) ++ leBytes 1 fr.port ++ leBytes 1 flags ++
      leBytes 2 (fr.vid % 4096 + 4096 * fr.pcp) ++ leBytes 2 index ++ leBytes 4 (qWord fr.stamp) ++ leBytes 6 (qS fr.stamp) ++
      leBytes 1 fr.gen ++ [0] ++ leBytes 4 seq ++ List.replicate 8 0
    let s := s.writeMem (s.rd2 .porter (PORTER.Q_BASE_LO q) + pi % n * s.qEntry q) (head ++ bytes.take room)
    let s := s.modPorter (fun p => { p with qseq := Tbl.put q (seq % 2 ^ 32) p.qseq })
    (s.wrn .porter (PORTER.Q_PI q) ((pi + 1) % n)).raise .porter 18

/-! ### Delivery (R146, R147) -/

/-- Read one of a frame's allData members as a point (R146); a member of another type leaves its point unchanged. -/
def dataWord : DataVal → Option Nat
  | .bool b => some (b2n b)
  | .int v => some (unsigned 64 v)
  | .uns v => some (v % 2 ^ 64)
  | .float32 w => some (fConv fmt32 fmt64 (w % 2 ^ 32)).1
  | .float64 w => some (w % 2 ^ 64)
  | .utc w => some (w % 2 ^ 64)
  | .bits l => some (((l.take 64).zip (List.range 64)).foldl (fun a e => a + b2n e.1 * 2 ^ e.2) 0)
  | .other => none

/-- A frame is newer than the last delivered one (R146). -/
def goNewer (c : CtxState) (stNum sqNum : Nat) : Bool :=
  c.rxOk == 0 ||
    (let d := (stNum + 2 ^ 32 - c.lastStNum) % 2 ^ 32
     decide (1 ≤ d ∧ d ≤ 2 ^ 31) || (d == 0 && decide (c.lastSqNum < sqNum)))

/-- Count a delivery. -/
def CtxState.delivered (c : CtxState) (fr : InFrame) : CtxState :=
  { c with rxOk := satAdd (2 ^ 64 - 1) c.rxOk 1, last := fr.stamp }

/-- Deliver a frame with its mark: 0 none, 1 verified, 2 unverified, 3 unverified-late (R146, R183, R185). -/
def State.deliver (s : State) (i : Nat) (d : StreamDesc) (fr : InFrame) (mark : Nat) : State :=
  match fr.f.app, Tbl.look i s.porter.ctxs with
  | .sv _ _ asdus _, some _ =>
    let s := s.modCtx i (fun c => { c.delivered fr with
      lastSmpCnt := match asdus.getLast? with | some a => a.smpCnt | none => c.lastSmpCnt })
    asdus.foldl (fun t a => t.laneIn ⟨i, d, fr.stamp, fr.gen, mark, a⟩) s
  | .goose _ _ st sq tal data _, some e =>
    if ¬ goNewer e.st st sq then s.modCtx i (fun c => { c with stale := inc32 c.stale })
    else
      let s := s.modCtx i (fun c => { c.delivered fr with lastStNum := st, lastSqNum := sq, talExpired := false, talEnd := fr.inAt + tal * 1000000 * nsU })
      let rx := match Tbl.look i s.porter.ctxs with | some x => x.st.rxOk | none => 0
      let span := ((data.take d.chanN).zip (List.range d.chanN)).filterMap (fun m =>
        (dataWord m.1).map (fun v => (d.pointBase + m.2, (BitVec.ofNat 64 v : DWord))))
      s.ingress (span ++ [(s.statusPoint i, qPoint rx (qualityWord 0 mark 0 false false (s.simSeen i)))])
  | _, _ => s

/-- TAL_EXPIRED (R146, R185): no newer frame within timeAllowedToLive: the status point alone is written. Before its end nothing
happens. -/
def execTalExpired (i : Nat) (s : State) : Result :=
  match Tbl.look i s.porter.ctxs with
  | some e =>
    if e.d.cls = 1 ∧ e.st.rxOk ≠ 0 ∧ e.st.talEnd ≤ s.time.elapsed then
      let v := (s.point (s.statusPoint i)).toNat
      let q := v / 2 ^ 32
      let w := qualityWord 0 (fld q 14 13) 4 false false (q.testBit 22)
      done s ((s.modCtx i (fun c => { c with talExpired := true })).ingress [(s.statusPoint i, qPoint v w)])
    else .next s
  | none => .next s

/-! ### Verification (R152 to R160) -/

/-- Whether R122's mark of a frame's number stands in its pair's delivery window, cleared (R159). -/
def State.redunUnmark (s : State) (fr : InFrame) : State :=
  match fr.red, Tbl.look fr.f.src (s.ddTab (fr.port / 2)) with
  | some r, some e =>
    match e.del with
    | some (top, w) =>
      let back := (top + 65536 - r.seq) % 65536
      if back < 64 then s.ddPut (fr.port / 2) fr.f.src { e with del := some (top, w &&& ~~~((1 : BitVec 64) <<< back)) } else s
    | none => s
  | _, _ => s

/-- Set the mark again. -/
def State.redunMark (s : State) (fr : InFrame) : State :=
  match fr.red, Tbl.look fr.f.src (s.ddTab (fr.port / 2)) with
  | some r, some e =>
    match e.del with
    | some (top, w) =>
      let back := (top + 65536 - r.seq) % 65536
      if back < 64 then s.ddPut (fr.port / 2) fr.f.src { e with del := some (top, w ||| ((1 : BitVec 64) <<< back)) } else s
    | none => s
  | _, _ => s

/-- The extension of a frame. -/
def RxFrame.ext (f : RxFrame) : Option AuthExt :=
  match f.app with
  | .sv _ _ _ e => e
  | .goose _ _ _ _ _ _ e => e
  | .none => none

/-- The slot that a key identifier selects (R152). -/
def StreamDesc.slotFor (d : StreamDesc) (id : Nat) : Option Nat :=
  if d.keyA.testBit 15 ∧ id = d.keyIdA then some (d.keyA % 512)
  else if d.keyB.testBit 15 ∧ id = d.keyIdB then some (d.keyB % 512) else none

/-- What a verification came to: a pass, a failure, a refusal, no result by the deadline. -/
inductive Verdict where
  | pass | fail | refused | late
deriving DecidableEq, Repr

/-- The mark a frame is delivered with, or none where it is dropped (R157). -/
def markOf (policy : Nat) (v : Verdict) : Option Nat :=
  match v with
  | .pass => some 1
  | .fail | .refused => if policy = 2 then some 2 else none
  | .late => match policy with | 2 => some 2 | 3 => some 3 | _ => none

/-- Count an outcome in the context's state (R157). -/
def CtxState.count (c : CtxState) (policy : Nat) (v : Verdict) : CtxState :=
  match v with
  | .pass => c
  | .fail => { c with authFail := inc32 c.authFail }
  | .refused => { c with keyRefused := inc32 c.keyRefused }
  | .late => if policy = 1 then { c with lateDrop := inc32 c.lateDrop } else { c with authLate := inc32 c.authLate }


/-- PEAK of the HMAC pool's queue after a job has joined it (R167). -/
def State.hmacPeak (s : State) : State :=
  if s.rdf .crypto CRYPTO.HMAC_Q 24 16 < s.hmacDepth then s.wrf .crypto CRYPTO.HMAC_Q 24 16 s.hmacDepth else s

/-- Outcome of a frame that has no job, or whose job is to be resolved: counted, delivered with its mark or dropped. `true`
when it was delivered. -/
def State.outcome (s : State) (i : Nat) (d : StreamDesc) (fr : InFrame) (v : Verdict) : Bool × State :=
  let s := s.modCtx i (fun c => c.count d.policy v)
  match markOf d.policy v with
  | some m => (true, s.deliver i d fr m)
  | none => (false, s.redunUnmark fr)

/-- Start the verification of a frame that came in at `inAt` (R152 to R156): the outcome at once where there is one, with `true` when delivered; none
when a job waits for it. (DEDUCED, log 54). -/
def State.authenticate (s : State) (i : Nat) (d : StreamDesc) (fr : InFrame) (inAt : Nat) : Option Bool × State :=
  let now := fun (v : Verdict) => let (b, t) := s.outcome i d fr v; (some b, t)
  match fr.f.ext with
  | none => now .fail
  | some x =>
    match d.slotFor x.keyId with
    | none => now .refused
    | some slot =>
      if x.tagLen ≠ d.tagLen then now .fail
      else
        let job : VJob := ⟨s.porter.jobNo, i, d, fr, d.alg == 2, slot, inAt + 2000 + 4 * d.deadline, none, false, false,
          false, false⟩
        let put := fun (t : State) (j : VJob) => t.modPorter (fun p => { p with jobs := p.jobs ++ [j], jobNo := p.jobNo + 1 })
        if d.alg = 2 then
          if 256 ≤ s.hmacDepth then
            let (b, t) := ((s.bump .crypto CRYPTO.QFULL).raise .crypto 16).outcome i d fr .late
            (some b, t)
          else
            (none, (put s job).hmacPeak)
        else
          match s.gmacFor fr.port with
          | none => (none, put s job)
          | some e =>
            match s.keyUse slot d.guest d.alg false with
            | some _ => let (b, t) := s.useRefused.outcome i d fr .refused; (some b, t)
            | none => (none, put s { job with engine := some e })

/-- The copies held in a pipeline. -/
def State.setHeld (s : State) (p : Nat) (l : List HeldCopy) : State :=
  s.modPorter (fun x => { x with held := Tbl.set [] p l x.held })

/-! ### The per-frame decision (R143 to R147, R151) -/

/-- Porter's classes (R143): 0 SV, 1 GOOSE, 2 raw, 3 PTP, 4 supervision, 5 heartbeat. -/
def State.classify (s : State) (fr : InFrame) : Nat :=
  match etherType fr.f.body with
  | 0x88BA => 0
  | 0x88B8 => 1
  | 0x88FB => 4
  | 0x88B5 => if fr.f.src = s.macBase + (if s.unitB then 0xFE else 0xFF) then 5 else 2
  | _ => if (s.ptpOf fr.port fr.f.body).isSome then 3 else 2

/-- The heartbeat in a frame's octets (R263). -/
def hbOf (b : List Byte) : HbRx :=
  let p := b.drop 2
  let be := fun o n => ofBe ((p.drop o).take n)
  { format := p.getD 0 0 == 0x58 && p.getD 1 0 == 1, unitB := be 2 1 == 1, time := be 12 6 * 1000000000 + be 18 4, mode := be 3 1,
    flags := be 4 1, pairId := be 6 6, sync := 0, digest := be 30 4, phaseF := 0, slowTicks := 0 }

/-- APPID of an SV or GOOSE frame, Ethertype of a raw one. -/
def idOf (c : Nat) (b : List Byte) : Nat := if c = 2 then etherType b else ofBe ((b.drop 2).take 2)
/-- The Simulation bit of Reserved 1 (R147). -/
def simBit (b : List Byte) : Bool := (b.getD 6 0).toNat.testBit 7

/-- form_ok (R145): whether a frame passes, and whether confRev alone stopped it. -/
def formOk (d : StreamDesc) (f : RxFrame) : Bool × Bool :=
  let idOk := fun (id : List Byte) => id.length == d.idLen && crc32c id == d.idCrc
  let base : Bool × Nat := match f.app with
    | .sv id rev asdus _ =>
      (decide (d.cls = 0) && idOk id && asdus.length == d.asduN && asdus.all (fun a => a.chans.length == d.chanN &&
        decide (a.smpCnt < d.modulus)), rev)
    | .goose id rev st sq _ data _ =>
      (decide (d.cls = 1) && idOk id && decide (d.chanN ≤ data.length) && st != 0 && sq != 0, rev)
    | .none => (false, 0)
  let len := decide (f.len ≤ d.frameLen)
  (base.1 && len && base.2 == d.confRev, base.1 && len && base.2 != d.confRev)

/-- Whether discovery rule `n`, as applied, fits a frame (R165). -/
def State.discFits (s : State) (n c : Nat) (fr : InFrame) : Bool :=
  match Tbl.look n s.porter.rules with
  | some [w0, w1, w2, w3] =>
    let dst := w1.toNat + 2 ^ 32 * bits w2 15 0
    let drop := 48 - bits w2 21 16
    let id := idOf c fr.f.body
    bit w0 0 && (bits w0 3 1).testBit c && (bit w0 4 || bits w0 27 16 == fr.vid) && dst / 2 ^ drop == fr.f.dst / 2 ^ drop &&
      decide (bits w3 15 0 ≤ id) && decide (id ≤ bits w3 31 16)
  | _ => false

/-- A frame that misses the match table (R151); the bucket of a new source starts full. (DESIGN CHOICE, log 143). -/
def State.discover (s : State) (c : Nat) (fr : InFrame) : State :=
  match (List.range 32).find? (fun n => s.discFits n c fr) with
  | none =>
    if bit (s.rd .porter PORTER.PORTER_CTL) 1 then s.rxqPut 1 4 0 fr else s.bump .porter PORTER.MISS_DROP
  | some n =>
    let cap := s.rdf .porter PORTER.DISC_CTL 23 16 * tokenU
    let rate := s.rdf .porter PORTER.DISC_CTL 15 0
    let src := fr.f.src
    let known := Tbl.look src s.porter.disc
    if known.isNone ∧ 256 ≤ s.porter.disc.length then s.bump .porter PORTER.DISC_FULL
    else
      let level := match known with
        | some e => min cap (e.level + (s.time.elapsed - e.at_) * rate)
        | none => cap
      let keep := fun (t : State) (l : Nat) => t.modPorter (fun p => { p with disc := Tbl.put src ⟨l, s.time.elapsed⟩ p.disc })
      if level < tokenU then ((keep s level).bump .porter PORTER.DISC_LIMITED).raise .porter 20
      else (keep s (level - tokenU)).rxqPut 2 3 n fr

/-- A manager rule acts on a frame (R142). -/
def State.ruleAct (s : State) (action : Nat) (fr : InFrame) : State :=
  match action with
  | 1 => s.rxqPut 1 0 0 fr
  | 2 => s.rxqPut 0 0 0 fr
  | _ => s

/-- A duplicate that REDUN discards is held while the first copy's verification is pending (R159). -/
def State.holdOrDrop (s : State) (fr : InFrame) : State :=
  match fr.red with
  | none => s
  | some r =>
    match s.porter.jobs.find? (fun j => !j.late && j.fr.f.src == fr.f.src && j.fr.port / 2 == fr.port / 2 &&
        j.fr.red.any (fun (q : RedTag) => q.seq == r.seq)) with
    | none => s
    | some j =>
      if 64 ≤ (s.heldAt fr.port).length then (s.bump .porter (win fr.port PORTERW.PEND_FULL)).raiseCell .porter fr.port 0
      else s.setHeld fr.port (s.heldAt fr.port ++ [⟨j.id, fr, s.now⟩])

/-- A frame of a subscribed context (R144 to R147): `some false` where verification dropped it, none while a job waits for it. -/
def State.subscribed (s : State) (i : Nat) (fr : InFrame) (inAt : Nat) : Option Bool × State :=
  match Tbl.look i s.porter.ctxs with
  | none => (some true, s)
  | some e =>
    let d := e.d
    if ¬ d.ports.testBit fr.port then (some true, s.modCtx i (fun x => { x with portBad := inc32 x.portBad }))
    else
      let (ok, rev) := formOk d fr.f
      if ¬ ok then
        let s := s.modCtx i (fun x => { x with formBad := inc32 x.formBad })
        (some true, if rev then s.raise .porter 23 else s)
      else
        let sim := simBit fr.f.body
        let test := decide (s.role.mode = .test)
        if (sim && !test) || (test && !sim && e.st.simSeen) then
          (some true, s.modCtx i (fun x => { x with simDrop := inc32 x.simDrop }))
        else
          let s := if sim then s.modCtx i (fun x => { x with simSeen := true }) else s
          if d.policy = 0 then (some true, s.deliver i d fr 0) else s.authenticate i d fr inAt

/-- From the lookup on (R138, R142 to R147, R151): a frame of a class, its frame-in at `inAt`. The outcome is `some false` where
verification dropped it, none while a job waits for it. -/
def State.matched (s : State) (c : Nat) (fr : InFrame) (inAt : Nat) : Option Bool × State :=
  let key := fun src => matchKey fr.f.dst src (idOf c fr.f.body) fr.vid c
  match (match s.mtLookup (key fr.f.src) with | some e => some e | none => s.mtLookup (key 0)) with
  | none => (some true, s.discover c fr)
  | some (_, e) =>
    match e.ctx with
    | none => (some true, s.ruleAct e.action fr)
    | some i =>
      if s.role.mode = .safe then (some true, s.bump .porter PORTER.MISS_DROP)
      else match s.fetchDesc i with
      | (true, t) => t.subscribed i fr inAt
      | (false, t) => (some true, t)

/-- Porter's decision on a frame of PORT0 to PORT3 (R144). -/
def State.porterRx (s : State) (fr : InFrame) : State :=
  let c := s.classify fr
  let (dd, s) := s.redunRx fr.port fr (decide (3 ≤ c))
  if dd = .removed ∨ s.quarantined .porter fr.port then s
  else if ¬ bit (s.rd .porter PORTER.PORTER_CTL) 0 then s.bump .porter PORTER.MISS_DROP
  else
    let s := s.bump .porter (win fr.port PORTERW.PIPE_FRAMES)
    match c with
    | 3 =>
      match s.ptpOf fr.port fr.f.body with
      | some p =>
        if p.event fr.f.body ∧ p.domain fr.f.body ≠ s.rdf .timeu TIMEU.TIME_CTL 15 8 then
          s.bump .timeu (tsWin fr.port TIMEUW.DOMAIN_DROP)
        else s.rxqPut 0 1 0 fr
      | none => s.rxqPut 0 1 0 fr
    | 4 => s.rxqPut 1 2 0 fr
    | 5 => s.netHeartbeat (hbOf fr.f.body)
    | _ =>
      if dd = .dup then s.holdOrDrop fr else (s.matched c fr s.now).2

/-! ### The ends of verifications (R153 to R159) -/

/-- The held copies of a job, by pipeline. -/
def State.heldOf (s : State) (job : Nat) : List HeldCopy :=
  (List.range 4).flatMap (fun p => (s.heldAt p).filter (fun h => h.job == job))

/-- Drop the held copies of a job. -/
def State.dropHeld (s : State) (job : Nat) : State :=
  (List.range 4).foldl (fun t p => t.setHeld p ((t.heldAt p).filter (fun h => h.job != job))) s

/-- Let the held copies of a job wait for another. (DEDUCED, log 113). -/
def State.moveHeld (s : State) (job into : Nat) : State :=
  (List.range 4).foldl (fun t p => t.setHeld p ((t.heldAt p).map (fun h => if h.job == job then { h with job := into } else h))) s

/-- What becomes of the copies held for a frame (R159): dropped once it was delivered; handled in turn, each as a new frame from
its lookup on, once it was dropped. `n` bounds them. (DEDUCED, log 113). -/
def State.release (s : State) (job : Nat) (delivered : Bool) : Nat → State
  | 0 => s.dropHeld job
  | n + 1 =>
    if delivered then s.dropHeld job
    else match s.heldOf job with
    | [] => s
    | h :: _ =>
      let s := s.setHeld h.fr.port ((s.heldAt h.fr.port).erase h)
      let s := s.redunMark h.fr
      let next := s.porter.jobNo
      match s.matched (s.classify h.fr) h.fr h.arrived with
      | (none, t) => t.moveHeld job next
      | (some b, t) => State.release t job b n

def State.delJob (s : State) (id : Nat) : State := s.modPorter (fun p => { p with jobs := p.jobs.filter (fun j => j.id != id) })

/-- A job's frame takes an outcome (R157); a frame of a removed context is discarded and counted (R136), and in SAFE every
subscribed frame (R163, R191). -/
def State.resolve (s : State) (j : VJob) (v : Verdict) : State :=
  if j.removed then (s.bump .porter PORTER.REMOVED_INFLIGHT).dropHeld j.id
  else if s.role.mode = .safe then (s.bump .porter PORTER.MISS_DROP).dropHeld j.id
  else
    let (b, t) := s.outcome j.ctx j.d j.fr v
    t.release j.id b 64

abbrev E_CLRKEY : Nat := 0x68

/-- The tag that a clear token carries against the one its slot's key gives (R377). -/
def tagPasses (key token : List Byte) : Bool := (hmac key (token.take 32)).take 16 == (token.drop 32).take 16

/-- The tag job of a clear enters an engine (R345, R349, R378): it takes its key now; a refused key use ends the check with its
code. -/
def State.tagStart (s : State) (c : ClrSt) (w : Nat) : State :=
  let put := fun (t : State) (c : ClrSt) => { t with ledger := { t.ledger with clr := some c } }
  let slot := leAt c.token 6 2
  match s.keyUse slot 0 2 true, s.kslot slot with
  | none, some k => put s { c with engine := some w, pass := tagPasses k.key c.token }
  | some r, _ => put s.useRefused { c with code := if r = E_KEYUSE then E_CLRKEY else r }
  | none, none => put s.useRefused { c with code := E_NOKEY }

/-- The frame's job that an engine takes next: the earliest deadline, then the earlier arrival (R155). -/
def State.hmacNext (s : State) : Option VJob :=
  match s.hmacQueue with
  | [] => none
  | h :: t => some (t.foldl (fun a b => if b.deadline < a.deadline then b else a) h)

/-- Whether the tag job of a clear goes before a frame's job. -/
def ClrSt.before (c : ClrSt) (j : Option VJob) : Bool :=
  match j with
  | none => true
  | some j => decide (c.deadline < j.deadline) || (c.deadline == j.deadline && decide (c.id < j.id))

/-- HMAC_JOB_START (R153, R155): a free engine takes the queued job with the earliest deadline; a refused key use is a refusal. -/
def execHmacJobStart (e : Fin 8) (s : State) : Result :=
  let w := e.val + 4
  let busy := s.porter.jobs.any (fun j => j.engine == some w) || s.ledger.clr.any (fun c => c.engine == some w)
  if busy ∨ s.quarantined .crypto w ∨ ¬ s.working .crypto then .next s
  else
    let frame : State := match s.hmacNext with
      | none => s
      | some j =>
        match s.keyUse j.slot j.d.guest j.d.alg false with
        | some _ => (s.useRefused.delJob j.id).resolve j .refused
        | none => s.modPorter (fun p => { p with
            jobs := p.jobs.map (fun x => if x.id = j.id then { x with engine := some w } else x) })
    done s (match s.ledger.clr with
      | some c => if s.tagQueued ∧ c.before s.hmacNext then s.tagStart c w else frame
      | none => frame)

/-- VERIFY_DONE (R155 to R158): a started job ends with pass or fail. (DEDUCED, log 54). -/
def execVerifyDone (id : Nat) (pass : Bool) (s : State) : Result :=
  match s.porter.jobs.find? (fun j => j.id == id) with
  | none => .next s
  | some j =>
    match j.engine with
    | none => .next s
    | some e =>
      if j.lost then .next s
      else
        let n := (j.fr.f.ext.map (fun (x : AuthExt) => x.octets)).getD 0
        let t := (s.delJob id).engineJob e (if j.hmac then hmacNs n else gmacNs n)
        let t := t.bump .crypto (match j.hmac, pass with
          | true, true => CRYPTO.HMAC_PASS | true, false => CRYPTO.HMAC_FAIL
          | false, true => CRYPTO.GMAC_PASS | false, false => CRYPTO.GMAC_FAIL)
        let t := if j.revoked then (t.bump .crypto CRYPTO.PARENT_REVOKED).raise .crypto 17 else t
        if j.late then
          if ¬ pass ∧ j.d.policy ≠ 1 ∧ ¬ j.removed then done s ((t.bump .porter PORTER.AUTH_FAIL_AFTER).raise .porter 21) else done s t
        else done s (t.resolve j (if pass then .pass else .fail))

/-- VERIFY_DEADLINE (R155 to R157): a frame's deadline passes without a result: a job that has not started is withdrawn, one
that has started runs on. Before the deadline nothing happens. -/
def execVerifyDeadline (id : Nat) (s : State) : Result :=
  match s.porter.jobs.find? (fun j => j.id == id) with
  | none => .next s
  | some j =>
    if j.late ∨ s.now < j.deadline then .next s
    else
      let started := j.engine.isSome && !j.lost
      let t := if started then s.modPorter (fun p => { p with
            jobs := p.jobs.map (fun x => if x.id = id then { x with late := true } else x) })
        else s.delJob id
      let t := if ¬ started ∧ j.hmac ∧ ¬ j.lost then t.bump .crypto CRYPTO.WITHDRAWN else t
      done s (t.resolve j .late)

/-- A CRYPTO engine is quarantined while it holds jobs: they end without a result (R155); a clear's tag job then counts as withdrawn.
(DEDUCED, log 52, 92). -/
def State.engineLost (s : State) (w : Nat) : State :=
  ({ s with ledger := { s.ledger with clr := s.ledger.clr.map (fun c =>
      if c.engine = some w then { c with engine := none, code := E_BUSY } else c) } } : State).modPorter (fun p => { p with
    jobs := (p.jobs.filter (fun j => !(j.engine == some w && j.late))).map (fun j =>
      if j.engine = some w then { j with lost := true } else j) })

/-! ### Reception (R106, R129) -/

/-- FRAME_RX (R106, R129, R144): a whole frame received at a port, 4 for MGMT, its start-of-frame delimiter at phase `ph` of CLK_TIME.
(DEDUCED, log 49, 123). -/
def execFrameRx (n : Fin 5) (ph : Fin 10) (f : RxFrame) (s : State) : Result :=
  match s.portRx n.val ph.val f with
  | (none, t) => done s t
  | (some fr, t) =>
    let t := if n.val = 4 then t.rxqPut 1 4 0 fr else t.porterRx fr
    match (List.range 3).find? (fun q =>
        decide (t.rd .porter (PORTER.Q_PI q) ≠ s.rd .porter (PORTER.Q_PI q)) && !s.ringInDram q) with
    | some q => .fault (.dramOutsideSpace (s.rd2 .porter (PORTER.Q_BASE_LO q)))
    | none => done s t

/-- DISC_SOURCE_AGE (R151): a source idle for 10 s is freed; before that nothing happens. -/
def execDiscSourceAge (src : Nat) (s : State) : Result :=
  if (Tbl.look src s.porter.disc).any (fun e => decide (e.at_ + 10 * secU ≤ s.time.elapsed)) then
    .next (s.modPorter (fun p => { p with disc := Tbl.del src p.disc }))
  else .next s

/-! ### Descriptors online (R130, R134 to R137) -/

/-- SDT_BASE (R130, R164). -/
def sdtBaseRule : Rule where
  legal := fun _ _ v => if v % 4096 ≠ 0 then [(0, E_ALIGN)] else []
  check := fun s _ _ => if s.porter.ctxs = [] then none else some E_CONFLICT
  apply := fun s _ _ => (s.modPorter (fun p => { p with zeroing := true, sdtSet := true })).wrf .porter PORTER.DESC_RESULT 31 31 1

/-- SDT_BASE_WRITE (R130): a write of SDT_BASE, low word then high word. -/
def execSdtBaseWrite (src : Src) (a : BitVec 64) (s : State) : Result :=
  let t := s.writeReg {} src .porter PORTER.SDT_BASE_LO (BitVec.ofNat 32 a.toNat)
  done s (t.writeReg sdtBaseRule src .porter PORTER.SDT_BASE_HI (BitVec.ofNat 32 (a.toNat / 2 ^ 32)))

/-- SDT_ZERO_DONE (R130): the whole table at its new place is zero. -/
def execSdtZeroDone (s : State) : Result :=
  if ¬ s.porter.zeroing then .next s
  else guardDram (s.sdtEntry 0) 0x10_0000 <|
    let t := (s.zeroMem (s.sdtEntry 0) 0x10_0000).modPorter (fun p => { p with zeroing := false })
    .next (if s.porter.descJob.isNone then t.wrf .porter PORTER.DESC_RESULT 31 31 0 else t)

/-- DESC_DOORBELL (R134, R164). -/
def descDoorbellRule : Rule where
  busy := fun s _ _ => s.porter.zeroing || s.porter.descJob.isSome
  check := fun s _ _ => if s.porter.sdtSet then none else some E_CONFLICT
  apply := fun s _ v =>
    (s.modPorter (fun p => { p with descJob := some (fld v 11 0) })).wrn .porter PORTER.DESC_RESULT (2 ^ 31 + fld v 11 0 * 65536)

/-- DESC_DOORBELL (R134): the check of a staged descriptor starts. -/
def execDescDoorbell (src : Src) (w : Word) (s : State) : Result :=
  done s (s.writeReg descDoorbellRule src .porter PORTER.DESC_DOORBELL w)

/-- The other contexts. -/
def State.others (s : State) (i : Nat) : Tbl CtxEnt := s.porter.ctxs.filter (fun e => e.1 != i)

/-- The match table with a context's keys exchanged (R136, R140): new keys enter before old ones leave; none when one cannot be
placed. (DEDUCED, log 50). -/
def State.exchange (s : State) (i : Nat) (old new : List (List Byte)) : Option (Tbl MtEnt) :=
  let add := new.filter (fun k => !old.contains k)
  let del := old.filter (fun k => !new.contains k)
  let t := add.foldl (fun a k => a.bind (fun t => s.mtInsert t ⟨k, some i, 0⟩)) (some s.porter.mt)
  t.map (fun t => del.foldl (fun t k => s.mtRemove t k) t)

/-- Step 7 of R135 on one slot. -/
def State.keyThere (s : State) (k : Nat) : Option Nat :=
  if ¬ k.testBit 15 then none
  else match s.kslot (k % 512) with
  | none => some E_NOKEY
  | some x => if x.revoked then some E_REVOKED else none

/-- POINT_COUNT is CHAN_N × DEPTH with DEPTH a power of two from 2 to 65,536 (R171). -/
def depthOk (d : StreamDesc) : Bool :=
  ((List.range 17).drop 1).any (fun k => d.pointCount == d.chanN * 2 ^ k)

/-- The checks of R135 in order on staged bytes for context `i`; `gen` is the entry's GEN. -/
def State.descCheck (s : State) (i gen : Nat) (b : List Byte) : Option Nat :=
  let d := descOf b
  let sv := decide (d.cls = 0)
  if s.role.mode = .safe then some E_MODE
  else if descReserved b then some E_RESERVED
  else if ¬ d.valid then (if d.gen = (gen + 1) % 65536 then none else some E_SEQ)
  else if 1 < d.cls ∨ d.alg = 3 ∨ d.idLen = 0 ∨ 129 < d.idLen ∨ d.asduN = 0 ∨ 8 < d.asduN ∨ d.chanN = 0 ∨ 64 < d.chanN ∨
      d.frameLen < 64 ∨ 1536 < d.frameLen ∨ 1000000 < d.pubDelay ∨ 3 < d.subst ∨ d.pointCount = 0 ∨ 65536 < d.pointCount ∨
      d.deadline < 300 ∨ 1000000 < d.deadline ∨ (sv ∧ ¬ depthOk d) ∨ (¬ sv ∧ d.pointCount ≠ d.chanN) ∨ d.ports = 0 ∨
      pointCount < d.pointBase + d.pointCount then some E_RANGE
  else if (if sv then d.rate < 1000 ∨ 96000 < d.rate ∨ 288000 % d.rate ≠ 0 ∨ d.rate % d.asduN ≠ 0
      else d.rate = 0 ∨ 100000 < d.rate ∨ d.asduN ≠ 1) then some E_RATE
  else if d.gen ≠ (gen + 1) % 65536 then some E_SEQ
  else if (d.policy = 0 ∧ (d.alg ≠ 0 ∨ d.tagLen ≠ 0 ∨ d.keyA ≠ 0 ∨ d.keyB ≠ 0)) ∨
      (d.policy ≠ 0 ∧ ¬ d.keyA.testBit 15 ∧ ¬ d.keyB.testBit 15) ∨
      (d.policy ≠ 0 ∧ ¬ (d.tagLen = 16 ∨ (d.alg = 2 ∧ d.tagLen = 32))) ∨
      (List.range 4).any (fun p => d.ports.testBit p && s.pairMode p != 0 && !d.ports.testBit (otherPort p)) ∨
      (d.anySrc ∧ (d.src ≠ 0 ∨ (d.altEn ∧ d.altSrc ≠ 0))) ∨ (d.altEn ∧ d.keys.headD [] = d.keys.getLastD []) then some E_CONFLICT
  else if d.guest ≠ 0 ∧ (s.guest d.guest).isNone then some E_ORPHAN
  else match (s.keyThere d.keyA), (s.keyThere d.keyB) with
  | some c, _ => some c
  | none, some c => some c
  | none, none =>
    if [d.keyA, d.keyB].any (fun k => k.testBit 15 && (s.keyUse (k % 512) d.guest d.alg false).isSome) then some E_KEYUSE
    else
      let old := match Tbl.look i s.porter.ctxs with | some e => e.d.keys | none => []
      if d.keys.any (fun k => s.porter.mt.any (fun e => e.2.key == k && e.2.ctx != some i)) ∨
          (s.others i).any (fun e => decide (e.2.d.pointBase < d.pointBase + d.pointCount) &&
            decide (d.pointBase < e.2.d.pointBase + e.2.d.pointCount)) ∨
          (d.pointBase < (s.rd .align ALIGN.STATUS_BASE).toNat + 4096 ∧
            (s.rd .align ALIGN.STATUS_BASE).toNat < d.pointBase + d.pointCount) ∨
          s.filtPoints d.pointBase d.pointCount ≠ [] ∨
          s.guests.any (fun e => e.2.img.outs.any (fun o =>
            decide (d.pointBase < o.point / 8 * 8 + 8) && decide (o.point / 8 * 8 < d.pointBase + d.pointCount))) then
        some E_CONFLICT
      else if d.pin ∧ 3 ≤ ((s.others i).filter (fun e => e.2.d.pin && e.1 % 256 == i % 256)).length then some E_FULL
      else
        let l := Tbl.put i ⟨d, {}⟩ (s.others i)
        if (List.range 4).any (fun p => decide (lineRate (s.speed p) / 1000 < portSum l p) || decide (800000 < laneSum l p)) ∨
            20000 < frameSum l ∨ 100000 * s.rdf .porter PORTER.HMAC_ADMIT 6 0 / 100 < hmacSum l then some E_BUDGET
        else if (s.exchange i old d.keys).isNone then some E_STASH else none

/-- The jobs of a removed context (R136, R163): those queued are withdrawn and counted; those started are discarded at
delivery. (DEDUCED, log 52). -/
def State.dropJobs (s : State) (i : Nat) : State :=
  let q := s.porter.jobs.filter (fun j => j.ctx == i && j.engine.isNone)
  let s := q.foldl (fun t j => (t.delJob j.id).dropHeld j.id) s
  let s := s.bumpBy .porter PORTER.REMOVED_INFLIGHT q.length
  s.modPorter (fun p => { p with jobs := p.jobs.map (fun j => if j.ctx = i ∧ ¬ j.late then { j with removed := true } else j) })

/-- Apply an accepted descriptor (R132, R136, R191). (DEDUCED, log 50). -/
def State.descApply (s : State) (i : Nat) (b : List Byte) : State :=
  let d := descOf b
  let old := Tbl.look i s.porter.ctxs
  let mt := s.exchange i (match old with | some e => e.d.keys | none => []) (if d.valid then d.keys else [])
  let put := fun (t : State) => t.writeMem (t.sdtEntry i) b
  let tab := fun (t : State) => t.modPorter (fun p => { p with mt := mt.getD p.mt })
  match old, d.valid with
  | none, false => s
  | some _, false =>
    let s := ((tab (put (s.uncache i))).dropJobs i).alignRemove i
    s.modPorter (fun p => { p with ctxs := Tbl.del i p.ctxs })
  | none, true =>
    let s := (put (s.writeMem (s.sdtEntry i + 128) (List.replicate 128 0)))
    let s := (tab s).modPorter (fun p => { p with ctxs := Tbl.put i ⟨d, {}⟩ p.ctxs })
    s.alignCreate i d
  | some e, true =>
    let s := (tab (put s)).modPorter (fun p => { p with ctxs := Tbl.put i { e with d := d } p.ctxs })
    s.alignChange i e.d d

/-- DESC_DONE (R134 to R136): the check of a staged descriptor ends and an accepted one is applied; while a table at a new place is
being zeroed the check goes on (R130). (DEDUCED, log 50). -/
def execDescDone (s : State) : Result :=
  match s.porter.descJob with
  | none => .next s
  | some i =>
    if s.porter.zeroing then .next s else
    let a := s.rd2 .porter PORTER.DESC_STAGE_LO
    let fin := fun (c : Nat) =>
      let t := s.modPorter (fun p => { p with descJob := none })
      let t := if c = 0 then t.descApply i (s.readMem a 128) else t
      done s ((t.wrn .porter PORTER.DESC_RESULT (i * 65536 + c)).raise .porter 16)
    if s.role.mode = .safe then fin E_MODE
    else guardDram a 128 <| guardDram (s.sdtEntry 0) 0x10_0000 <|
      fin ((s.descCheck i (s.leMem (s.sdtEntry i + 4) 2) (s.readMem a 128)).getD 0)

/-! ### Manager rules (R142, R164) -/

/-- RULE_CMD (R164). -/
def ruleCmdRule : Rule where
  legal := fun _ _ v =>
    (if fld v 1 0 = 0 ∨ fld v 1 0 = 3 then [(0, E_RANGE)] else []) ++ (if fld v 5 4 = 3 then [(4, E_RANGE)] else [])
  busy := fun s _ _ => s.porter.ruleJob.isSome
  apply := fun s _ v =>
    let key := (List.range 4).flatMap (fun k => leBytes 4 (s.rd .porter (PORTER.RULE_KEY k)).toNat)
    (s.modPorter (fun p => { p with ruleJob := some (fld v 1 0, fld v 5 4, key) })).wrn .porter PORTER.RULE_RESULT (2 ^ 31)

/-- RULE_ADD (R142): a write of RULE_CMD with OP 1 and an action. -/
def execRuleAdd (src : Src) (action : BitVec 2) (s : State) : Result :=
  done s (s.writeReg ruleCmdRule src .porter PORTER.RULE_CMD (BitVec.ofNat 32 (1 + 16 * action.toNat)))
/-- RULE_REMOVE (R142): a write of RULE_CMD with OP 2. -/
def execRuleRemove (src : Src) (s : State) : Result := done s (s.writeReg ruleCmdRule src .porter PORTER.RULE_CMD 2)

/-- RULE_DONE (R142): the command in progress takes effect and reports; a remove of a key that is a descriptor's finds no rule.
(DESIGN CHOICE, log 142). -/
def execRuleDone (s : State) : Result :=
  match s.porter.ruleJob with
  | none => .next s
  | some (op, action, key) =>
    let t := s.modPorter (fun p => { p with ruleJob := none })
    let fin := fun (t : State) (c : Nat) => done s ((t.wrn .porter PORTER.RULE_RESULT c).raise .porter 17)
    if op = 1 then
      if s.porter.mt.any (fun e => e.2.key == key) then fin t E_CONFLICT
      else match s.mtInsert s.porter.mt ⟨key, none, action⟩ with
      | some m => fin (t.modPorter (fun p => { p with mt := m })) 0
      | none => fin t E_STASH
    else if s.porter.mt.any (fun e => e.2.key == key && e.2.ctx.isNone) then
      fin (t.modPorter (fun p => { p with mt := s.mtRemove p.mt key })) 0
    else fin t E_ORPHAN

/-! ### The transmit queue (R150, R165) -/

/-- Take one entry of queue 3 (R150). -/
def State.txEntry (s : State) (k : Nat) : State :=
  let a := s.rd2 .porter (PORTER.Q_BASE_LO 3) + k * s.qEntry 3
  let len := s.leMem a 2
  let ports := (List.range 5).filter (fun n => (s.leMem (a + 2) 1).testBit n)
  let pair := (s.leMem (a + 3) 1).testBit 0
  if s.qEntry 3 - 32 < len ∨ ports.any (fun n => decide (s.rdf (portPage n) PORT.PORT_MTU 13 0 < len)) ∨ ports = [] ∨
      (pair ∧ ports.any (fun n => s.pairMode n == 0)) then s.bump .porter (PORTER.Q_DROP 3)
  else
    let b := s.readMem (a + 32) len
    let body := b.drop 12
    let ev := ports.any (fun n => (s.ptpOf n body).any (fun (p : PtpAt) => p.event body) &&
      bit (s.rd .timeu (tsWin n TIMEUW.PTP_CTL)) 0)
    s.sendUnit ports ⟨ofBe (b.take 6), ofBe ((b.drop 6).take 6), none, none, body, none, 0⟩ (if ev then 0 else 2) (some k) pair

/-- Take the entries up to PI; `n` bounds them. -/
def State.txTake (s : State) : Nat → State
  | 0 => s
  | n + 1 =>
    let k := s.porter.txTaken
    if k = (s.rd .porter (PORTER.Q_PI 3)).toNat then s
    else State.txTake ((s.txEntry k).modPorter (fun p => { p with txTaken := (k + 1) % s.qRing 3 })) n

/-- Entries posted while the queue is on are taken (R150). -/
def State.txRun (s : State) : State := if s.qOn 3 then (s.txTake 4096).txAdvance else s

/-- An index register that software writes (R165): below the ring size, and not past the other index. -/
def qIdxRule (q : Nat) : Rule where
  legal := fun s _ v => if s.qRing q ≤ v then [(0, E_RANGE)] else []
  check := fun s _ v =>
    let n := s.qRing q
    if q = 3 then
      let old := (s.rd .porter (PORTER.Q_PI 3)).toNat
      let ci := (s.rd .porter (PORTER.Q_CI 3)).toNat
      if (ci + n - old % n + n - 1) % n < (v + n - old % n) % n then some E_SEQ else none
    else
      let old := (s.rd .porter (PORTER.Q_CI q)).toNat
      let pi := (s.rd .porter (PORTER.Q_PI q)).toNat
      if (pi + n - old % n) % n < (v + n - old % n) % n then some E_SEQ else none
  apply := fun s _ _ => if q = 3 then s.txRun else s

/-- The outcome of a register write that may post transmit entries: entries taken from a ring that does not lie in DRAM have no
place to be read from. -/
def State.afterWrite (s t : State) : Result :=
  if t.porter.txTaken ≠ s.porter.txTaken ∧ ¬ t.ringInDram 3 then .fault (.dramOutsideSpace (t.rd2 .porter (PORTER.Q_BASE_LO 3)))
  else done s t

/-- TXQ_PI_WRITE (R150): a write of Q_PI of queue 3 posts transmit entries. -/
def execTxqPiWrite (src : Src) (w : Word) (s : State) : Result :=
  s.afterWrite (s.writeReg (qIdxRule 3) src .porter (PORTER.Q_PI 3) w)

/-! ### Registers (R141, R164, R165, R167) -/

def porterCounters : List Nat :=
  [PORTER.MISS_DROP, PORTER.DISC_LIMITED, PORTER.DISC_FULL, PORTER.DESC_MISSES, PORTER.REMOVED_INFLIGHT, PORTER.AUTH_FAIL_AFTER] ++
    (List.range 4).flatMap (fun c => [win c PORTERW.PIPE_FRAMES, win c PORTERW.PEND_FULL])
def cryptoCounters : List Nat :=
  [CRYPTO.GMAC_PASS, CRYPTO.GMAC_FAIL, CRYPTO.HMAC_PASS, CRYPTO.HMAC_FAIL, CRYPTO.WITHDRAWN, CRYPTO.QFULL, CRYPTO.PARENT_REVOKED,
   CRYPTO.SIGNED, CRYPTO.SIGN_REFUSED]

/-- A seed changes only while the match table is empty (R141). -/
def seedRule : Rule where
  check := fun s _ _ => if s.porter.mt = [] then none else some E_CONFLICT

/-- DISC_RULEn_W3 checks the rule and applies its four words together (R165). -/
def discW3Rule (n : Nat) : Rule where
  legal := fun s _ v =>
    (if fld v 31 16 < fld v 15 0 then [(0, E_CONFLICT)] else []) ++
    (if 48 < s.rdf .porter (PORTER.DISC_RULE_W2 n) 21 16 then [(16, E_RANGE)] else [])
  apply := fun s _ _ => s.modPorter (fun p => { p with
    rules := Tbl.put n [s.rd .porter (PORTER.DISC_RULE_W0 n), s.rd .porter (PORTER.DISC_RULE_W1 n),
      s.rd .porter (PORTER.DISC_RULE_W2 n), s.rd .porter (PORTER.DISC_RULE_W3 n)] p.rules })

def hmacAdmitRule : Rule where
  legal := fun _ _ v => if fld v 6 0 = 0 ∨ 100 < fld v 6 0 then [(0, E_RANGE)] else []
  check := fun s _ v => if 100000 * fld v 6 0 / 100 < hmacSum s.porter.ctxs then some E_BUDGET else none
def discCtlRule : Rule where
  legal := fun _ _ v =>
    (if fld v 15 0 = 0 ∨ 10000 < fld v 15 0 then [(0, E_RANGE)] else []) ++ (if fld v 23 16 = 0 then [(16, E_RANGE)] else [])
def qBaseRule : Rule where
  legal := fun _ _ v => if v % 4096 ≠ 0 then [(0, E_ALIGN)] else []
def qCfgRule (q : Nat) : Rule where
  legal := fun _ _ v => if fld v 3 0 < 6 ∨ 12 < fld v 3 0 then [(0, E_RANGE)] else []
  apply := fun s _ _ => if q = 3 then s.txRun else s

def porterRule (o : Nat) : Rule :=
  if o = PORTER.SDT_BASE_HI then sdtBaseRule
  else if o = PORTER.DESC_STAGE_HI then { legal := fun _ _ v => if v % 64 ≠ 0 then [(0, E_ALIGN)] else [] }
  else if o = PORTER.DESC_DOORBELL then descDoorbellRule
  else if o = PORTER.HASH_SEED0 ∨ o = PORTER.HASH_SEED1 then seedRule
  else if o = PORTER.HMAC_ADMIT then hmacAdmitRule
  else if o = PORTER.RULE_CMD then ruleCmdRule
  else if o = PORTER.DISC_CTL then discCtlRule
  else if o = PORTER.CNT_CLR then { apply := fun s _ v => if fld v 0 0 = 1 then s.zero .porter porterCounters else s }
  else if 0x100 ≤ o ∧ o < 0x300 then if o % 16 = 12 then discW3Rule ((o - 0x100) / 16) else {}
  else if 0x300 ≤ o ∧ o < 0x380 then
    let q := (o - 0x300) / 32
    match (o - 0x300) % 32 with
    | 4 => qBaseRule
    | 8 => qCfgRule q
    | 0xC => if q = 3 then qIdxRule 3 else {}
    | 0x10 => if q = 3 then {} else qIdxRule q
    | _ => {}
  else {}

/-- CRYPTO's CNT_CLR (R167). (DESIGN CHOICE, log 144). -/
def cryptoRule (o : Nat) : Rule :=
  if o = CRYPTO.CNT_CLR then
    { apply := fun s _ v => if fld v 0 0 = 1 then (s.zero .crypto cryptoCounters).wrf .crypto CRYPTO.HMAC_Q 24 16 0 else s }
  else {}

end Sys2Proof.Machine
end

