-- ==== Sys2Proof/Machine/LedgerCmd.lean ====
section
/-! DEFINITION. Sys2Proof/Machine/LedgerCmd.lean: the Ledger writer, single-record reads, clears, cell histograms (R365 to R382,
R387) and the check-value units (R383 to R388). -/
namespace Sys2Proof.Machine

abbrev E_SCANERR : Nat := 0x69
abbrev E_ABORTED : Nat := 0x6A

/-- Change the Ledger's state. -/
def State.modLedger (s : State) (f : LedgerSt → LedgerSt) : State := { s with ledger := f s.ledger }

/-! ### The writer (R365 to R369) -/

/-- The RESET_CAUSE record (R466). -/
def State.resetCauseRec (s : State) : LRec :=
  ⟨0x0C4, 0, sourceOf .clkrst 0, s.now, s.time.stepGen,
    pad16 (leBytes 4 (s.rd .clkrst CLKRST.RST_CAUSE).toNat ++ leBytes 2 (s.rd .clkrst CLKRST.RST_COUNT).toNat), 0⟩

/-- LEDGER_WRITER_START (R365): a writer that may run and does not starts: EPOCH first, RESET_CAUSE after it at its first
start since a chip reset. -/
def execLedgerWriterStart (s : State) : Result :=
  if s.writerCan ∧ ¬ s.ledger.running then
    let first := ! s.ledger.started
    done s (s.modLedger (fun l => { l with
      running := true, started := true, epochHi := s.nowS / 65536,
      own := [s.epochRec] ++ (if first then [s.resetCauseRec] else []) ++ l.own }))
  else .next s

/-- The writer stops: LEDGER is disabled, in soft reset or isolated. -/
def State.writerStop (s : State) : State := s.modLedger (fun l => { l with running := false })

/-- LEDGER_WRITE (R369): the writer takes the next record and writes it. -/
def execLedgerWrite (s : State) : Result :=
  if s.writerCan ∧ s.ledger.running then
    match takeNext s.ledger with
    | none => .next s
    | some (r, l) => done s (({ s with ledger := l } : State).writeRec r)
  else .next s

/-! ### Ring place and codes (R372, R387) -/

/-- LG_BASE as written for the next LG_CFG. -/
def State.lgBase (s : State) : Nat :=
  let b := Page.base .ledger
  (Tbl.get (s.rd .ledger LEDGER.LG_BASE_LO) (b + LEDGER.LG_BASE_LO) s.shadow).toNat +
    2 ^ 32 * (Tbl.get (s.rd .ledger LEDGER.LG_BASE_HI) (b + LEDGER.LG_BASE_HI) s.shadow).toNat

/-- Only the BOOT sequencer places the ring. -/
def bootOnly (src : Src) : List (Nat × Nat) := if src = .boot then [] else [(0, E_PERM)]

def lgBaseRule : Rule where
  legal := fun _ src _ => bootOnly src

/-- LG_CFG (R387): the three registers apply together; the ring then starts empty at its new place. -/
def lgCfgRule : Rule where
  legal := fun s src v =>
    bootOnly src ++
    (if fld v 4 0 < 16 ∨ 26 < fld v 4 0 then [(0, E_RANGE)]
     else if s.lgBase % 2 ^ fld v 4 0 ≠ 0 then [(0, E_ALIGN)]
     else if dramSize < s.lgBase + 2 ^ fld v 4 0 then [(0, E_RANGE)] else [])
  apply := fun s _ _ =>
    let b := Page.base .ledger
    let t := s.wr2 .ledger LEDGER.LG_BASE_LO s.lgBase
    let t : State := { t with shadow := Tbl.del (b + LEDGER.LG_BASE_LO) (Tbl.del (b + LEDGER.LG_BASE_HI) t.shadow) }
    t.modLedger (fun l => { l with idx := [], headOfs := 0, tailOfs := 0 })

/-- LG_CFG_WRITE (R387): the BOOT sequencer's write of LG_BASE and LG_CFG. -/
def execLgCfgWrite (src : Src) (base : BitVec 64) (log2 : BitVec 5) (s : State) : Result :=
  let t := s.writeReg lgBaseRule src .ledger LEDGER.LG_BASE_LO (BitVec.ofNat 32 base.toNat)
  let t := t.writeReg lgBaseRule src .ledger LEDGER.LG_BASE_HI (BitVec.ofNat 32 (base.toNat / 2 ^ 32))
  done s (t.writeReg lgCfgRule src .ledger LEDGER.LG_CFG (BitVec.ofNat 32 log2.toNat))

def codeSelRule : Rule where
  check := fun _ _ v => if eventCodes.any (fun e => e.1 == fld v 9 0) then none else some E_ORPHAN

/-- LG_CODE_CFG (R387): the bucket keeps the tokens it has, up to its new size. (DEDUCED, log 91). -/
def codeCfgRule : Rule where
  legal := fun s _ v =>
    let cur := (s.codeCfg s.codeSel).toNat
    (if keptCode s.codeSel ∧ fld v 15 0 ≠ fld cur 15 0 then [(0, E_PERM)] else if fld v 15 0 = 0 then [(0, E_RANGE)] else []) ++
    (if keptCode s.codeSel ∧ fld v 23 16 ≠ fld cur 23 16 then [(16, E_PERM)]
     else if fld v 23 16 = 0 then [(16, E_RANGE)] else [])
  pre := fun s _ _ =>
    let c := s.codeSel
    s.modLedger (fun l => { l with buckets := Tbl.put c ⟨s.tokens c, s.time.elapsed⟩ l.buckets })
  apply := fun s _ v =>
    s.modLedger (fun l => { l with
      codeCfg := Tbl.set 0x0010_03E8 s.codeSel (BitVec.ofNat 32 (v % 2 ^ 24)) l.codeCfg })

def lgCntClrRule : Rule where
  apply := fun s _ v =>
    if fld v 0 0 = 0 then s else s.zero .ledger [LEDGER.RECORDS, LEDGER.SUPPRESSED, LEDGER.INGEST_FULL]

/-! ### Reading the ring (R375, R376) -/

/-- LG_SEL (R376). (DEDUCED, log 84). -/
def lgSelRule : Rule where
  apply := fun s _ v =>
    match s.ledger.idx.find? (fun e => !e.filler && e.seq == v) with
    | none => s.wrf .ledger LEDGER.LG_SEL_STS 23 16 E_RANGE
    | some e =>
      let (bs, s) := s.readOpen (s.ringBase + e.ofs) e.len
      (s.putData .ledger LEDGER.LG_DATA bs).wrn .ledger LEDGER.LG_SEL_STS (2 ^ 31 + e.len)

/-- LG_SEL (R376): a write of LG_SEL, low word then high word. -/
def execLgSel (src : Src) (seq : BitVec 64) (s : State) : Result :=
  let t := s.writeReg {} src .ledger LEDGER.LG_SEL_LO (BitVec.ofNat 32 seq.toNat)
  done s (t.writeReg lgSelRule src .ledger LEDGER.LG_SEL_HI (BitVec.ofNat 32 (seq.toNat / 2 ^ 32)))

/-! ### Clearing (R377 to R379) -/

def tokenRule (k : Nat) : Rule where
  apply := fun s _ v => s.modLedger (fun l => { l with token := Tbl.set 0 k (BitVec.ofNat 32 v) l.token })

/-- The 48 bytes of the token registers. -/
def State.tokenBytes (s : State) : List Byte :=
  (List.range 12).flatMap (fun k => leBytes 4 (Tbl.get 0 k s.ledger.token).toNat)


/-- Steps 1 to 7 of R378 on a token, in their order; 0 when it passes them. -/
def State.clearCode (s : State) (t : List Byte) : Nat :=
  let scope := leAt t 5 1
  let slot := leAt t 6 2
  if t.take 4 ≠ [0x58, 0x4C, 0x43, 0x31] ∨ 4 ≤ scope ∨ 512 ≤ slot ∨ leAt t 0x0C 4 ≠ 0 ∨ leAt t 0x1E 2 ≠ 0 then E_RESERVED
  else if scope = 0 ∨ s.ledger.headSeq < leAt t 0x10 8 then E_RANGE
  else if leAt t 4 1 ≠ b2n s.unitB ∨ (t.drop 0x18).take 6 ≠ beBytes 6 s.macBase then E_CONFLICT
  else if leAt t 8 4 ≠ ((s.rd .ledger LEDGER.LG_CLEARS).toNat + 1) % 2 ^ 32 then E_SEQ
  else match s.kslot slot with
  | none => E_NOKEY
  | some k =>
    if k.revoked then E_REVOKED
    else if slot = 0 ∨ ¬ k.sign ∨ k.owner ≠ 0 then E_CLRKEY
    else 0

/-- GO (R378): steps 1 to 7 on the token as it stands; a token that passes sends its tag job to the HMAC pool, with a deadline 1 ms
later, and one that finds the pool's queue full is withdrawn at once. (DEDUCED, log 92). -/
def State.clearGo (s : State) : State :=
  let t := s.tokenBytes
  let code := s.clearCode t
  let put := fun (s : State) (c : ClrSt) => s.modLedger (fun l => { l with clr := some c })
  if code ≠ 0 then put s { token := t, code := code }
  else if 256 ≤ s.hmacDepth then put ((s.bump .crypto CRYPTO.QFULL).raise .crypto 16) { token := t, code := E_BUSY }
  else
    ((put s { token := t, deadline := s.now + 4000000, id := s.porter.jobNo }).modPorter (fun p => { p with
      jobNo := p.jobNo + 1 })).hmacPeak

/-- LG_CLR_CMD (R378, R386). -/
def lgClrRule : Rule where
  busy := fun s _ _ => s.ledger.clr.isSome
  apply := fun s _ v => if fld v 0 0 = 1 then s.clearGo else s

/-- LG_CLEAR (R378): a write of LG_CLR_CMD.GO. -/
def execLgClear (src : Src) (s : State) : Result := done s (s.writeReg lgClrRule src .ledger LEDGER.LG_CLR_CMD 1)

/-- Every cell's histograms return to their reset values and every GEN advances (R379). (DEDUCED, log 93). -/
def State.clearHists (s : State) : State :=
  s.modLedger (fun l => { l with
    hists := Tbl.change {} (fun _ h => ({ gen := h.gen } : Hist)) l.hists,
    gens := (List.range 7).foldl (fun t m => Tbl.put m (Tbl.get 0 m t + 1) t) l.gens })

/-- An accepted clear (R379). -/
def State.clearLedger (s : State) (t : List Byte) : State :=
  let scope := leAt t 5 1
  let upto := leAt t 0x10 8
  let s := if scope.testBit 0 then
      (s.modLedger (fun l => { l with idx := l.idx.filter (fun e => e.filler || decide (upto < e.seq)) })).setTail
    else s
  let s := if scope.testBit 1 then s.clearHists else s
  let n := ((s.rd .ledger LEDGER.LG_CLEARS).toNat + 1) % 2 ^ 32
  let s := s.wrn .ledger LEDGER.LG_CLEARS n
  let r : LRec := ⟨0x001, 0, sourceOf .ledger 0, s.now, s.time.stepGen,
    leBytes 8 upto ++ leBytes 4 n ++ leBytes 1 scope ++ [0] ++ leBytes 2 (leAt t 6 2), 0⟩
  s.modLedger (fun l => { l with own := r :: l.own })

/-- The check of a clear ends with a code (R378, R379): an accepted clear takes effect; the token registers return to 0. -/
def State.clearEnd (s : State) (t : List Byte) (code : Nat) : State :=
  let s := if code = 0 then s.clearLedger t else s
  let s := s.modLedger (fun l => { l with clr := none, token := [] })
  (s.wrn .ledger LEDGER.LG_CLR_STS code).raise .ledger 16

/-- An engine ends the tag job of a clear (R167, R349). (DEDUCED, log 92). -/
def State.tagEnd (s : State) (c : ClrSt) (e : Nat) : State :=
  let s := (s.engineJob e (hmacNs 32)).bump .crypto (if c.pass then CRYPTO.HMAC_PASS else CRYPTO.HMAC_FAIL)
  if c.revoked then (s.bump .crypto CRYPTO.PARENT_REVOKED).raise .crypto 17 else s

/-- LG_CLEAR_DONE (R378, R379): the check of the token ends: by a failed step, by its tag, or at the tag job's deadline, where a job
that has not started is withdrawn. -/
def execLgClearDone (s : State) : Result :=
  match s.ledger.clr with
  | none => .next s
  | some c =>
    if ¬ s.working .ledger then .next s
    else if c.code ≠ 0 then done s (s.clearEnd c.token c.code)
    else match c.engine with
    | none =>
      if s.now < c.deadline then .next s
      else done s ((s.bump .crypto CRYPTO.WITHDRAWN).clearEnd c.token E_BUSY)
    | some e =>
      done s ((s.tagEnd c e).clearEnd c.token (if ¬ c.pass then E_AUTH else if c.revoked then E_REVOKED else 0))

/-! ### Cell histograms (R380 to R382) -/

/-- The key of a unit's metric: its SOURCE and the metric. -/
def histKey (source m : Nat) : Nat := source * 16 + m

/-- The page of a region and block number, and the cell, that keep metric `m` (R380). -/
def State.keeps (s : State) (p : Page) (c m : Nat) : Bool :=
  let cell := Page.real p && decide (c < Page.cells p)
  match m with
  | 0 | 1 => (match p with | .exb n => cell && decide ((s.cell (16 * n + c)).guest ≠ 0) | _ => false)
  | 2 => (match p with | .exb _ | .pcache _ | .dramc _ => cell | _ => false)
  | 3 => (match p with | .porter | .align | .point => cell | _ => false)
  | 4 => c == 0 && cell
  | 5 => (match p with | .pwrmon => cell | _ => false)
  | 6 => (match p with | .adc => cell | _ => false)
  | _ => false

/-- LOG and SHIFT of a metric. -/
def State.metCfg (s : State) (m : Nat) : Word := s.rd .ledger (LEDGER.MET_CFG m)

/-- The bin of a sample (R381). -/
def State.binOf (s : State) (m v : Nat) : Nat :=
  let x := v / 2 ^ bits (s.metCfg m) 4 0
  min 31 (if bit (s.metCfg m) 8 then (if x = 0 then 0 else Nat.log2 x + 1) else x)

/-- A metric's sample joins the cell's histogram. -/
def State.addSample (s : State) (p : Page) (c m v : Nat) : State :=
  let v := min 0xFFFF_FFFF v
  let k := histKey (sourceOf p c) m
  let h := Tbl.get {} k s.ledger.hists
  let b := s.binOf m v
  let h := { h with
    count := satAdd (2 ^ 64 - 1) h.count 1, sum := satAdd (2 ^ 64 - 1) h.sum v,
    bins := Tbl.set 0 b (satAdd 0xFFFF_FFFF (Tbl.get 0 b h.bins) 1) h.bins }
  let h := if v < h.mn then { h with mn := v, mnT := s.now } else h
  let h := if h.mx < v then { h with mx := v, mxT := s.now } else h
  s.modLedger (fun l => { l with hists := Tbl.set {} k h l.hists })

/-- Change the clock and supply state. -/
def State.modClk (s : State) (f : ClkSt → ClkSt) : State := { s with clk := f s.clk }

def State.rail (s : State) (c o : Nat) : Nat := (s.rd .pwrmon (win c o)).toNat

/-- A rail's latest sample, and its lowest since the previous command about it (R475). (DEDUCED, log 108). -/
def State.railSample (s : State) (c mv low : Nat) : State :=
  let m := min mv low
  let s := (s.wrn .pwrmon (win c PWRMONW.RAIL_MEAS) mv).wrn .pwrmon (win c PWRMONW.RAIL_MIN) (min m (s.rail c PWRMONW.RAIL_MIN))
  if s.clk.dipped ≠ 0 ∧ m < s.clk.minMv then s.modClk (fun k => { k with minRail := c, minMv := m }) else s

/-- The sensor of the block that `source` names reads `code`, and TEMP_MAX the hottest of the sensors' latest readings (R470, R474). -/
def State.tempSample (s : State) (source code : Nat) : State :=
  let t := s.modClk (fun k => { k with temps := Tbl.set 0 (source / 16) (code % 1024) k.temps })
  t.wrf .pwrmon PWRMON.TEMP_STS 9 0 (t.clk.temps.foldl (fun a e => max a e.2) 0)

/-- What a metric samples (R380): for TEMP the command gives T in 0.25 °C, a signed number of 16 bits, for RAIL the rail's mV; the
others are in the state. -/
def State.metric (s : State) (p : Page) (c m v : Nat) : Nat :=
  match m, p with
  | 0, .exb n => (s.cell (16 * n + c)).endCyc
  | 1, .exb n =>
    let x := s.cell (16 * n + c)
    if x.run = .finished then (s.time.clock - x.endTime) / nsU else 0
  | 3, .porter => (s.heldAt c).length
  | 3, .align => laneDepth (Tbl.get [] c s.align.lanes)
  | 3, _ => 0
  | 2, p => Tbl.get 0 (sourceOf p c) s.ecc
  | 4, _ => (signed 16 v + 256).toNat
  | 5, _ => v - (s.rd .pwrmon (win c PWRMONW.RAIL_WARN)).toNat
  | 6, _ => ((s.corest c).conv.getD 0 + 32768).toNat
  | _, _ => v

/-- What goes with a sample beside the histogram: a millisecond's corrections and a conversion are sampled once; a temperature or a
rail's voltage shows in PWRMON (R474, R475). (DEDUCED, log 147). -/
def State.sampled (s : State) (p : Page) (c m v : Nat) : State :=
  match m with
  | 2 => { s with ecc := Tbl.del (sourceOf p c) s.ecc }
  | 4 => if s.working .pwrmon then s.tempSample (sourceOf p c) (signed 16 v + 256).toNat else s
  | 5 => if s.working .pwrmon ∧ ¬ s.quarantined .pwrmon c then s.railSample c (min v 4095) (min v 4095) else s
  | 6 => s.setCore c { s.corest c with conv := none }
  | _ => s

/-- HIST_SAMPLE (R381): metric `m` of a cell is sampled at its interval; CONV once at each conversion without SETTLE (R410). -/
def execHistSample (p : Page) (c m v : Nat) (s : State) : Result :=
  if ¬ s.keeps p c m ∨ (m = 6 ∧ (s.corest c).conv.isNone) then .next s
  else
    let t := s.sampled p c m v
    .next (if bit (s.rd p HDR.LEDGER_CTL) 1 then t.addSample p c m (s.metric p c m v) else t)

/-- Latch a unit's metric into HIST_GEN to HIST_BIN31 (R382). -/
def State.latchHist (s : State) (source m : Nat) : State :=
  let h := Tbl.get {} (histKey source m) s.ledger.hists
  let p : Page := .ledger
  let s := s.wrn p LEDGER.HIST_GEN (Tbl.get 0 m s.ledger.gens + h.gen)
  let s := ((s.wr2 p LEDGER.HIST_COUNT_LO h.count).wr2 p LEDGER.HIST_SUM_LO h.sum).wrn p LEDGER.HIST_MIN h.mn
  let s := ((s.wrn p LEDGER.HIST_MAX h.mx).wrn p LEDGER.HIST_MIN_NS (qWord h.mnT)).wr2 p LEDGER.HIST_MIN_S_LO (qS h.mnT)
  let s := (s.wrn p LEDGER.HIST_MAX_NS (qWord h.mxT)).wr2 p LEDGER.HIST_MAX_S_LO (qS h.mxT)
  (List.range 32).foldl (fun t b => t.wrn p (LEDGER.HIST_BIN b) (Tbl.get 0 b h.bins)) s

/-- HIST_SEL (R382, R387). -/
def histSelRule : Rule where
  check := fun s _ v =>
    match Page.at (fld v 31 28) (fld v 27 20) with
    | some p => if s.keeps p (fld v 19 16) (fld v 3 0) then none else some E_ORPHAN
    | none => some E_ORPHAN
  apply := fun s _ v => s.latchHist (fld v 19 16 + 16 * fld v 27 20 + 4096 * fld v 31 28) (fld v 3 0)

/-- HIST_SEL (R382). -/
def execHistSel (src : Src) (w : Word) (s : State) : Result :=
  done s (s.writeReg histSelRule src .ledger LEDGER.HIST_SEL w)

/-- MET_CFGm (R381): the metric is cleared in every cell, and every GEN of it advances. -/
def metCfgRule (m : Nat) : Rule where
  legal := fun s _ _ => if s.role.mode = .configure then [] else [(0, E_MODE)]
  apply := fun s _ _ =>
    s.modLedger (fun l => { l with
      hists := Tbl.change {} (fun k h => if k % 16 = m then ({ gen := h.gen } : Hist) else h) l.hists,
      gens := Tbl.put m (Tbl.get 0 m l.gens + 1) l.gens })

/-- MET_CFG_WRITE (R381). -/
def execMetCfgWrite (src : Src) (m : Fin 7) (w : Word) (s : State) : Result :=
  done s (s.writeReg (metCfgRule m.val) src .ledger (LEDGER.MET_CFG m.val) w)

/-! ### Check-value units (R383 to R388) -/

/-- Scan engine `c`. -/
def State.scan (s : State) (c : Nat) : ScanSt := Tbl.get {} c s.scans
def State.setScan (s : State) (c : Nat) (x : ScanSt) : State := { s with scans := Tbl.set {} c x s.scans }

/-- A register of engine `c`'s window. -/
abbrev ckw (c o : Nat) : Nat := win c o

def ckBusyRule (c : Nat) : Rule where
  busy := fun s _ _ => (s.scan c).busy

/-- A scan ends with a code after `n` bytes, the CRC register then holding `r`: CK_RES shows the result over those bytes (R384,
R385). -/
def State.scanEnd (s : State) (c code n r : Nat) : State :=
  let x := s.scan c
  let s := s.setScan c { x with busy := false, prev := some (x.poly, r) }
  let s := (s.wr2 .check (ckw c CHECKW.CK_DONE_LO) n).wrn .check (ckw c CHECKW.CK_STS) (2 ^ 16 + code)
  let s := s.wr2 .check (ckw c CHECKW.CK_RES_LO) (crcEnd (crcOf x.poly) r)
  let s := (s.bump .check CHECK.SCANS).raiseCell .check c 0
  if code = 0 then s else s.bump .check CHECK.SCAN_ERRS

/-- The CRC register a scan starts from (R384). -/
def ScanSt.start (x : ScanSt) : Nat :=
  match x.cont, x.prev with
  | true, some p => p.2
  | _, _ => (crcOf x.poly).init

/-- The CRC register after the first `n` bytes of a running scan. (DESIGN CHOICE, log 94). -/
def State.scanRun (s : State) (x : ScanSt) (n : Nat) : Nat := crcRun (crcOf x.poly) x.start (s.readMem x.addr n)

/-- A running scan is cut off: how far it got is open. (DESIGN CHOICE, log 94). -/
def State.scanCut (s : State) (c code : Nat) : State :=
  let x := s.scan c
  let (v, t) := s.draw
  let n := v.toNat % x.len
  t.scanEnd c code n (t.scanRun x n)

/-- A scan starts (R384). On a quarantined engine it ends at once with E_LOCKED, in a stopped CHECK with E_ABORTED, with no byte
processed (R46, R385). (DEDUCED, log 122). -/
def State.scanStart (s : State) (c : Nat) (x : ScanSt) : State :=
  let t := (s.setScan c { x with busy := true }).wrn .check (ckw c CHECKW.CK_STS) (2 ^ 31)
  if s.quarantined .check c then t.scanEnd c E_LOCKED 0 x.start
  else if ¬ bit (s.rd .check HDR.PAGE_CTL) 0 then t.scanEnd c E_ABORTED 0 x.start
  else t

/-- CK_CTL (R388): GO starts a scan; CONT must fit the previous scan in every write of the register. -/
def ckCtlRule (c : Nat) : Rule where
  legal := fun _ _ v => if fld v 8 8 = 1 ∧ fld v 9 9 = 1 then [(8, E_CONFLICT)] else []
  busy := fun s _ v => decide (fld v 8 8 = 1) && (s.scan c).busy
  check := fun s _ v =>
    let x := s.scan c
    if fld v 8 8 = 1 ∧ dramSize < s.rd2 .check (ckw c CHECKW.CK_ADDR_LO) + (s.rd .check (ckw c CHECKW.CK_LEN)).toNat + 1 then some E_RANGE
    else if fld v 4 4 = 0 then none
    else match x.prev with
    | none => some E_SEQ
    | some p => if p.1 = fld v 1 0 then none else some E_CONFLICT
  apply := fun s _ v =>
    let x := s.scan c
    if fld v 8 8 = 1 then
      s.scanStart c { x with
        addr := s.rd2 .check (ckw c CHECKW.CK_ADDR_LO),
        len := (s.rd .check (ckw c CHECKW.CK_LEN)).toNat + 1, cont := decide (fld v 4 4 = 1), poly := fld v 1 0 }
    else if fld v 9 9 = 1 ∧ x.busy then s.scanCut c E_ABORTED
    else s

/-- CK_GO (R384): a write of CK_CTL with GO, CONT and POLY. -/
def execCkGo (src : Src) (c : Fin 4) (cont : Bool) (poly : BitVec 2) (s : State) : Result :=
  done s (s.writeReg (ckCtlRule c.val) src .check (ckw c.val CHECKW.CK_CTL)
    (BitVec.ofNat 32 (256 + b2n cont * 16 + poly.toNat)))

/-- CK_ABORT (R385): a write of CK_CTL with ABORT, which leaves CONT and POLY as they are. -/
def execCkAbort (src : Src) (c : Fin 4) (s : State) : Result :=
  done s (s.writeReg (ckCtlRule c.val) src .check (ckw c.val CHECKW.CK_CTL)
    (s.rd .check (ckw c.val CHECKW.CK_CTL) ||| 512#32))

/-- A scan comes to its end (R384, R385): at its first poisoned line, or after its last byte. -/
def State.scanDone (s : State) (c : Nat) : State :=
  let x := s.scan c
  match s.poisonIn x.addr x.len with
  | l :: _ =>
    let n := l * 64 - x.addr
    (s.dramUe (l * 64) 7).scanEnd c E_SCANERR n (s.scanRun x n)
  | [] => s.scanEnd c 0 x.len (s.scanRun x x.len)

/-- CK_DONE (R384): engine `c`'s scan ends. -/
def execCkDone (c : Fin 4) (s : State) : Result :=
  if (s.scan c.val).busy ∧ s.working .check then done s (s.scanDone c.val) else .next s

/-- A scan whose engine is quarantined ends with E_LOCKED (R385). -/
def State.scanLost (s : State) (c : Nat) : State := if (s.scan c).busy then s.scanCut c E_LOCKED else s

/-! ### Rules -/

/-- The rules of LEDGER's registers. -/
def ledgerRule (o : Nat) : Rule :=
  if o = LEDGER.LG_BASE_LO ∨ o = LEDGER.LG_BASE_HI then lgBaseRule
  else if o = LEDGER.LG_CFG then lgCfgRule
  else if o = LEDGER.LG_CODE_SEL then codeSelRule
  else if o = LEDGER.LG_CODE_CFG then codeCfgRule
  else if o = LEDGER.CNT_CLR then lgCntClrRule
  else if o = LEDGER.LG_SEL_HI then lgSelRule
  else if 0x200 ≤ o ∧ o < 0x230 then tokenRule ((o - 0x200) / 4)
  else if o = LEDGER.LG_CLR_CMD then lgClrRule
  else if o = LEDGER.HIST_SEL then histSelRule
  else if 0x400 ≤ o ∧ o < 0x41C then metCfgRule ((o - 0x400) / 4)
  else {}

/-- The rules of CHECK's registers. -/
def checkRule (o : Nat) : Rule :=
  if o = CHECK.CNT_CLR then { apply := fun s _ v => if fld v 0 0 = 0 then s else s.zero .check [CHECK.SCANS, CHECK.SCAN_ERRS] }
  else if o < 0x800 then {}
  else
    let c := (o - 0x800) / 0x80
    let r := (o - 0x800) % 0x80
    if r = CHECKW.CK_ADDR_LO ∨ r = CHECKW.CK_ADDR_HI ∨ r = CHECKW.CK_LEN then ckBusyRule c
    else if r = CHECKW.CK_CTL then ckCtlRule c
    else {}

end Sys2Proof.Machine
end

