-- ==== Sys2Proof/Machine/Clocks.lean ====
section
/-! DEFINITION. Sys2Proof/Machine/Clocks.lean: clocks, resets, supply monitoring (R454 to R476), reset release
(R308, R462), the debug port (R310, R311) and the TAP (R490, R494). -/
namespace Sys2Proof.Machine

abbrev E_RSTKEY : Nat := 0x88

/-! ### Chip reset (R460, R461) -/

/-- A chip reset with the bit of its cause in RST_CAUSE; a power-on clears the causes and the count first, a rail names itself in
RST_RAIL. The fuses, the flash contents, RST_CAUSE and RST_COUNT survive; DRAM is left for boot to zero; the TAP has its own
reset. (DESIGN CHOICE, log 12; DEDUCED, log 78). -/
def State.chipReset (s : State) (cause : Nat) (rail : Option Nat) : State :=
  let w := s.rd .clkrst CLKRST.RST_CAUSE
  let w := setBit w cause true
  let w := match rail with | some c => setBits w 19 16 c | none => w
  let power := cause = 0
  let t : State := { State.reset with
    pending := s.pending, flash := s.flash, dram := s.dram, poison := s.poison, freeCtr := s.freeCtr, sent := s.sent,
    tap := if power then .idcode else s.tap, padsTaken := if power then false else s.padsTaken }
  if power then t
  else (t.wr .clkrst CLKRST.RST_CAUSE w).wrn .clkrst CLKRST.RST_COUNT
    (satAdd 0xFFFF (s.rd .clkrst CLKRST.RST_COUNT).toNat 1)

/-- POWER_ON (R460): VDD_CORE rises. (DEDUCED, log 78). -/
def execPowerOn (s : State) : Result := .next (s.chipReset 0 none)
/-- PORST (R460, R486): PORST_N has been low for 5 µs. -/
def execPorst (s : State) : Result := .next (s.chipReset 1 none)
/-- ROOT_PLL_LOCK_LOSS (R459): the root PLL loses lock while the reference is good. -/
def execRootPllLockLoss (s : State) : Result :=
  if bit (s.rd .clkrst CLKRST.CLK_STS) 2 then .next s else .next (s.chipReset 3 none)
/-- DEBUG_RESET_REQ (R310, R460): the unlocked debug port asks for a chip reset; a stopped or isolated DEBUG asks for none (R27, R46).
(DEDUCED, log 121). -/
def execDebugResetReq (s : State) : Result :=
  if s.working .debug ∧ bit (s.rd .debug DEBUG.DBG_STS) 0 then .next (s.chipReset 5 none) else .next s
/-- THERMAL_TRIP (R470): a sensor has been at or above T_TRIP for 1 ms; `code` is its temperature. -/
def execThermalTrip (code : BitVec 10) (s : State) : Result :=
  if s.working .pwrmon ∧ s.rdf .pwrmon PWRMON.TEMP_STS 25 16 ≤ code.toNat then .next (s.chipReset 6 none) else .next s

/-- The two boot slots of the flash device with the contents that someone outside gave them (R445). -/
def State.bootSlots (s : State) (slots : Option (List Byte × List Byte)) : State :=
  match slots with
  | none => s
  | some (a, b) => { s with flash := putFlash (putFlash (eraseFlash s.flash 0 0x20_0000) 0 (a.take 0x10_0000)) 0x10_0000 (b.take 0x10_0000) }

/-- RESET_RELEASE (R308, R462, R482): reset is released, UNIT_SEL is sampled, BOOT starts at STAGE 0 and FUSE reads its array. `slots`
are the boot slots where the flash device was programmed outside the unit. (DESIGN CHOICE, log 11; PRESUMED, log 149). -/
def execResetRelease (unitB : Bool) (slots : Option (List Byte × List Byte)) (s : State) : Result :=
  if s.clk.released then .next s
  else
    let t : State := { s.bootSlots slots with clk := { s.clk with released := true, releasedAt := s.time.elapsed }, unitB := unitB }
    let t := t.wrf .clkrst CLKRST.CLK_STS 1 1 1
    let t := t.wrn .fuse FUSE.FUSE_STS
      (b2n Config.debugDisable * 8 + b2n (decide (Config.bootKeyHash ≠ 0)) * 4 + b2n (decide (Config.prodRoot ≠ 0)) * 2 + 1)
    let t := (t.wr2 .fuse FUSE.DSN_LO Config.serial.toNat).wrn .fuse FUSE.FUSE_IDS
      (Config.mfrId.toNat * 65536 + Config.vendor.toNat)
    .next ((List.range 12).foldl (fun t k =>
      t.wrn .fuse (FUSE.KEYHASH k) (Config.bootKeyHash.toNat / 2 ^ (32 * k))) t)

/-! ### The reference (R457, R458) -/

/-- The holdover time that a REF_FAIL record carries, in ms. -/
def State.refRecord (s : State) (failed : Bool) (ms : Nat) : State :=
  (s.raise .clkrst 16).emit .clkrst 0x0C2 0 ([BitVec.ofNat 8 (b2n failed), 0, 0, 0] ++ leBytes 4 (min 0xFFFF_FFFF ms))

/-- REF_FAIL (R457): the reference is declared failed, its edges missing or (`edges`) its phase error too large; the root PLL
enters holdover. -/
def execRefFail (edges : Bool) (s : State) : Result :=
  if bit (s.rd .clkrst CLKRST.CLK_STS) 3 then .next s
  else
    let t := (s.wrf .clkrst CLKRST.CLK_STS 3 2 3).wrf .clkrst CLKRST.CLK_STS 1 1 (b2n edges)
    let t : State := { t with clk := { t.clk with refSince := t.time.elapsed, holdMs := 0 } }
    done s ((t.bump .clkrst CLKRST.REF_LOSSES).refRecord true 0)

/-- REF_RETURN (R458): the reference has been good for 10 ms and pull-in begins. -/
def execRefReturn (s : State) : Result :=
  if ¬ bit (s.rd .clkrst CLKRST.CLK_STS) 3 ∨ s.time.elapsed < s.clk.refSince + 10000000 * nsU then .next s
  else
    let t := (s.wrf .clkrst CLKRST.CLK_STS 3 3 0).wrf .clkrst CLKRST.CLK_STS 1 1 1
    .next { t with clk := { t.clk with holdMs := (t.time.elapsed - t.clk.refSince) / (1000000 * nsU) } }

/-- REF_FAIL_CLEAR (R458): the phase error has stayed below 0.1 ns for 10 ms. -/
def execRefFailClear (s : State) : Result :=
  if bits (s.rd .clkrst CLKRST.CLK_STS) 3 2 = 1 then
    done s ((s.wrf .clkrst CLKRST.CLK_STS 2 2 0).refRecord false s.clk.holdMs)
  else .next s

/-! ### SerDes PLLs (R455) -/

/-- A change of a SerDes PLL's lock: its bits, SD_LOCK_CHG and its record. -/
def State.sdLock (s : State) (n : Nat) (lock : Bool) : State :=
  let s := (s.wrf .clkrst CLKRST.CLK_STS (4 + n) (4 + n) (b2n lock)).wrn .clkrst (win (1 + n) CLKRSTW.PLL_STS) (b2n lock)
  ((s.raise .clkrst 17).raiseCell .clkrst (1 + n) 0).emitAt .clkrst (1 + n) 0x0C3 0 [BitVec.ofNat 8 n, BitVec.ofNat 8 (b2n lock)]

/-- SD_PLL_LOCK_LOSS (R455): while PLL 0 is out of lock the port links and the Hinge link are down, while PLL 1 is the PCIe
link. -/
def execSdPllLockLoss (n : Fin 2) (s : State) : Result :=
  if ¬ bit (s.rd .clkrst CLKRST.CLK_STS) (4 + n.val) then .next s
  else
    let t := (s.bump .clkrst (win (1 + n.val) CLKRSTW.LOCK_LOSSES)).sdLock n.val false
    done s (if n.val = 0 then ((List.range 5).foldl (fun t p => t.linkDown p) t).hingeDown else t.linkLost)

/-- SD_PLL_LOCK (R455): a SerDes PLL regains lock. -/
def execSdPllLock (n : Fin 2) (s : State) : Result :=
  if bit (s.rd .clkrst CLKRST.CLK_STS) (4 + n.val) then .next s else done s (s.sdLock n.val true)

/-! ### Supplies (R467 to R471) -/

/-- Rail `c` is below warning. -/
def State.railBelow (s : State) (c : Nat) : Bool := bit (s.rd .pwrmon PWRMON.PWR_STS) c

/-- The monitor of rail `c` is in service. -/
def State.watches (s : State) (c : Nat) : Bool := s.working .pwrmon && !s.quarantined .pwrmon c

/-- RAIL_BELOW_WARN (R468, R469): rail `c` has given WARN_FILT consecutive samples below RAIL_WARN, the last of `mv`.
(DEDUCED, log 108). -/
def execRailBelowWarn (c : Fin 9) (mv low : BitVec 12) (s : State) : Result :=
  if ¬ s.watches c.val ∨ s.railBelow c.val ∨ s.rail c.val PWRMONW.RAIL_WARN ≤ mv.toNat then .next s
  else
    let t := (s.flashHold.railSample c.val mv.toNat low.toNat).raiseCell .pwrmon c.val 0
    let t := (t.wrf .pwrmon PWRMON.PWR_STS c.val c.val 1).wrf .pwrmon PWRMON.PWR_STS 9 9 0
    let first := !s.pwrWarn
    let t := if s.clk.dipped.testBit c.val ∧ ¬ first then t
      else (t.bump .pwrmon (win c.val PWRMONW.RAIL_DIPS)).modClk (fun k => { k with dipped := k.dipped ||| 2 ^ c.val })
    if first then
      let t := (t.modClk (fun k => { k with
          dipped := 2 ^ c.val, minRail := c.val, minMv := min mv.toNat low.toNat, dipAt := t.time.elapsed })).wrf .pwrmon
        PWRMON.PWR_STS 31 31 1
      done s (((t.bump .pwrmon PWRMON.DIPS).raise .pwrmon 16).emit .pwrmon 0x0C0 0
        (leBytes 2 (bits (t.rd .pwrmon PWRMON.PWR_STS) 8 0)))
    else done s t

/-- RAIL_ABOVE_WARN (R468): a rail that was below warning gives a sample of `mv`, at or above RAIL_WARN + RAIL_HYST; with every
rail above warning the 100 µs run. -/
def execRailAboveWarn (c : Fin 9) (mv low : BitVec 12) (s : State) : Result :=
  if ¬ s.watches c.val ∨ ¬ s.railBelow c.val ∨ mv.toNat < s.rail c.val PWRMONW.RAIL_WARN + s.rail c.val PWRMONW.RAIL_HYST then .next s
  else
    let t := (s.railSample c.val mv.toNat low.toNat).wrf .pwrmon PWRMON.PWR_STS c.val c.val 0
    .next (if bits (t.rd .pwrmon PWRMON.PWR_STS) 8 0 = 0 then
        (t.wrf .pwrmon PWRMON.PWR_STS 9 9 1).modClk (fun k => { k with recAt := s.time.elapsed })
      else t)

/-- PWR_WARN_CLEAR (R469): every rail has been above warning for 100 µs without a break. -/
def execPwrWarnClear (s : State) : Result :=
  if ¬ s.working .pwrmon ∨ ¬ s.pwrWarn ∨ bits (s.rd .pwrmon PWRMON.PWR_STS) 8 0 ≠ 0 ∨ s.time.elapsed < s.clk.recAt + 100 * usU then
    .next s
  else
    let t := (s.wrn .pwrmon PWRMON.PWR_STS 0).raise .pwrmon 17
    let t : State := { t with clk := { t.clk with dipped := 0 } }
    done s (t.emit .pwrmon 0x0C1 0 (leBytes 2 s.clk.dipped ++ leBytes 1 s.clk.minRail ++ [0] ++ leBytes 2 s.clk.minMv ++ [0, 0] ++
      leBytes 4 (min 0xFFFF_FFFF ((s.time.elapsed - s.clk.dipAt) / nsU)) ++ leBytes 4 0))

/-- RAIL_BELOW_RESET (R468): rail `c` has given RST_FILT consecutive samples below RAIL_RST. -/
def execRailBelowReset (c : Fin 9) (mv : BitVec 12) (s : State) : Result :=
  if ¬ s.watches c.val ∨ s.rail c.val PWRMONW.RAIL_RST ≤ mv.toNat then .next s else .next (s.chipReset 2 (some c.val))

/-- TEMP_WARN (R470): the sensor of the block that `source` names (R366) rises above T_WARN. -/
def execTempWarn (source : BitVec 16) (code : BitVec 10) (s : State) : Result :=
  if ¬ s.working .pwrmon then .next s else
  let t := s.tempSample source.toNat code.toNat
  if (s.rd .pwrmon PWRMON.TEMP_CFG).toNat < code.toNat then
    done s ((t.raise .pwrmon 18).emit .pwrmon 0x0C5 0 (leBytes 2 source.toNat ++ leBytes 2 code.toNat))
  else .next t

/-! ### Registers (R464, R472 to R475) -/

/-- (DEDUCED, log 109). -/
def rstKeyRule : Rule where
  apply := fun s _ v =>
    if v = 0xC0DE_7720 then { s with clk := { s.clk with keyAt := some s.time.elapsed } } else s
/-- (DEDUCED, log 109). -/
def rstGoRule : Rule where
  check := fun s _ v =>
    if fld v 0 0 = 1 ∧ ¬ s.clk.keyAt.any (fun k => decide (s.time.elapsed ≤ k + 10 * usU)) then some E_RSTKEY else none
  apply := fun s _ v => if fld v 0 0 = 1 then s.chipReset 4 none else s

/-- RST_GO (R464): a write of RST_GO with GO. -/
def execRstGo (src : Src) (s : State) : Result := done s (s.writeReg rstGoRule src .clkrst CLKRST.RST_GO 1)

def clkClrRule : Rule where
  apply := fun s _ v =>
    if fld v 0 0 = 1 then s.zero .clkrst (CLKRST.REF_LOSSES :: (List.range 3).map (fun c => win c CLKRSTW.LOCK_LOSSES)) else s

/-- The rules of CLKRST's registers. -/
def clkrstRule (o : Nat) : Rule :=
  if o = CLKRST.RST_KEY then rstKeyRule
  else if o = CLKRST.RST_GO then rstGoRule
  else if o = CLKRST.CNT_CLR then clkClrRule
  else {}

/-- Nominal voltages of the rails in mV (R467). -/
def railNominal (c : Nat) : Nat := [750, 850, 1800, 900, 1200, 1050, 500, 1800, 3300].getD c 0

def pwrCfgRule : Rule where
  legal := fun _ _ v =>
    (if fld v 7 0 = 0 ∨ 100 < fld v 7 0 then [(0, E_RANGE)] else []) ++
    (if fld v 15 8 = 0 ∨ 100 < fld v 15 8 then [(8, E_RANGE)] else [])
def tempCfgRule : Rule where
  legal := fun s _ v => if s.rdf .pwrmon PWRMON.TEMP_STS 25 16 ≤ v then [(0, E_RANGE)] else []
def railWarnRule (c : Nat) : Rule where
  legal := fun _ _ v => if 98 * railNominal c < 100 * v then [(0, E_RANGE)] else []
  check := fun s _ v => if v < s.rail c PWRMONW.RAIL_RST + s.rail c PWRMONW.RAIL_HYST then some E_CONFLICT else none
def railRstRule (c : Nat) : Rule where
  legal := fun _ _ v =>
    if 100 * v < 90 * railNominal c ∨ 95 * railNominal c < 100 * v then [(0, E_RANGE)] else []
  check := fun s _ v => if s.rail c PWRMONW.RAIL_WARN < v + s.rail c PWRMONW.RAIL_HYST then some E_CONFLICT else none
def railHystRule : Rule where
  legal := fun _ _ v => if v = 0 ∨ 50 < v then [(0, E_RANGE)] else []
def pwrClrRule : Rule where
  apply := fun s _ v =>
    if fld v 0 0 = 0 then s
    else (List.range 9).foldl (fun t c => (t.wrn .pwrmon (win c PWRMONW.RAIL_MIN) 4095).wrn .pwrmon (win c PWRMONW.RAIL_DIPS) 0)
      (s.zero .pwrmon [PWRMON.DIPS])

/-- The rules of PWRMON's registers. -/
def pwrmonRule (o : Nat) : Rule :=
  if o = PWRMON.PWR_CFG then pwrCfgRule
  else if o = PWRMON.TEMP_CFG then tempCfgRule
  else if o = PWRMON.CNT_CLR then pwrClrRule
  else if 0x800 ≤ o then
    let c := (o - 0x800) / 0x80
    let w := (o - 0x800) % 0x80
    if w = PWRMONW.RAIL_WARN then railWarnRule c
    else if w = PWRMONW.RAIL_RST then railRstRule c
    else if w = PWRMONW.RAIL_HYST then railHystRule
    else {}
  else {}

/-! ### The debug port and the TAP (R310, R490, R494) -/

/-- DEBUG_UNLOCK (R310, R354): the unlock protocol ends on the TAP, completed or (`ok` false) failed; a stopped or isolated DEBUG
serves none (R27, R46). (DEDUCED, log 121). -/
def execDebugUnlock (ok : Bool) (s : State) : Result :=
  let t : State := { s with tap := .debug }
  if ¬ s.working .debug then .next t
  else if Config.debugDisable ∨ bit (s.rd .debug DEBUG.DBG_CTL) 0 ∨ ¬ ok then
    done s ((t.bumpf .debug DEBUG.DBG_STS 31 16).raise .debug 17)
  else if bit (s.rd .debug DEBUG.DBG_STS) 0 then .next t
  else done s (((t.wrf .debug DEBUG.DBG_STS 0 0 1).raise .debug 16).krUnlock)

/-- DBG_LOCKOUT (R310): a write of DBG_CTL with LOCKOUT. -/
def execDbgLockout (src : Src) (s : State) : Result := done s (s.writeReg {} src .debug DEBUG.DBG_CTL 1)

/-- A TAP instruction is loaded; one that takes the pads holds them until the next Test-Logic-Reset (R494). (DEDUCED, log 118). -/
def State.tapLoad (s : State) (i : Tap) : State := { s with tap := i, padsTaken := s.padsTaken || i.takesPads }

/-- BYPASS (R490). -/
def execBypass (s : State) : Result := .next (s.tapLoad .bypass)
/-- IDCODE (R490). -/
def execIdcode (s : State) : Result := .next (s.tapLoad .idcode)
/-- SAMPLE/PRELOAD (R490). -/
def execSamplePreload (s : State) : Result := .next (s.tapLoad .samplePreload)
/-- EXTEST (R494). -/
def execExtest (s : State) : Result := .next (s.tapLoad .extest)
/-- EXTEST_PULSE (R490, R494). -/
def execExtestPulse (s : State) : Result := .next (s.tapLoad .extestPulse)
/-- EXTEST_TRAIN (R490, R494). -/
def execExtestTrain (s : State) : Result := .next (s.tapLoad .extestTrain)
/-- CLAMP (R490, R494). -/
def execClamp (s : State) : Result := .next (s.tapLoad .clamp)
/-- HIGHZ (R490, R494). -/
def execHighz (s : State) : Result := .next (s.tapLoad .highz)
/-- TAP_RESET (R494): TRST_N, or the Test-Logic-Reset state: IDCODE is loaded and the pads return to the device.
(DEDUCED, log 118). -/
def execTapReset (s : State) : Result := .next { s with tap := .idcode, padsTaken := false }

/-- The word that the IDCODE instruction shifts out (R490). -/
def idcode : Word := BitVec.ofNat 32 (0xB * 2 ^ 28 + 0x7720 * 2 ^ 12 + Config.mfrId.toNat * 2 + 1)

end Sys2Proof.Machine
end

