-- ==== Sys2Proof/Machine/Guests.lean ====
section
/-! DEFINITION. Sys2Proof/Machine/Guests.lean: guest commands, patch sets and manager point commands as register writes and
their completions (R221, R222, R242, R243, R247, R253). -/
namespace Sys2Proof.Machine

/-! ### Guest commands -/

/-- GCMD (R253): BUSY rejects a write; an accepted one takes GCMD_CELLS and GCMD_IMG as they stand. -/
def gcmdRule (n : Nat) : Rule where
  busy := fun s _ _ => bit (s.rd (.exb n) EXB.GCMD_RESULT) 31
  apply := fun s _ v =>
    let job : GCmd := ⟨fld v 2 0, fld v 15 8, (s.rd (.exb n) EXB.GCMD_CELLS).toNat, s.rd2 (.exb n) EXB.GCMD_IMG_LO⟩
    ({ s with gcmds := Tbl.put n job s.gcmds } : State).wrn (.exb n) EXB.GCMD_RESULT (2 ^ 31 + 256 * fld v 15 8)

/-- A write of GCMD with an OP and a guest. -/
def State.gcmdWrite (s : State) (src : Src) (n op g : Nat) : State :=
  s.writeReg (gcmdRule n) src (.exb n) EXB.GCMD (BitVec.ofNat 32 (g * 256 + op))

/-- GCMD_LOAD (R242): a write of GCMD with OP 1 for guest `g` in block `n`. -/
def execGcmdLoad (src : Src) (n g : Nat) (s : State) : Result := done s (s.gcmdWrite src n 1 g)
/-- GCMD_START (R242): OP 2. -/
def execGcmdStart (src : Src) (n g : Nat) (s : State) : Result := done s (s.gcmdWrite src n 2 g)
/-- GCMD_STOP (R242): OP 3. -/
def execGcmdStop (src : Src) (n g : Nat) (s : State) : Result := done s (s.gcmdWrite src n 3 g)
/-- RESTART_WARM (R249): OP 4. -/
def execRestartWarm (src : Src) (n g : Nat) (s : State) : Result := done s (s.gcmdWrite src n 4 g)
/-- RESTART_COLD (R249): OP 5. -/
def execRestartCold (src : Src) (n g : Nat) (s : State) : Result := done s (s.gcmdWrite src n 5 g)
/-- GCMD_UNLOAD (R242): OP 6. -/
def execGcmdUnload (src : Src) (n g : Nat) (s : State) : Result := done s (s.gcmdWrite src n 6 g)
/-- GCMD_EXCHANGE (R242): OP 7. -/
def execGcmdExchange (src : Src) (n g : Nat) (s : State) : Result := done s (s.gcmdWrite src n 7 g)

/-- A guest command of block `n` completes: its checks, its effect, GCMD_RESULT and GCMD_DONE (R243). -/
def State.gcmdDone (s : State) (n : Nat) (j : GCmd) : State :=
  let bytes := if j.op = 1 ∨ j.op = 7 then s.imageAt j.img else []
  let s : State := { s with gcmds := Tbl.del n s.gcmds }
  let c := s.gcmdCheck j.op j.guest n j.mask bytes
  let s := match c with
    | some e => if e = E_DRAMUE then
        (s.ueRange (s.imgStore j.guest) 64 4) else s
    | none => s.carryOut j.op j.guest n j.mask bytes
  (s.wrn (.exb n) EXB.GCMD_RESULT (256 * j.guest + c.getD 0)).raise (.exb n) 19

/-- GCMD_DONE (R243): the guest command in progress on block `n` completes. With none in progress nothing happens.
An image that a command reads (one that an empty image would fail) must lie in DRAM. (DESIGN CHOICE, log 4). -/
def execGcmdDone (n : Nat) (s : State) : Result :=
  match Tbl.look n s.gcmds with
  | none => .next s
  | some j =>
    if (j.op = 1 ∨ j.op = 7) ∧ s.gcmdCheck j.op j.guest n j.mask [] = some E_IMAGE ∧ dramSize < j.img + (s.imageAt j.img).length then
      .fault (.dramOutsideSpace j.img)
    else done s (s.gcmdDone n j)

/-! ### Patch sets -/

/-- PATCH_CMD (R247, R253): starts the check of a set; a set whose check still runs excludes another. (DEDUCED, log 60). -/
def patchRule (n : Nat) : Rule where
  busy := fun s _ _ => (Tbl.look n s.patchJobs).isSome
  apply := fun s _ v =>
    { s with patchJobs := Tbl.put n ⟨fld v 15 8, [], none, s.rd2 (.exb n) EXB.PATCH_LIST_LO, fld v 6 0⟩ s.patchJobs }

/-- PATCH_CMD (R247): a write of PATCH_CMD for a guest and a count. -/
def execPatchCmd (src : Src) (n g count : Nat) (s : State) : Result :=
  done s (s.writeReg (patchRule n) src (.exb n) EXB.PATCH_CMD (BitVec.ofNat 32 (g * 256 + count)))

/-- The check of a set ends (R247, R248): refused, or pending until its apply cycle, which is the first cycle whose start tick
lies at least 2 µs after now; a mirrored active sends the set (R274). -/
def State.patchChecked (s : State) (n : Nat) (j : PatchSet) : State :=
  let s : State := { s with patchJobs := Tbl.del n s.patchJobs }
  match s.patchCheck n j.guest j.count j.addr with
  | some c =>
    (if c = E_BUSY then s.wrf (.exb n) EXB.PATCH_STS 7 0 c else s.wrn (.exb n) EXB.PATCH_STS (256 * j.guest + c)).raise
      (.exb n) 20
  | none =>
    let l := (s.patchWords j.addr j.count).map patchItem
    let per := match s.guest j.guest with | some x => x.img.n | none => 3
    let tick := s.startAfter per 2000
    let s : State := { s with patchPend := Tbl.put n { j with entries := l, tick := some tick } s.patchPend }
    let s := (s.wrn (.exb n) EXB.PATCH_STS (2 ^ 31 + 256 * j.guest)).raise (.exb n) 20
    if s.mirrored then s.ctlSend j.guest (cycleAt per tick) (.patch l tick) else s

/-- PATCH_CHECKED (R247): the check of the patch set of block `n` ends. A list that is read must lie in DRAM.
(DESIGN CHOICE, log 4). -/
def execPatchChecked (n : Nat) (s : State) : Result :=
  match Tbl.look n s.patchJobs with
  | none => .next s
  | some j =>
    if s.patchCode n j.guest j.count = none then guardDram j.addr (16 * j.count) (done s (s.patchChecked n j))
    else done s (s.patchChecked n j)

/-! ### Manager point commands -/

/-- PT_CMD (R222): READ and WRITE together conflict; WRITE needs CONFIGURE or TEST; BUSY rejects. The command takes PT_INDEX
and PT_DATA as they stand (R221). -/
def ptRule : Rule where
  legal := fun s _ v =>
    (if fld v 1 0 = 3 then [(0, E_CONFLICT)] else []) ++
    (if fld v 1 1 = 1 ∧ s.role.mode ≠ .configure ∧ s.role.mode ≠ .test then [(1, E_MODE)] else [])
  busy := fun s _ _ => bit (s.rd .point POINT.PT_STS) 31
  apply := fun s _ v =>
    if fld v 1 0 = 0 then s
    else
      ({ s with pointJob := some (fld v 1 1 == 1, (s.rd .point POINT.PT_INDEX).toNat, s.rd2 .point POINT.PT_DATA_LO) } :
        State).wrn .point POINT.PT_STS (2 ^ 31)

/-- PT_READ (R221): a write of PT_CMD with READ. -/
def execPtRead (src : Src) (s : State) : Result := done s (s.writeReg ptRule src .point POINT.PT_CMD 1)
/-- PT_WRITE (R221): a write of PT_CMD with WRITE. -/
def execPtWrite (src : Src) (s : State) : Result := done s (s.writeReg ptRule src .point POINT.PT_CMD 2)

/-- Whether a point is an output of a loaded guest. -/
def State.isOutput (s : State) (p : Nat) : Bool := s.guests.any (fun e => e.2.img.outs.any (fun o => o.point == p))

/-- A point command completes (R221). (DEDUCED, log 66). -/
def State.ptDone (s : State) (w : Bool) (p d : Nat) : State :=
  let s : State := { s with pointJob := none }
  let fin := fun (t : State) (c : Nat) => (t.wrn .point POINT.PT_STS c).raise .point 16
  if w then
    if s.isOutput p then fin s E_CONFLICT
    else
      let t := ((s.setPoint p (BitVec.ofNat 64 d)).bump .point POINT.MGR_WRITES).updateLine none (p / 8)
      fin { t with ptNow := (t.ptNow.1, t.ptNow.2 + 1) } 0
  else if s.poisoned (s.pointAddr p) 8 then fin (s.ueRange (s.pointAddr p) 8 1) E_DRAMUE
  else fin (s.wr2 .point POINT.PT_DATA_LO (s.point p).toNat) 0

/-- PT_DONE (R221): the point command in progress completes. -/
def execPtDone (s : State) : Result :=
  match s.pointJob with
  | none => .next s
  | some (w, p, d) => guardDram (s.pointAddr p) 8 (done s (s.ptDone w p d))

end Sys2Proof.Machine
end

