-- ==== Sys2Proof/Machine/Contain.lean ====
section
/-! DEFINITION. Sys2Proof/Machine/Contain.lean: fault containment by level (R26 to R31, R52, R53, R214, R215) and fault injection
(R54). -/
namespace Sys2Proof.Machine

/-- Guests that are HALTED. -/
def State.haltedCount (s : State) : Nat := (s.guests.filter (fun e => decide (e.2.st = .halted))).length

/-- The CONTAIN record of an action that took `old` to `s` (R26, R371): level, cause, the unit in SOURCE form, guests halted. -/
def State.containRec (s old : State) (p : Page) (cell level cause unit : Nat) : State :=
  s.emitAt p cell 0x014 0
    ([BitVec.ofNat 8 level, BitVec.ofNat 8 cause] ++ leBytes 2 unit ++ leBytes 2 (s.haltedCount - old.haltedCount))

/-- CAUSE of a page's FAULT_STS, and IRQ_STS.FAULT (R52, R53). (DESIGN CHOICE, log 25). -/
def State.faultAt (s : State) (p : Page) (cause : Nat) : State := (s.wrf p HDR.FAULT_STS 31 28 cause).raise p 24

/-- A chip-level fault (R26, R31, R52): the chip page shows it and the unit enters SAFE. (DEDUCED, log 26). -/
def State.chipLevel (s : State) (cause unit : Nat) : State :=
  (((s.wrf .chip HDR.FAULT_STS 16 16 1).faultAt .chip cause).chipFault).containRec s .chip 0 4 cause unit

/-- What stops with an isolated block (R27). -/
def State.blockLost (s : State) (p : Page) : State :=
  match p with
  | .port n => s.linkDown n
  | .mgmt => s.linkDown 4
  | .exb n | .pcache n => s.haltBlock n
  | .hinge => s.hingeDown
  | .adc =>
    -- the analog path stops: its points are invalid
    (List.range 16).foldl (fun t n =>
      if (t.fch n).state ≠ 0 ∧ bit (t.fc n FILTW.FC_OUT) 31 then
        t.filtWrite n ((t.fch n).last.getD ⟨0, 0, 0, 0, false, 0, 0, 0⟩) true
      else t) (((s.calCut E_LOCKED).syncStreams).modAna (fun a => { a with
        filt := Tbl.change {} (fun _ f => { f with held := none }) a.filt }))
  | .filt => (List.range 16).foldl (fun t n => t.filtStop n) s
  | .acq => (List.range 4).foldl (fun t u => t.acqStop u true) s
  | .ledger => s.writerStop.modLedger (fun l => { l with clr := none, token := [] })
  | .check => (List.range 4).foldl (fun t c => t.scanLost c) s
  | _ => s

/-- Marks of an isolated block in its page and its region's page; a soft reset in progress, half-written fields and latched words
end with it (R52, R53, R70). -/
def State.markIsolated (s : State) (p : Page) (self : Bool) (cause : Nat) : State :=
  let r := Page.ofRegion (Page.region p)
  let b := Page.block p
  let s : State := { s with
    srst := Tbl.del (Page.base p) s.srst,
    shadow := Tbl.keep (fun a => decide (a < Page.base p) || decide (Page.base p + 0x1000 ≤ a)) s.shadow,
    latch := Tbl.keep (fun k => decide (k % 2 ^ 33 < Page.base p) || decide (Page.base p + 0x1000 ≤ k % 2 ^ 33)) s.latch }
  if p = .chip then { s with chipLost := true }.faultAt p cause else
  let s := if self then s.wrf p HDR.FAULT_STS 16 16 1 else s
  ((s.faultAt p cause).wrf r HDR.FAULT_STS b b 1).faultAt r cause

/-- One isolation of a block, by itself or by its region, with its record and, where it is one, the chip-level fault. -/
def State.isolateOne (s : State) (p : Page) (self : Bool) (cause : Nat) : State :=
  if s.isolated p then s
  else
    let unit := sourceOf p 0
    let t := ((s.markIsolated p self cause).blockLost p).containRec s p 0 (if self then 2 else 3) cause unit
    if Page.essential p ∨ (self ∧ bits (s.rd p HDR.PAGE_CTL) 5 4 = 1) then t.chipLevel 6 unit else t

/-- Isolation of a block; the execution block goes with its point cache (R215). (DEDUCED, log 26, 28). -/
def State.isolate (s : State) (p : Page) (self : Bool) (cause : Nat) : State :=
  match p with
  | .pcache n => (s.isolateOne p self cause).isolateOne (.exb n) self cause
  | p => s.isolateOne p self cause

/-- What stops with a cell that a block can work without. (DEDUCED, log 27). -/
def State.cellLost (s : State) (p : Page) (c : Nat) : State :=
  match p with
  | .exb n =>
    (s.guests.filter (fun e => e.2.exb == n && e.2.mask.testBit c)).foldl (fun t e => t.haltGuest e.1 4 (t.counted e.2))
      (s.setCell (16 * n + c) { s.cell (16 * n + c) with run := .stopped })
  | .adc => (if bits (s.rd .adc ADC.CAL_SEL) 1 0 = c then s.calCut E_LOCKED else s).syncStreams
  | .filt => s.filtStop c
  | .acq => s.acqStop c true
  | .hinge => s.laneLoss c
  | .keyring => s.krQuarantine c
  | .crypto => s.engineLost c
  | .check => s.scanLost c
  | _ => s

/-- Blocks that cannot work without each of their cells (R27, R215); a memory channel takes its controller with it.
(DEDUCED, log 27). -/
def Page.needsCells (p : Page) : Bool :=
  match p with
  | .point | .pcache _ | .dramc _ => true
  | p => Page.cells p == 1

/-- A cell leaves service (R26, R52): by its own quarantine (level 0) or isolated by its block (level 1).
(DEDUCED, log 29, 111). -/
def State.quarantine (s : State) (p : Page) (c level cause : Nat) : State :=
  if ¬ Page.real p ∨ Page.cells p ≤ c ∨ s.isolated p ∨ s.quarantined p c then s
  else
    let t := (s.wrf p HDR.FAULT_STS c c 1).faultAt p cause
    let t := ((if Page.needsCells p then t else t.cellLost p c).containRec s p c level cause (sourceOf p c))
    if Page.needsCells p then t.isolate p true cause else t

/-- ECC_CORRECTED (R26, R215, R438): a single-symbol error in cell `c` of a block. -/
def execEccCorrected (p : Page) (c : Fin 16) (s : State) : Result :=
  if ¬ Page.real p ∨ Page.cells p ≤ c.val ∨ s.isolated p ∨ s.quarantined p c.val then .next s else .next (s.eccCorrect p c.val)

/-- ECC_UNCORRECTABLE (R26, R214): an uncorrectable or parity error in a cell. An error of a memory channel is never a
containment event (R438): its readers meet it. (DEDUCED, log 29). -/
def execEccUncorrectable (p : Page) (c : Fin 16) (s : State) : Result :=
  match p with
  | .dramc _ => .next s
  | p => done s (s.quarantine p c.val 0 1)

/-- STUCK_STATE (R26): a cell's checker finds a stuck state. -/
def execStuckState (p : Page) (c : Fin 16) (s : State) : Result := done s (s.quarantine p c.val 0 2)

/-- NO_RETIRE_TIMEOUT (R214): an execution cell retires nothing for 65,536 CLK_CELL cycles while it holds work.
(DEDUCED, log 59). -/
def execNoRetireTimeout (n c : Fin 16) (s : State) : Result :=
  if (s.cell (16 * n.val + c.val)).run = .running then done s (s.quarantine (.exb n.val) c.val 0 2) else .next s

/-- CELL_NO_RESPONSE (R26): a block isolates a cell that does not respond. -/
def execCellNoResponse (p : Page) (c : Fin 16) (s : State) : Result := done s (s.quarantine p c.val 1 3)

/-- A page of a block (R15): not another region's page or a guest page; CHIP is a block of region 0x0. -/
def Page.isBlock (p : Page) : Bool := Page.real p && (decide (p = .chip) || !Page.isRegion p) && !Page.isGuest p

/-- SHARED_RESOURCE_FAULT (R26, R27): a block isolates itself. (DEDUCED, log 119). -/
def execSharedResourceFault (p : Page) (s : State) : Result :=
  if Page.isBlock p then done s (s.isolate p true 4) else .next s

/-- BLOCK_NO_RESPONSE (R26): a region isolates a block that does not respond on its segment. (DEDUCED, log 119). -/
def execBlockNoResponse (p : Page) (s : State) : Result :=
  if Page.isBlock p then done s (s.isolate p false 3) else .next s

/-- SEGMENT_FAULT (R26, R52): a fault of a region's segment, or of the chip fabric (none). -/
def execSegmentFault (r : Option (Fin 10)) (s : State) : Result :=
  done s (s.chipLevel 5 (match r with | some r => 4096 * r.val | none => 0))

/-! ### Windows that close on a cell whose share is not complete (R202, R203, R208, R211, R214) -/

/-- The cells among `late` that hold work of the guests `gs` in a phase quarantine themselves (R214). (DEDUCED, log 135). -/
def State.shareLate (s : State) (gs late : List Nat) (ph : GPhase) : State :=
  (late.filter (fun c => s.guests.any (fun e => gs.contains e.1 && e.2.cellList.contains c && decide (e.2.st = .running) &&
    decide (e.2.phase = ph)))).foldl (fun t c => t.quarantine (.exb (c / 16)) (c % 16) 0 2) s

/-- FREEZE_CLOSE (R203, R214): the freeze window of guest `g` closes and every cell starts executing; the cells `late` have not
completed their freeze share. -/
def execFreezeClose (g : Nat) (late : List Nat) (s : State) : Result := done s ((s.shareLate [g] late .freeze).freezeClose g)

/-- COMMIT_DEADLINE (R211, R214): the watchdog checks guest `g` and its outputs are staged; the mirror readers of the cells `late` have
not done with the latest commit. -/
def execCommitDeadline (g : Nat) (late : List Nat) (s : State) : Result :=
  done s ((s.shareLate [g] late .execute).commitDeadline g)

/-- COMMIT_POINT (R208, R214): the guests `gs` reach their commit points at this instant; the cells `late` have not completed their
commit share. -/
def execCommitPoint (gs late : List Nat) (s : State) : Result :=
  done s ((s.shareLate gs late .commit).commitPoint gs).leaveDone

/-! ### Injection (R54) -/

/-- FAULT_CTL (R54). (DESIGN CHOICE, log 25). -/
def faultRule (p : Page) : Rule where
  legal := fun s _ v =>
    (if Page.cells p ≤ fld v 3 0 then [(0, E_RANGE)] else []) ++ (if fld v 5 4 = 3 then [(4, E_RANGE)] else []) ++
    (if fld v 8 8 = 1 ∧ s.role.mode ≠ .test then [(8, E_MODE)] else [])
  apply := fun s _ v =>
    if fld v 8 8 = 0 then s
    else
      let t := s.emit p 0x012 0 (leBytes 4 (Page.base p) ++ leBytes 4 v)
      if fld v 5 4 = 0 then t.eccCorrect p (fld v 3 0) else t.quarantine p (fld v 3 0) 0 7

end Sys2Proof.Machine
end

