-- ==== Sys2Proof/Machine/Pages.lean ====
section
/-! DEFINITION. Sys2Proof/Machine/Pages.lean: the common header's actions (R46, R47, R49, R51, R54, R55, R497), the remaining
chapters' registers, and the rule of each register of the device. -/
namespace Sys2Proof.Machine

/-! ### Soft reset (R47, R497) -/

/-- Registers of a page that a soft reset keeps (R47, R497): PAGE_ERR, PAGE_ERR_ADDR, FAULT_STS, what shows state kept outside the
registers or hardware outside the block's logic, and all of DEBUG and FUSE. (DEDUCED, log 24, 117). -/
def keptReg (p : Page) (o : Nat) : Bool :=
  o == HDR.PAGE_ERR || o == HDR.PAGE_ERR_ADDR || o == HDR.FAULT_STS ||
  match p with
  | .timeu => decide (0x880 ≤ o) && decide (o < 0xA80) && (o % 0x80 == TIMEUW.ING_LAT || o % 0x80 == TIMEUW.EGR_LAT)
  | .debug | .fuse => true
  | .clkrst => o == CLKRST.RST_CAUSE || o == CLKRST.RST_COUNT || o == CLKRST.CLK_STS ||
      (decide (0x800 ≤ o) && (o - 0x800) % 0x80 == CLKRSTW.PLL_STS)
  | .pwrmon => o == PWRMON.PWR_STS || o == PWRMON.TEMP_STS || (decide (0x800 ≤ o) && (o - 0x800) % 0x80 == PWRMONW.RAIL_MEAS)
  | .keyring => o == KEYRING.KR_STS || o == KEYRING.KR_SEQ_LO || o == KEYRING.KR_SEQ_HI || o == KEYRING.KR_STORE_STS ||
      o == KEYRING.KR_STORE_SEQ_LO || o == KEYRING.KR_STORE_SEQ_HI || o == KEYRING.KR_LOAD_STS
  | .ledger => o == LEDGER.LG_BASE_LO || o == LEDGER.LG_BASE_HI || o == LEDGER.LG_CFG || o == LEDGER.LG_CLEARS ||
      (decide (LEDGER.MET_CFG 0 ≤ o) && decide (o < LEDGER.MET_CFG 7))
  | .hostif => o == HOSTIF.HI_LINK || o == HOSTIF.HI_IDS
  | .flash => o == FLASH.FL_STS
  | .adc => o == ADC.VREF_MEAS || o == ADC.ADC_STS
  | .role => o == ROLE.ROLE_STS
  | _ => false

/-- The fields beside them that a kept register loses: PLAIN_LOCK alone stays of KR_CTL. (DEDUCED, log 117). -/
def State.resetRegs (s : State) (p : Page) : State :=
  let b := Page.base p
  let inPage := fun (a : Nat) => decide (b ≤ a) && decide (a < b + 0x1000)
  let lock := bit (s.rd .keyring KEYRING.KR_CTL) 8
  let t : State := { s with
    regs := Tbl.keep (fun a => !inPage a || keptReg p (a - b)) s.regs,
    shadow := Tbl.keep (fun a => !inPage a) s.shadow,
    latch := Tbl.keep (fun k => !inPage (k % 2 ^ 33)) s.latch }
  if p = .keyring ∧ lock then t.wrf .keyring KEYRING.KR_CTL 8 8 1 else t

/-- The histograms of a block's cells start anew, and the counts of corrected errors (R382, R497); LEDGER keeps them. -/
def State.resetHists (s : State) (p : Page) : State :=
  let own := fun (src : Nat) => src / 16 == sourceOf p 0 / 16
  let t : State := { s with ecc := Tbl.keep (fun k => !own k) s.ecc }
  if p = .ledger then t
  else t.modLedger (fun l => { l with
    hists := l.hists.map (fun e => if own (e.1 / 16) then (e.1, { gen := e.2.gen + 1 }) else e) })

/-- The account of a dip after PWRMON's soft reset: it begins anew with the rails that are below warning now. (DEDUCED, log 24). -/
def State.dipAnew (s : State) (k : ClkSt) : ClkSt :=
  let below := (List.range 9).filter (fun c => s.railBelow c)
  let low := below.foldl (fun (a : Nat × Nat) c => if s.rail c PWRMONW.RAIL_MEAS < a.2 then (c, s.rail c PWRMONW.RAIL_MEAS) else a) (0, 4095)
  { k with dipped := bits (s.rd .pwrmon PWRMON.PWR_STS) 8 0, minRail := low.1, minMv := low.2, dipAt := s.time.elapsed }

/-- What a soft reset returns of the state that a block holds outside its registers (R497); what a verification job holds is
CRYPTO's, not PORTER's. (DEDUCED, log 24). -/
def State.resetBlock (s old : State) (p : Page) : State :=
  match p with
  | .timeu =>
    let t := s.modTime (fun t => { t with slewPend := 0, capFifo := [], capSeq := 0, capLoss := false, txts := [], tio := [], cfgWait := [], pinCfg := [], tcTable := [] })
    (t.drivePps false s.now).toSync .free
  | .port n =>
    let t := if old.rdf (portPage n) PORT.PORT_CTL 3 0 ≠ s.rdf (portPage n) PORT.PORT_CTL 3 0 then s.linkDown n else s
    { t with nsq := Tbl.del n t.nsq }
  | .mgmt =>
    let t := if old.rdf .mgmt PORT.PORT_CTL 3 0 ≠ s.rdf .mgmt PORT.PORT_CTL 3 0 then s.linkDown 4 else s
    { t with nsq := Tbl.del 4 t.nsq }
  | .redun => { s with dd := [] }
  | .porter => { s with porter := { jobs := s.porter.jobs, jobNo := s.porter.jobNo, busyNow := s.porter.busyNow } }
  | .align => { s with align := {} }
  | .egress => { s with pubs := [], due := [], addrCount := [], pubJob := none, pubAccept := [], restoredPubs := [] }
  | .exb n => { s with
      exbLoad := Tbl.del n s.exbLoad,
      cells := Tbl.keep (fun c => decide (c / 16 ≠ n)) s.cells, gcmds := Tbl.del n s.gcmds,
      patchJobs := Tbl.del n s.patchJobs, patchPend := Tbl.del n s.patchPend }
  | .point => { s with pointJob := none, ptNow := (0, 0), preCommit := (0, []) }
  | .courier => { s.modCourier (fun c => { c with queues := [], engines := [], h2d := 0, d2h := 0 }) with
      -- the queue registers that each function sees in its own page are the block's queues too (R334)
      regs := Tbl.keep (fun a => !(decide (0x100_0000 ≤ a) && a / 0x1000 % 0x1000 == 2 && decide (0x40 ≤ a % 0x1000))) s.regs }
  | .hostif => s.modCourier (fun c => { c with
      fns := Tbl.change {} (fun _ f => ({ resets := f.resets, bme := f.bme, d3 := f.d3 } : FnSt)) c.fns })
  | .dramc n => { s with scrub := Tbl.del n s.scrub }
  | .adc => (s.modAna (fun a => { a with streams := [], cores := [], cal := {} })).syncStreams
  | .filt => s.modAna (fun a => { a with filt := [] })
  | .acq => s.modAna (fun a => { a with acq := Tbl.change {} (fun _ u => ({ seq := u.seq } : AcqUnit)) a.acq })
  | .hinge =>
    { s with hinge := { lock := s.hinge.lock, link := s.hinge.link } }
  | .check => { s with scans := [] }
  | .pwrmon => s.modClk (fun k => s.dipAnew k)
  | .clkrst => s.modClk (fun k => { k with keyAt := none })
  | .keyring => { s with keyring := { s.keyring with data := [] } }
  | .crypto => s.modPorter (fun x => { x with busyNow := [] })
  | .ledger => s.modLedger (fun l => { l with running := false, codeCfg := [], buckets := [], clr := none, token := [] })
  | .flash => ({ s with ckpt := {} } : State).showCopy
  | _ => s

/-- A soft reset of a block completes (R47, R497). (DEDUCED, log 22). -/
def State.softReset (s : State) (p : Page) : State :=
  let t : State := { s with srst := Tbl.del (Page.base p) s.srst }
  ((t.resetRegs p).resetHists p).resetBlock s p

/-! ### The header (R46, R47, R54, R55) -/

/-- What stops with a block whose ENABLE goes to 0, and starts when it goes to 1 (R46). -/
def State.enableChange (s : State) (p : Page) (on : Bool) : State :=
  match p with
  | .port n => if on then s else s.linkDown n
  | .mgmt => if on then s else s.linkDown 4
  | .hinge => if on then s else s.hingeDown
  | .adc => s.syncStreams
  | .filt => (List.range 16).foldl (fun t n =>
      if on then (if t.fcEn n ∧ (t.fch n).state = 0 ∧ ¬ t.quarantined .filt n then t.filtStart n else t) else t.filtStop n) s
  | .acq => (List.range 4).foldl (fun t u =>
      let x := t.unit u
      if on then
        if t.unitOn u ∧ x.state = 0 ∧ ¬ t.quarantined .acq u then
          t.setUnit u { x with state := 1, red := 1, prevLast := none, lastTrig := none }
        else t
      else t.acqStop u false) s
  | .ledger => if on then s else s.writerStop
  | .check => if on then s else (List.range 4).foldl (fun t c => if (t.scan c).busy then t.scanCut c E_ABORTED else t) s
  | _ => s

/-- PAGE_CTL (R46, R47, R68): an accepted soft reset, ENABLE change or CONTAIN change is recorded. (DEDUCED, log 23). -/
def pageCtlRule (p : Page) : Rule where
  legal := fun _ _ v =>
    (if fld v 1 1 = 1 ∧ Page.isRegion p then [(1, E_PERM)] else []) ++
    (if 2 ≤ fld v 5 4 ∧ ¬ Page.essential p then [(4, E_RANGE)] else [])
  busy := fun s _ v => decide (fld v 1 1 = 1) && (!s.idle p || Tbl.get false (Page.base p) s.srst)
  pre := fun s src v =>
    let old := (s.rd p HDR.PAGE_CTL).toNat
    let t := if old = v then s
      else s.emit p 0x011 0 (leBytes 4 (Page.base p) ++ leBytes 4 old ++ leBytes 4 v ++ leBytes 1 (srcCode src))
    if fld old 0 0 = fld v 0 0 then t else (t.wrf p HDR.PAGE_CTL 0 0 (fld v 0 0)).enableChange p (decide (fld v 0 0 = 1))
  apply := fun s _ v => if fld v 1 1 = 1 then { s with srst := Tbl.put (Page.base p) true s.srst } else s

/-- LEDGER_CTL (R55, R68): an accepted change is recorded. -/
def ledgerCtlRule (p : Page) : Rule where
  pre := fun s _ v =>
    let old := (s.rd p HDR.LEDGER_CTL).toNat
    if old = v then s else s.emit p 0x013 0 (leBytes 4 (Page.base p) ++ leBytes 4 old ++ leBytes 4 v)

/-- The five containment registers of a guest page read 0 and take no non-zero value (R42). -/
def headerRule (p : Page) (o : Nat) : Rule :=
  if Page.isGuest p then {}
  else if o = HDR.PAGE_CTL then pageCtlRule p
  else if o = HDR.FAULT_CTL then (if Page.isRegion p then {} else faultRule p)
  else if o = HDR.LEDGER_CTL then ledgerCtlRule p
  else {}

/-! ### Registers of the chapters that have no rule yet -/

/-- A CNT_CLR register: CLR clears the named counters. -/
def clrRule (p : Page) (os : List Nat) : Rule where
  apply := fun s _ v => if fld v 0 0 = 1 then s.zero p os else s

/-- The high word of an address that must be aligned. -/
def alignRangeRule (bytes : Nat) : Rule where
  legal := fun _ _ v => if v % bytes ≠ 0 then [(0, E_ALIGN)] else []

/-- The rules of ALIGN's registers (R192). -/
def alignRule (o : Nat) : Rule :=
  if o = ALIGN.STATUS_BASE then statusBaseRule
  else if o = ALIGN.LOCK_TOL then lockTolRule
  else if o = ALIGN.FILL_MARGIN then fillMarginRule
  else if o = ALIGN.CTX_SEL then ctxSelRule
  else if o = ALIGN.CNT_CLR then
    clrRule .align ([ALIGN.LATE, ALIGN.EARLY, ALIGN.DUP, ALIGN.TIMING, ALIGN.SUBST, ALIGN.RELOCKS, ALIGN.DISABLED_DROP] ++
      (List.range 4).flatMap (fun c => [win c ALIGNW.LANE_PEAK, win c ALIGNW.LANE_FULL]))
  else {}

/-- The rules of an execution block's registers (R217, R253). -/
def exbRule (n o : Nat) : Rule :=
  if o = EXB.CNT_CLR then
    clrRule (.exb n) ([EXB.OVERRUNS, EXB.PROG_FAULTS, EXB.LOCAL_LATE] ++ (List.range 16).map (fun c => win c EXBW.CELL_EXEC_MAX))
  else if o = EXB.GCMD_IMG_HI then alignRangeRule 64
  else if o = EXB.PATCH_LIST_HI then alignRangeRule 16
  else if o = EXB.GCMD then gcmdRule n
  else if o = EXB.PATCH_CMD then patchRule n
  else {}

/-- The rules of a point cache's registers (R220). -/
def pcacheRule (n o : Nat) : Rule :=
  if o = PCACHE.CNT_CLR then
    clrRule (.pcache n) ([PCACHE.MOVE_PEAK, PCACHE.UPDATES] ++ (List.range 8).map (fun c => win c PCACHEW.BANK_ECC_CORR))
  else {}

/-- The rules of POINT's registers (R222). -/
def pointRule (o : Nat) : Rule :=
  if o = POINT.PIMG_BASE_HI then alignRangeRule 0x1000_0000
  else if o = POINT.PT_CMD then ptRule
  else if o = POINT.CNT_CLR then
    clrRule .point ([POINT.INGRESS_WRITES, POINT.COMMIT_WRITES, POINT.MGR_WRITES] ++
      (List.range 2).map (fun c => win c POINTW.QUEUE_PEAK))
  else {}

/-- The rules of HINGE's registers (R288, R289). -/
def hingeRule (o : Nat) : Rule :=
  if o = HINGE.HINGE_CTL then hingeCtlRule
  else if o = HINGE.NET_CFG then netCfgRule
  else if o = HINGE.HB_VLAN then hbVlanRule
  else if o = HINGE.CNT_CLR then
    clrRule .hinge ([HINGE.IMG_ABSENT, HINGE.LINES_LATE, HINGE.DIVERGE, HINGE.FRAME_ERR, HINGE.CTL_RETRY, HINGE.NET_FOREIGN,
      HINGE.HB_LOSSES] ++ (List.range 4).flatMap (fun c => [win c HINGEW.LANE_SYNC_ERR, win c HINGEW.LANE_DOWNS]))
  else if 0x100 ≤ o ∧ o < 0x200 ∧ o % 8 = 4 then bulkRule ((o - 0x100) / 16) (decide (o % 16 = 12))
  else if 0x408 ≤ o ∧ o < 0xC00 ∧ o % 8 = 4 ∧ allowHeld ((o - 0x400) / 8) then allowRule ((o - 0x400) / 8)
  else {}

/-- The rules of ROLE's registers (R291): AUTO_RESYNC set takes effect at once. -/
def rolePageRule (o : Nat) : Rule :=
  if o = ROLE.ROLE_CMD then roleRule
  else if o = ROLE.ROLE_CTL then { apply := fun s _ _ => s.tryResync }
  else if o = ROLE.CNT_CLR then clrRule .role [ROLE.TAKEOVERS, ROLE.ISOLATIONS, ROLE.HINGE_LOSSES, ROLE.NET_LOSSES]
  else {}

/-- The rules of the chip page's registers (R306). -/
def chipRule (o : Nat) : Rule :=
  if o = CHIP.MODE_CMD then modeRule
  else if o = CHIP.PW_MS then { legal := fun _ _ v => if v < 1100 ∨ 60000 < v then [(0, E_RANGE)] else [] }
  else {}

/-- The rules of KEYRING's registers (R362). -/
def keyringRule (o : Nat) : Rule :=
  if o = KEYRING.KR_CMD then krCmdRule
  else if o = KEYRING.KR_CTL then krCtlRule
  else if o = KEYRING.KR_ARG0 ∨ o = KEYRING.KR_ARG1 ∨ o = KEYRING.KR_ARG2 then krArgRule
  else if KEYRING.KR_DATA 0 ≤ o ∧ o < KEYRING.KR_DATA 10 then krDataRule ((o - KEYRING.KR_DATA 0) / 4)
  else if o = KEYRING.CNT_CLR then
    clrRule .keyring ([KEYRING.CMDS_OK, KEYRING.CMDS_REFUSED, KEYRING.REMASKS, KEYRING.USES_REFUSED] ++
      (List.range 2).map (fun c => win c KEYRINGW.ENG_OPS))
  else {}

/-- The rule of a register. -/
def ruleFor (p : Page) (o : Nat) : Rule :=
  if o < 0x040 then headerRule p o
  else match p with
  | .chip => chipRule o
  | .clkrst => clkrstRule o
  | .pwrmon => pwrmonRule o
  | .flash => flashRule o
  | .ledger => ledgerRule o
  | .port n => portRule n o
  | .mgmt => portRule 4 o
  | .porter => porterRule o
  | .align => alignRule o
  | .egress => egressRule o
  | .timeu => timeuRule o
  | .redun => redunRule o
  | .keyring => keyringRule o
  | .crypto => cryptoRule o
  | .check => checkRule o
  | .exb n => exbRule n o
  | .pcache n => pcacheRule n o
  | .dramc n => dramcRule n o
  | .point => pointRule o
  | .courier => courierRule o
  | .hostif => hostifRule o
  | .adc => adcRule o
  | .filt => filtRule o
  | .acq => acqRule o
  | .hinge => hingeRule o
  | .role => rolePageRule o
  | .guest g q => guestRule g q o
  | .fuse | .boot | .debug | .region _ => {}

/-- A 32-bit write of a source to a register under the register's rule (R58). -/
def State.regWrite (s : State) (src : Src) (p : Page) (o : Nat) (w : Word) : State := s.writeReg (ruleFor p o) src p o w

end Sys2Proof.Machine
end

