-- ==== Sys2Proof/Machine/Regs.lean ====
section
/-! DEFINITION. Sys2Proof/Machine/Regs.lean: register accesses as commands (R36 to R38, R58, R332, R375), the header's commands (R46,
R47, R49, R51, R55), counter clears, and the end of boot (R302 to R304). -/
namespace Sys2Proof.Machine

/-! ### Accesses (R36, R37, R58) -/

/-- One 32-bit access of a write that meets R37. -/
def State.write32 (s : State) (src : Src) (a : Nat) (w : Word) : State :=
  match pageFor src a with
  | some (p, o) => s.regWrite src p o w
  | none => s.rejectAt src (errPage src a) a E_RANGE

/-- A write access: natural alignment at 32 or 64 bits with every byte enabled, or E_ALIGN in the page of its first byte (R37),
after the check of the address (R58). -/
def State.access (s : State) (src : Src) (a : Access) : State :=
  if a.full ∧ a.bytes = 4 ∧ a.addr % 4 = 0 then s.write32 src a.addr (a.data.setWidth 32)
  else if a.full ∧ a.bytes = 8 ∧ a.addr % 8 = 0 then
    (s.write32 src a.addr (a.data.setWidth 32)).write32 src (a.addr + 4) (BitVec.ofNat 32 (a.data.toNat / 2 ^ 32))
  else match pageFor src a.addr with
  | some (p, o) =>
    s.rejectAt src p a.addr (if noWindow p o then E_RANGE else E_ALIGN)
  | none => s.rejectAt src (errPage src a.addr) a.addr E_RANGE

/-- REG_WRITE (R58): a write of a source to its address space. -/
def execRegWrite (src : Src) (a : Access) (s : State) : Result := s.afterWrite (s.access src a)

/-- The registers that a read of one latches: the second of G_CYC_C (R332), head and tail of LG_HEAD_LO (R375), the high word of any
other low word (R38). -/
def latchSet (p : Page) (o : Nat) : List Nat :=
  match p with
  | .guest _ 0 => if o = GCTL.G_CYC_C then [GCTL.G_CYC_S_LO, GCTL.G_CYC_S_HI] else plain
  | .ledger =>
    if o = LEDGER.LG_HEAD_LO then
      [LEDGER.LG_HEAD_HI, LEDGER.LG_HEAD_OFS, LEDGER.LG_TAIL_LO, LEDGER.LG_TAIL_HI, LEDGER.LG_TAIL_OFS]
    else plain
  | _ => plain
where plain : List Nat := if (wideRegs p).contains o ∨ (wideReadOnly p).contains o then [o + 4] else []

/-- What a read of a register leaves: the latch that serves it is used up; a low word that no latch served latches what goes with it
(R37, R38). (DEDUCED, log 32). -/
def State.latchRead (s : State) (src : Src) (p : Page) (o : Nat) : State :=
  let k := srcKey src * 2 ^ 33 + Page.base p + o
  if (Tbl.look k s.latch).isSome then { s with latch := Tbl.del k s.latch }
  else (latchSet p o).foldl (fun t i => t.latchReg src p i) s

/-- A read of the register at an offset of a page, where reads reach it (R38, R53, R304). -/
def State.readAt (s : State) (src : Src) (p : Page) (o : Nat) : State :=
  if s.reaches src p ∧ ¬ (s.role.mode = .boot ∧ p ≠ .chip ∧ p ≠ .boot ∧ src ≠ .boot) ∧ ¬ (s.isolated p ∧ 0x040 ≤ o) then s.latchRead src p o
  else s

/-- The word that a read returns at an aligned address of a source's space (R36, R41). -/
def State.readWord (s : State) (src : Src) (a : Nat) : Word :=
  match pageFor src a with
  | some (p, o) => s.readReg src p o
  | none => 0

/-- What a read of the register at an aligned address leaves. -/
def State.readStep (s : State) (src : Src) (a : Nat) : State :=
  match pageFor src a with
  | some (p, o) => s.readAt src p o
  | none => s

/-- Reads of `n` registers from an aligned address, the lower address first: their bytes and what the reads leave (R37). -/
def State.readWords (s : State) (src : Src) (a : Nat) : Nat → List Byte × State
  | 0 => ([], s)
  | n + 1 =>
    let r := State.readWords (s.readStep src a) src (a + 4) n
    (leBytes 4 (s.readWord src a).toNat ++ r.1, r.2)

/-- A read of `n` bytes at any alignment: the addressed bytes, and what it leaves (R37). (DEDUCED, log 32). -/
def State.read (s : State) (src : Src) (a n : Nat) : List Byte × State :=
  let r := s.readWords src (a / 4 * 4) ((a % 4 + n + 3) / 4)
  ((r.1.drop (a % 4)).take n, r.2)

/-- LATCHING_READ (R38): a source reads the 4 bytes at an address. A low word latches its high word; a latched word is used up. -/
def execLatchingRead (src : Src) (a : Nat) (s : State) : Result := .next (s.read src a 4).2

/-- G_CYC_C_READ (R332): a function reads G_CYC_C of its own page. -/
def execGCycCRead (g : Fin 256) (s : State) : Result := .next (s.readAt (.fn g.val) (.guest g.val 0) GCTL.G_CYC_C)

/-- LG_HEAD_READ (R375): a source reads LG_HEAD_LO. -/
def execLgHeadRead (src : Src) (s : State) : Result := .next (s.readAt src .ledger LEDGER.LG_HEAD_LO)

/-! ### The header's commands -/

/-- SOFT_RESET (R47): a write of PAGE_CTL with SRST, its other fields as they stand. (DEDUCED, log 22). -/
def execSoftReset (src : Src) (p : Page) (s : State) : Result :=
  done s (s.regWrite src p HDR.PAGE_CTL (s.rd p HDR.PAGE_CTL ||| 2))

/-- SOFT_RESET_DONE (R47, R497): a soft reset that runs completes. -/
def execSoftResetDone (p : Page) (s : State) : Result :=
  if Page.isBlock p ∧ Tbl.get false (Page.base p) s.srst then done s (s.softReset p) else .next s

/-- PAGE_ENABLE_CHG (R46): a write of PAGE_CTL with ENABLE. -/
def execPageEnableChg (src : Src) (p : Page) (en : Bool) (s : State) : Result :=
  done s (s.regWrite src p HDR.PAGE_CTL (setBit (s.rd p HDR.PAGE_CTL) 0 en))

/-- PAGE_CONTAIN_CHG (R46): a write of PAGE_CTL with CONTAIN. -/
def execPageContainChg (src : Src) (p : Page) (v : BitVec 2) (s : State) : Result :=
  done s (s.regWrite src p HDR.PAGE_CTL (setBits (s.rd p HDR.PAGE_CTL) 5 4 v.toNat))

/-- PAGE_ERR_CLEAR (R49): a write of PAGE_ERR with bit 31 set. -/
def execPageErrClear (src : Src) (p : Page) (s : State) : Result := done s (s.regWrite src p HDR.PAGE_ERR 0x8000_0000)

/-- IRQ_SET_WRITE (R51). -/
def execIrqSetWrite (src : Src) (p : Page) (w : Word) (s : State) : Result := done s (s.regWrite src p HDR.IRQ_SET w)

/-- IRQ_STS_CLEAR (R51): bits [31:16] of `w` are cleared; SUM is written as it reads. -/
def execIrqStsClear (src : Src) (p : Page) (w : Word) (s : State) : Result :=
  done s (s.regWrite src p HDR.IRQ_STS (setBits w 15 0 (bits (s.view p HDR.IRQ_STS) 15 0)))

/-- LEDGER_CTL_WRITE (R55). -/
def execLedgerCtlWrite (src : Src) (p : Page) (w : Word) (s : State) : Result := done s (s.regWrite src p HDR.LEDGER_CTL w)

/-- FAULT_INJECT (R54): a write of FAULT_CTL with GO. -/
def execFaultInject (src : Src) (p : Page) (kind : BitVec 2) (cell : BitVec 4) (s : State) : Result :=
  done s (s.regWrite src p HDR.FAULT_CTL (BitVec.ofNat 32 (256 + 16 * kind.toNat + cell.toNat)))

/-- Offset of a page's CNT_CLR register; REDUN has one in each window `c`. -/
def cntClr (p : Page) (c : Nat) : Option Nat :=
  match p with
  | .port _ | .mgmt => some PORT.CNT_CLR
  | .redun => some (win c REDUNW.CNT_CLR)
  | .porter => some PORTER.CNT_CLR
  | .crypto => some CRYPTO.CNT_CLR
  | .align => some ALIGN.CNT_CLR
  | .exb _ => some EXB.CNT_CLR
  | .pcache _ => some PCACHE.CNT_CLR
  | .point => some POINT.CNT_CLR
  | .hinge => some HINGE.CNT_CLR
  | .role => some ROLE.CNT_CLR
  | .courier => some COURIER.CNT_CLR
  | .keyring => some KEYRING.CNT_CLR
  | .ledger => some LEDGER.CNT_CLR
  | .check => some CHECK.CNT_CLR
  | .adc => some ADC.CNT_CLR
  | .filt => some 0x040
  | .acq => some ACQ.CNT_CLR
  | .dramc _ => some DRAMC.CNT_CLR
  | .hostif => some HOSTIF.HI_CNT_CLR
  | .clkrst => some CLKRST.CNT_CLR
  | .pwrmon => some PWRMON.CNT_CLR
  | _ => none

/-- COUNTER_CLEAR (R125 and each block's table): a write of CNT_CLR with CLR. -/
def execCounterClear (src : Src) (p : Page) (c : Fin 2) (s : State) : Result :=
  match cntClr p c.val with
  | some o => done s (s.regWrite src p o 1)
  | none => .next s

end Sys2Proof.Machine
end

