-- ==== Sys2Proof/Machine/Boot.lean ====
section
/-! DEFINITION. Sys2Proof/Machine/Boot.lean: the boot sequencer (R302 to R304, R307, R308): boot slots, images, their writes, and
the end of boot. -/
namespace Sys2Proof.Machine

abbrev E_BOOTIMG : Nat := 0x52
abbrev E_BOOTSIG : Nat := 0x53
abbrev E_BOOTAPPLY : Nat := 0x54
abbrev E_BOOTFAULT : Nat := 0x55

/-- The write entries of a boot image: BAR0 offset, the byte above it, and value (R303). -/
def bootWrites (b : List Byte) : List (Nat × Nat × Word) :=
  (List.range (leAt b 0x10 4)).map (fun i =>
    (leAt b (0x40 + 8 * i) 3, leAt b (0x43 + 8 * i) 1, BitVec.ofNat 32 (leAt b (0x44 + 8 * i) 4)))

/-- The structure of a boot image (R303): MAGIC, LEN and CRC; the entries end before the key, the profile is known, the reserved bytes
are 0. (DEDUCED, log 77). -/
def bootLayoutOk (b : List Byte) : Bool :=
  let len := leAt b 4 4
  bootImageOk b && decide (0x40 + 8 * leAt b 0x10 4 ≤ len - 256) && decide (leAt b 0x14 4 ≤ 3) &&
    ((b.drop 0x20).take 32).all (fun x => x == 0) && (bootWrites b).all (fun e => e.2.1 == 0) &&
    ((b.drop (len - 159)).take 63).all (fun x => x == 0)

/-- The key hash that FUSE read (R308). -/
def State.bootHash (s : State) : List Byte :=
  (List.range 12).flatMap (fun k => leBytes 4 (s.rd .fuse (FUSE.KEYHASH k)).toNat)

/-- The signature of an image (R302): the SHA-384 of its key is the fuses' hash, and it verifies over all bytes before the key. -/
def bootSigned (hash b : List Byte) : Bool :=
  let len := leAt b 4 4
  let key := (b.drop (len - 256)).take 97
  decide (sha384 key = hash) && ecdsaOk key (b.take (len - 256)) ((b.drop (len - 96)).take 96)

/-- The image in a boot slot (R302, R445). -/
def State.bootImage (s : State) (n : Nat) : List Byte :=
  s.readFlash (n * 0x10_0000) (min 0x10_0000 (leAt (s.readFlash (n * 0x10_0000) 8) 4 4))

/-- The sequencer's writes in order (R302): `n` of them have been accepted; the offset of the first that is rejected, if one is.
(DEDUCED, log 19, 76). -/
def State.bootApply (s : State) (n : Nat) : List (Nat × Nat × Word) → Option Nat × Nat × State
  | [] => (none, n, s)
  | (a, _, w) :: r =>
    let t := s.access .boot { addr := a, bytes := 4, data := w.setWidth 64, full := true }
    match pageFor .boot a with
    | some (p, o) => if a % 4 = 0 ∧ (s.verdict (ruleFor p o) .boot p o w).isNone then State.bootApply t (n + 1) r else (some a, n, t)
    | none => (some a, n, t)

/-- What trying a slot comes to: its failure code, 0 where it is used, with the offset of a rejected write, the writes applied, and the
state it leaves. -/
structure BootTry where
  code : Nat
  addr : Nat
  count : Nat
  after : State

/-- One slot is tried (R302 to R304): the image, its signature unless the fuses' hash is blank, DRAM training and zeroing, the writes.
What a failed slot wrote stays. (DEDUCED, log 77). -/
def State.bootTry (s : State) (n : Nat) (trained : Bool) : BootTry :=
  let b := s.bootImage n
  let hash := s.bootHash
  if ¬ bootLayoutOk b then ⟨E_BOOTIMG, 0, 0, s⟩
  else if hash.any (fun x => x != 0) ∧ ¬ bootSigned hash b then ⟨E_BOOTSIG, 0, 0, s⟩
  else if ¬ trained then ⟨E_BOOTFAULT, 0, 0, s⟩
  else match ({ s with dram := [], poison := [] } : State).bootApply 0 (bootWrites b) with
  | (none, k, t) => ⟨0, 0, k, t⟩
  | (some a, k, t) => ⟨E_BOOTAPPLY, a, k, t⟩

/-- The slot tried first: the higher SEQ; the first slot at equal SEQ. (DESIGN CHOICE, log 148). -/
def State.bootFirst (s : State) : Nat := if s.bootSeq 0 < s.bootSeq 1 then 1 else 0

/-- Both tries of a boot: the slot tried last, the failure code of the first if it failed, and the last try. -/
def State.bootTries (s : State) (trained trained2 : Bool) : Nat × Option BootTry × BootTry :=
  let first := s.bootFirst
  let x := s.bootTry first trained
  if x.code = 0 then (first, none, x) else (1 - first, some x, x.after.bootTry (1 - first) trained2)

/-- BOOT's registers at the end of boot (R307). -/
def State.bootShow (s : State) (stage slot : Nat) (failed : Option BootTry) (x : BootTry) : State :=
  let bad := if x.code ≠ 0 then some x else failed
  let blank := ! s.bootHash.any (fun b => b != 0)
  let t := s.wrn .boot BOOT.BOOT_STS (stage * 2 ^ 28 + slot * 2 ^ 24 + b2n (blank && x.code != E_BOOTIMG) * 2 ^ 17 +
    b2n failed.isSome * 65536 + (bad.map BootTry.code).getD 0)
  let t := ((t.wrn .boot BOOT.BOOT_SEQ0 (s.bootSeq 0)).wrn .boot BOOT.BOOT_SEQ1 (s.bootSeq 1)).wrn .boot BOOT.BOOT_WRITES x.count
  t.wrn .boot BOOT.BOOT_FAIL_ADDR ((bad.map BootTry.addr).getD 0)

/-- The PLLs are locked (R304). -/
def State.pllsLocked (s : State) : State :=
  let t := s.wrn .clkrst CLKRST.CLK_STS (bits (s.rd .clkrst CLKRST.CLK_STS) 3 1 * 2 + 0x31)
  (List.range 3).foldl (fun t c => t.wrn .clkrst (win c CLKRSTW.PLL_STS) 1) t

/-- What the end of boot leaves (R302 to R304, R307): the flash as found, DRAM all zeros, the PLLs locked, the image's writes
applied, BOOT's registers, the key store loaded (R359), the checkpoint copies found, CONFIGURE. (DEDUCED, log 76). -/
def State.bootEnd (s : State) (slot : Nat) (failed : Option BootTry) (x : BootTry) (log2 : Nat) : State :=
  let b := s.bootImage slot
  let t := x.after.wrn .flash FLASH.FL_STS (log2 * 65536 + 1)
  let t := (t.pllsLocked.bootShow 6 slot failed x).wrn .boot BOOT.BOOT_TIME ((s.time.elapsed - s.clk.releasedAt) / (1000 * nsU) % 2 ^ 20)
  let t := t.wr2 .boot BOOT.BOOT_ID_LO (leAt b 0x18 8)
  (t.loadStore.showCopy).toMode .configure 1

/-- BOOT_DONE (R302): the sequencer has used a slot and the unit enters CONFIGURE. `trained` and `trained2` tell whether DRAM trains with
the profile of the slot tried first and of the other; `log2` gives the size of the flash found, 2^26 to 2^30. Where both slots fail,
this does not happen. (DEDUCED, log 77). -/
def execBootDone (trained trained2 : Bool) (log2 : Fin 5) (s : State) : Result :=
  let x := s.bootTries trained trained2
  if s.booting ∧ x.2.2.code = 0 then done s (s.bootEnd x.1 x.2.1 x.2.2 (26 + log2.val)) else .next s

/-- BOOT_FAIL (R302, R308): both slots fail, or a fuse word could not be read, and the unit stays in BOOT with STAGE 7. Where a slot can
be used, this does not happen. (DEDUCED, log 77). -/
def execBootFail (trained trained2 fuse : Bool) (s : State) : Result :=
  let x := s.bootTries trained trained2
  if ¬ s.booting then .next s
  else if fuse then
    .next (((s.wrf .boot BOOT.BOOT_STS 31 28 7).wrf .boot BOOT.BOOT_STS 7 0 E_BOOTFAULT).wrf .fuse FUSE.FUSE_STS 4 4 1)
  else if x.2.2.code = 0 then .next s
  else done s (x.2.2.after.pllsLocked.bootShow 7 x.1 x.2.1 x.2.2)

end Sys2Proof.Machine
end

