-- ==== Sys2Proof/Machine/Flags.lean ====
section
/-! DEFINITION. Sys2Proof/Machine/Flags.lean: the sticky flag word FPS and the floating-point operand forms that set it
(R229, R233, R234). -/
namespace Sys2Proof.Machine

/-- Set in FPS the bits of the exceptions an operation raised; they stay set (R233). -/
def Cell.raiseFp (x : Cell) (f : FFlags) : Cell := { x with fps := x.fps ||| flagBits f }

/-- The format of a precision bit. -/
def fmtOf : Prec → Fmt
  | .single => fmt32
  | .double => fmt64

/-- An operand of a format in a 64-bit register or lane: all of it, or bits [31:0]. -/
def fpIn (p : Prec) (v : DWord) : Nat :=
  match p with
  | .single => v.toNat % 2 ^ 32
  | .double => v.toNat

/-- A two-operand floating-point function on general registers. -/
def fp2 (c : Nat) (p : Prec) (d a b : RegNo) (s : State) (f : Fmt → Nat → Nat → Nat × FFlags) : Result :=
  cellOp c s (fun x =>
    let r := f (fmtOf p) (fpIn p (x.rd a)) (fpIn p (x.rd b))
    (x.wr d (BitVec.ofNat 64 r.1)).raiseFp r.2)

/-- A one-operand floating-point function whose operand `opd` takes from the register. -/
def fp1 (c : Nat) (d a : RegNo) (s : State) (f : DWord → Nat × FFlags) : Result :=
  cellOp c s (fun x =>
    let r := f (x.rd a)
    (x.wr d (BitVec.ofNat 64 r.1)).raiseFp r.2)

/-- A three-operand function on general registers. -/
def fp3 (c : Nat) (p : Prec) (d a b e : RegNo) (s : State) (f : Fmt → Nat → Nat → Nat → Nat × FFlags) : Result :=
  cellOp c s (fun x =>
    let r := f (fmtOf p) (fpIn p (x.rd a)) (fpIn p (x.rd b)) (fpIn p (x.rd e))
    (x.wr d (BitVec.ofNat 64 r.1)).raiseFp r.2)

/-- The flags of all eight lanes. -/
def laneFlags (f : Nat → FFlags) : FFlags := (List.range 8).foldl (fun a n => orFlags a (f n)) {}

/-- A lane-wise function of two vector registers: each lane gives a value and flags. -/
def vec2 (c : Nat) (d a b : RegNo) (s : State) (f : DWord → DWord → DWord × FFlags) : Result :=
  cellOp c s (fun x =>
    let va := x.vrd a
    let vb := x.vrd b
    let r := fun n => f (laneOf va n) (laneOf vb n)
    (x.vwr d (vecOf (fun n => (r n).1))).raiseFp (laneFlags (fun n => (r n).2)))

/-- A lane function of a type: `fi` for integer lanes, `ff` for floating-point lanes (R234). -/
def laneFn (t : Lane) (fi : DWord → DWord → DWord) (ff : Fmt → Nat → Nat → Nat × FFlags) (x y : DWord) : DWord × FFlags :=
  match t with
  | .int => (fi x y, {})
  | .single => let r := ff fmt32 (fpIn .single x) (fpIn .single y); (BitVec.ofNat 64 r.1, r.2)
  | .double => let r := ff fmt64 (fpIn .double x) (fpIn .double y); (BitVec.ofNat 64 r.1, r.2)

/-- The lane type of a floating-point precision. -/
def laneOfPrec : Prec → Lane
  | .single => .single
  | .double => .double

/-- A comparison's lane value: all ones of the lane, or of bits [31:0] for binary32 (R234). -/
def laneTrue (t : Lane) (r : Nat × FFlags) : Nat × FFlags :=
  (if r.1 = 0 then 0 else match t with | .single => 0xFFFF_FFFF | _ => 2 ^ 64 - 1, r.2)

end Sys2Proof.Machine
end

