-- ==== Sys2Proof/Machine/IsaFloat.lean ====
section
/-! DEFINITION. Sys2Proof/Machine/IsaFloat.lean: floating-point instructions of set 0x0001 (R231, R233). -/
namespace Sys2Proof.Machine

/-- FADD (R233): d ← a + b. -/
def execFadd (c : Nat) (p : Prec) (d a b : RegNo) (s : State) : Result := fp2 c p d a b s fAdd
/-- FSUB (R233): d ← a − b. -/
def execFsub (c : Nat) (p : Prec) (d a b : RegNo) (s : State) : Result := fp2 c p d a b s fSub
/-- FMUL (R233): d ← a × b. -/
def execFmul (c : Nat) (p : Prec) (d a b : RegNo) (s : State) : Result := fp2 c p d a b s fMul
/-- FDIV (R233): d ← a / b. -/
def execFdiv (c : Nat) (p : Prec) (d a b : RegNo) (s : State) : Result := fp2 c p d a b s fDiv
/-- FMIN (R233): d ← minimumNumber(a, b). -/
def execFmin (c : Nat) (p : Prec) (d a b : RegNo) (s : State) : Result := fp2 c p d a b s (fun f => fMinMax f false)
/-- FMAX (R233): d ← maximumNumber(a, b). -/
def execFmax (c : Nat) (p : Prec) (d a b : RegNo) (s : State) : Result := fp2 c p d a b s (fun f => fMinMax f true)
/-- FEQ (R233): d ← 1 when a = b, quiet. -/
def execFeq (c : Nat) (p : Prec) (d a b : RegNo) (s : State) : Result := fp2 c p d a b s fEq
/-- FLT (R233): d ← 1 when a < b, signalling. -/
def execFlt (c : Nat) (p : Prec) (d a b : RegNo) (s : State) : Result := fp2 c p d a b s fLt
/-- FLE (R233): d ← 1 when a ≤ b, signalling. -/
def execFle (c : Nat) (p : Prec) (d a b : RegNo) (s : State) : Result := fp2 c p d a b s fLe
/-- FSQRT (R233): d ← square root of a. -/
def execFsqrt (c : Nat) (p : Prec) (d a : RegNo) (s : State) : Result := fp1 c d a s (fun v => fSqrt (fmtOf p) (fpIn p v))
/-- FABS (R233): d ← a with its sign bit cleared. -/
def execFabs (c : Nat) (p : Prec) (d a : RegNo) (s : State) : Result := fp1 c d a s (fun v => (fAbs (fmtOf p) (fpIn p v), {}))
/-- FNEG (R233): d ← a with its sign bit inverted. -/
def execFneg (c : Nat) (p : Prec) (d a : RegNo) (s : State) : Result := fp1 c d a s (fun v => (fNeg (fmtOf p) (fpIn p v), {}))
/-- FTOI (R233): d ← a to a signed 64-bit integer, toward zero. -/
def execFtoi (c : Nat) (p : Prec) (d a : RegNo) (s : State) : Result := fp1 c d a s (fun v => fToI (fmtOf p) (fpIn p v))
/-- ITOF (R233): d ← the signed 64-bit integer a in the format. -/
def execItof (c : Nat) (p : Prec) (d a : RegNo) (s : State) : Result := fp1 c d a s (fun v => iToF (fmtOf p) v.toNat)
/-- WIDEN (R233): d ← the binary32 a converted to binary64. -/
def execWiden (c : Nat) (d a : RegNo) (s : State) : Result := fp1 c d a s (fun v => fConv fmt32 fmt64 (fpIn .single v))
/-- NARROW (R233): d ← the binary64 a converted to binary32. -/
def execNarrow (c : Nat) (d a : RegNo) (s : State) : Result := fp1 c d a s (fun v => fConv fmt64 fmt32 (fpIn .double v))
/-- FMA (R231): d ← a × b + c with one rounding. -/
def execFma (c : Nat) (p : Prec) (d a b e : RegNo) (s : State) : Result := fp3 c p d a b e s fFma
/-- FMS (R231): d ← a × b − c with one rounding. -/
def execFms (c : Nat) (p : Prec) (d a b e : RegNo) (s : State) : Result := fp3 c p d a b e s fFms

end Sys2Proof.Machine
end

