-- ==== Sys2Proof/Machine/IsaMem.lean ====
section
/-! DEFINITION. Sys2Proof/Machine/IsaMem.lean: loads, stores, branches and jumps of set 0x0001 (R197, R198, R230, R231). -/
namespace Sys2Proof.Machine

/-- The value of loaded bytes, zero-extended. -/
def zext (l : List Byte) : DWord := BitVec.ofNat 64 (ofLe l)
/-- The value of loaded bytes, sign-extended. -/
def sext (l : List Byte) : DWord := BitVec.ofInt 64 (signed (8 * l.length) (ofLe l))
/-- LDBU (R231): d ← 1 byte(s) at a + IMM, zero-extended. -/
def execLdbu (c : Nat) (d a : RegNo) (imm : BitVec 16) (s : State) : Result :=
  loadOp c 1 a imm s (fun x l => x.wr d (zext l))
/-- LDBS (R231): d ← 1 byte(s) at a + IMM, sign-extended. -/
def execLdbs (c : Nat) (d a : RegNo) (imm : BitVec 16) (s : State) : Result :=
  loadOp c 1 a imm s (fun x l => x.wr d (sext l))
/-- LDHU (R231): d ← 2 byte(s) at a + IMM, zero-extended. -/
def execLdhu (c : Nat) (d a : RegNo) (imm : BitVec 16) (s : State) : Result :=
  loadOp c 2 a imm s (fun x l => x.wr d (zext l))
/-- LDHS (R231): d ← 2 byte(s) at a + IMM, sign-extended. -/
def execLdhs (c : Nat) (d a : RegNo) (imm : BitVec 16) (s : State) : Result :=
  loadOp c 2 a imm s (fun x l => x.wr d (sext l))
/-- LDWU (R231): d ← 4 byte(s) at a + IMM, zero-extended. -/
def execLdwu (c : Nat) (d a : RegNo) (imm : BitVec 16) (s : State) : Result :=
  loadOp c 4 a imm s (fun x l => x.wr d (zext l))
/-- LDWS (R231): d ← 4 byte(s) at a + IMM, sign-extended. -/
def execLdws (c : Nat) (d a : RegNo) (imm : BitVec 16) (s : State) : Result :=
  loadOp c 4 a imm s (fun x l => x.wr d (sext l))
/-- LDD (R231): d ← 8 byte(s) at a + IMM, zero-extended. -/
def execLdd (c : Nat) (d a : RegNo) (imm : BitVec 16) (s : State) : Result :=
  loadOp c 8 a imm s (fun x l => x.wr d (zext l))
/-- STB (R231): the low 1 byte(s) of register d are stored at a + IMM. -/
def execStb (c : Nat) (d a : RegNo) (imm : BitVec 16) (s : State) : Result :=
  storeOp c 1 a imm s (fun x => leBytes 1 (x.rd d).toNat)
/-- STH (R231): the low 2 byte(s) of register d are stored at a + IMM. -/
def execSth (c : Nat) (d a : RegNo) (imm : BitVec 16) (s : State) : Result :=
  storeOp c 2 a imm s (fun x => leBytes 2 (x.rd d).toNat)
/-- STW (R231): the low 4 byte(s) of register d are stored at a + IMM. -/
def execStw (c : Nat) (d a : RegNo) (imm : BitVec 16) (s : State) : Result :=
  storeOp c 4 a imm s (fun x => leBytes 4 (x.rd d).toNat)
/-- STD (R231): the low 8 byte(s) of register d are stored at a + IMM. -/
def execStd (c : Nat) (d a : RegNo) (imm : BitVec 16) (s : State) : Result :=
  storeOp c 8 a imm s (fun x => leBytes 8 (x.rd d).toNat)
/-- VLD (R231): vector register d ← the 64 bytes at a + IMM, lane n from bytes 8n to 8n + 7; 64-byte aligned. -/
def execVld (c : Nat) (d a : RegNo) (imm : BitVec 16) (s : State) : Result :=
  loadOp c 64 a imm s (fun x l => x.vwr d (BitVec.ofNat 512 (ofLe l)))
/-- VST (R231): the 64 bytes at a + IMM ← vector register d; 64-byte aligned. -/
def execVst (c : Nat) (d a : RegNo) (imm : BitVec 16) (s : State) : Result :=
  storeOp c 64 a imm s (fun x => leBytes 64 (x.vrd d).toNat)
/-- BEQ (R231): branch to the target when a = b. -/
def execBeq (c : Nat) (a b : RegNo) (ofs : BitVec 16) (s : State) : Result :=
  branchOp c a b ofs s (fun a b => a == b)
/-- BNE (R231): branch to the target when a ≠ b. -/
def execBne (c : Nat) (a b : RegNo) (ofs : BitVec 16) (s : State) : Result :=
  branchOp c a b ofs s (fun a b => a != b)
/-- BLT (R231): branch to the target when a < b signed. -/
def execBlt (c : Nat) (a b : RegNo) (ofs : BitVec 16) (s : State) : Result :=
  branchOp c a b ofs s (fun a b => a.slt b)
/-- BGE (R231): branch to the target when a ≥ b signed. -/
def execBge (c : Nat) (a b : RegNo) (ofs : BitVec 16) (s : State) : Result :=
  branchOp c a b ofs s (fun a b => !a.slt b)
/-- BLTU (R231): branch to the target when a < b unsigned. -/
def execBltu (c : Nat) (a b : RegNo) (ofs : BitVec 16) (s : State) : Result :=
  branchOp c a b ofs s (fun a b => a.ult b)
/-- BGEU (R231): branch to the target when a ≥ b unsigned. -/
def execBgeu (c : Nat) (a b : RegNo) (ofs : BitVec 16) (s : State) : Result :=
  branchOp c a b ofs s (fun a b => !a.ult b)
/-- JMP (R231): PC ← target. -/
def execJmp (c : Nat) (ofs : BitVec 26) (s : State) : Result :=
  issueAt c s (fun x t => t.jump c x ((x.pc : Int) + 4 * ofs.toInt))
/-- CALL (R231): g31 ← address of the CALL + 4; PC ← target. -/
def execCall (c : Nat) (ofs : BitVec 26) (s : State) : Result :=
  issueAt c s (fun x t => t.jump c (x.wr 31 (BitVec.ofNat 64 (x.pc + 4))) ((x.pc : Int) + 4 * ofs.toInt))
/-- JREG (R231): d ← address of the JREG + 4; PC ← a + 4 × IMM. -/
def execJreg (c : Nat) (d a : RegNo) (imm : BitVec 16) (s : State) : Result :=
  issueAt c s (fun x t =>
    t.jump c (x.wr d (BitVec.ofNat 64 (x.pc + 4))) (((x.rd a + 4 * imm.signExtend 64).toNat : Nat) : Int))

end Sys2Proof.Machine
end

