-- ==== Sys2Proof/Machine/IsaSys.lean ====
section
/-! DEFINITION. Sys2Proof/Machine/IsaSys.lean: timers, edge detectors, END, BARRIER, the flag word, the cycle counter, and the
check of an instruction word (R199, R203, R230 to R239). -/
namespace Sys2Proof.Machine

/-- A record of `n` bytes at address `ad` in read-write data SRAM (R236): its offset, or the kind of program fault. -/
def State.record (s : State) (x : Cell) (ad n : Nat) : Except Nat Nat :=
  if ad % 8 ≠ 0 then .error 3
  else match s.place? x ad n true with
    | some (.data o) => .ok o
    | _ => .error 2

/-- A timer record's four variables (R238). -/
structure Timer where
  elapsed : Nat
  q : Bool
  run : Bool
  prev : Bool
deriving DecidableEq, Repr

/-- One run of a timer of a kind (R238): `len` is CYC_LEN, `i` the input bit. -/
def timerRun (kind preset len : Nat) (i : Bool) (t : Timer) : Timer :=
  let t : Timer :=
    match kind with
    | 0 =>
      if i then let e := satAdd 0xFFFF_FFFF t.elapsed len; { t with elapsed := e, q := decide (preset ≤ e) }
      else { t with elapsed := 0, q := false }
    | 1 =>
      if i then { t with elapsed := 0, q := true }
      else if t.q then let e := satAdd 0xFFFF_FFFF t.elapsed len; { t with elapsed := e, q := !decide (preset ≤ e) }
      else t
    | _ =>
      let t := if i && !t.prev && !t.run then { t with run := true, elapsed := 0 } else t
      let t := if t.run then
          let e := satAdd 0xFFFF_FFFF t.elapsed len
          { t with elapsed := e, run := !decide (preset ≤ e) }
        else t
      { t with q := t.run }
  { t with prev := i }

/-- TMR (R231, R236, R238): runs the timer record at address a with input bit b[0] and writes Q to d. -/
def execTmr (c : Nat) (d a b : RegNo) (s : State) : Result :=
  issueAt c s (fun x t =>
    match t.record x (x.rd a).toNat 16 with
    | .error k => t.progFault c k x.pc (x.rd a).toNat
    | .ok o =>
      let kind := (Tbl.get 0 (o + 8) x.dsram).toNat
      let fl := Tbl.get 0 (o + 9) x.dsram
      let len := match t.guest x.guest with | some g => g.cycLen | none => 0
      if 2 < kind then t.setCell c (x.wr d 0).next
      else
        let r := timerRun kind (ofLe (tblBytes x.dsram o 4)) len ((x.rd b).getLsbD 0)
          ⟨ofLe (tblBytes x.dsram (o + 4) 4), fl.getLsbD 0, fl.getLsbD 1, fl.getLsbD 2⟩
        let fl' := BitVec.ofNat 8 (fl.toNat / 8 * 8 + b2n r.q + 2 * b2n r.run + 4 * b2n r.prev)
        let x := (x.store (o + 4) (leBytes 4 r.elapsed)).store (o + 9) [fl']
        t.setCell c (x.wr d (BitVec.ofNat 64 (b2n r.q))).next)

/-- Whether an edge from `p` to `i` is one of a mode (R239). -/
def edgeIs (m : EdgeMode) (p i : Bool) : Bool :=
  match m with
  | .rising => !p && i
  | .falling => p && !i
  | .both => p != i

/-- EDG (R231, R236, R239): runs the edge detector at address a with input bit b[0]; d ← 1 on an edge of the mode. -/
def execEdg (c : Nat) (d a b : RegNo) (m : EdgeMode) (s : State) : Result :=
  issueAt c s (fun x t =>
    match t.record x (x.rd a).toNat 8 with
    | .error k => t.progFault c k x.pc (x.rd a).toNat
    | .ok o =>
      let f := Tbl.get 0 o x.dsram
      let i := (x.rd b).getLsbD 0
      let hit := f.getLsbD 1 && edgeIs m (f.getLsbD 0) i
      let x := x.store o [BitVec.ofNat 8 (f.toNat / 4 * 4 + b2n i + 2)]
      t.setCell c (x.wr d (BitVec.ofNat 64 (b2n hit))).next)

/-- END (R203, R235): the cell has finished its cycle and idles; its execution cycles are noted for CELL_EXEC (R219). -/
def execEndCell (c : Nat) (s : State) : Result :=
  issueAt c s (fun x t =>
    t.setCell c { x with run := .finished, endCyc := (x.cyc + 1) % 2 ^ 64, endTime := t.time.clock }.next)

/-- Every cell of a guest waits in the barrier (R199). -/
def State.allWaiting (s : State) (x : Guest) : Bool := x.cellList.all (fun i => decide ((s.cell i).run = .barrier))

/-- The latest cycle counter among the cells of a guest: the cell that arrived last (R195: the counters run on while a cell
waits). (DEDUCED, log 58). -/
def State.lastArrival (s : State) (x : Guest) : Nat := x.cellList.foldl (fun m i => max m (s.cell i).cyc) 0

/-- Every cell of a guest that waits goes on, its cycle counter at that of the last arrival (R195, R199). (DEDUCED, log 58). -/
def State.releaseBarrier (s : State) (x : Guest) : State :=
  x.cellList.foldl (fun t i => t.setCell i { t.cell i with run := .running, cyc := s.lastArrival x }) s

/-- BARRIER (R199, R235): the cell waits until every cell of the guest reaches the same barrier. -/
def execBarrier (c : Nat) (s : State) : Result :=
  issueAt c s (fun x t => t.setCell c { x with run := .barrier }.next)

/-- BARRIER_RELEASE (R199): once the last cell of the guest has reached the barrier, every waiting cell continues. -/
def execBarrierRelease (g : Nat) (s : State) : Result :=
  match s.guest g with
  | none => .next s
  | some x => if s.allWaiting x then .next (s.releaseBarrier x) else .next s

/-- RDFPS (R231): d ← FPS. -/
def execRdfps (c : Nat) (d : RegNo) (s : State) : Result := cellOp c s (fun x => x.wr d (BitVec.ofNat 64 x.fps))
/-- CLRFPS (R231): FPS ← 0. -/
def execClrfps (c : Nat) (s : State) : Result := cellOp c s (fun x => { x with fps := 0 })
/-- RDCYC (R195, R231): d ← the cycle counter in the cycle in which RDCYC issues. -/
def execRdcyc (c : Nat) (d : RegNo) (s : State) : Result := cellOp c s (fun x => x.wr d (BitVec.ofNat 64 x.cyc))

/-- The word at a cell's PC in its instruction SRAM, and the instruction it is (R195, R229, R235): what the cell issues next. -/
def Cell.word (x : Cell) : Word := BitVec.ofNat 32 (ofLe (tblBytes x.isram x.pc 4))
def State.nextInstr (s : State) (c : Nat) : Option Instr := isaDecode c (s.cell c).word

/-- ILLEGAL_INSTRUCTION (R198, R235): a word that is no instruction issues and is a program fault of kind 1. -/
def execIllegalInstruction (c : Nat) (w : Word) (s : State) : Result :=
  if (isaDecode c w).isSome then .next s else issueAt c s (fun x t => t.progFault c 1 x.pc 0)

end Sys2Proof.Machine
end

