-- ==== Sys2Proof/Machine/IsaInt.lean ====
section
/-! DEFINITION. Sys2Proof/Machine/IsaInt.lean: integer instructions of set 0x0001 (R231, R232). -/
namespace Sys2Proof.Machine

/-- A two-operand integer function on general registers (R232). -/
def int2 (c : Nat) (d a b : RegNo) (s : State) (f : DWord → DWord → DWord) : Result :=
  cellOp c s (fun x => x.wr d (f (x.rd a) (x.rd b)))
/-- A one-operand integer function. -/
def int1 (c : Nat) (d a : RegNo) (s : State) (f : DWord → DWord) : Result :=
  cellOp c s (fun x => x.wr d (f (x.rd a)))
/-- 1 for true, 0 for false. -/
def flagWord (b : Bool) : DWord := if b then 1 else 0
/-- Rotate right by a count below 64. -/
def rotr (a : DWord) (n : Nat) : DWord := if n = 0 then a else (a >>> n) ||| (a <<< (64 - n))
/-- Leading zeros of a 64-bit value, counted from bit `n − 1` down. -/
def clzFrom : Nat → DWord → Nat
  | 0, _ => 0
  | n + 1, a => if a.getLsbD n then 0 else clzFrom n a + 1
/-- Ones in the low `n` bits. -/
def popFrom : Nat → DWord → Nat
  | 0, _ => 0
  | n + 1, a => b2n (a.getLsbD n) + popFrom n a
/-- Signed quotient truncated toward zero; all ones for a divisor of 0; −2^63 / −1 wraps (R196, R232). -/
def divS (a b : DWord) : DWord := if b = 0 then BitVec.allOnes 64 else BitVec.ofInt 64 (Int.tdiv a.toInt b.toInt)
/-- Its remainder, with the sign of the dividend; the dividend for a divisor of 0. -/
def remS (a b : DWord) : DWord := if b = 0 then a else BitVec.ofInt 64 (Int.tmod a.toInt b.toInt)
/-- Unsigned quotient; all ones for a divisor of 0. -/
def divU (a b : DWord) : DWord := if b = 0 then BitVec.allOnes 64 else BitVec.ofNat 64 (a.toNat / b.toNat)
/-- Unsigned remainder; the dividend for a divisor of 0. -/
def remU (a b : DWord) : DWord := if b = 0 then a else BitVec.ofNat 64 (a.toNat % b.toNat)
/-- The lesser of two values by an order. -/
def pick (le : Bool) (a b : DWord) : DWord := if le then a else b

/-- ADD (R232): d ← a + b. -/
def execAdd (c : Nat) (d a b : RegNo) (s : State) : Result := int2 c d a b s (fun a b => a + b)
/-- SUB (R232): d ← a − b. -/
def execSub (c : Nat) (d a b : RegNo) (s : State) : Result := int2 c d a b s (fun a b => a - b)
/-- AND (R232): d ← a AND b. -/
def execAnd (c : Nat) (d a b : RegNo) (s : State) : Result := int2 c d a b s (fun a b => a &&& b)
/-- OR (R232): d ← a OR b. -/
def execOr (c : Nat) (d a b : RegNo) (s : State) : Result := int2 c d a b s (fun a b => a ||| b)
/-- XOR (R232): d ← a XOR b. -/
def execXor (c : Nat) (d a b : RegNo) (s : State) : Result := int2 c d a b s (fun a b => a ^^^ b)
/-- SHL (R232): d ← a shifted left by b[5:0]. -/
def execShl (c : Nat) (d a b : RegNo) (s : State) : Result := int2 c d a b s (fun a b => a <<< (b.toNat % 64))
/-- SHR (R232): d ← a shifted right by b[5:0], zeros in. -/
def execShr (c : Nat) (d a b : RegNo) (s : State) : Result := int2 c d a b s (fun a b => a >>> (b.toNat % 64))
/-- SAR (R232): d ← a shifted right by b[5:0], sign bit in. -/
def execSar (c : Nat) (d a b : RegNo) (s : State) : Result := int2 c d a b s (fun a b => a.sshiftRight (b.toNat % 64))
/-- ROR (R232): d ← a rotated right by b[5:0]. -/
def execRor (c : Nat) (d a b : RegNo) (s : State) : Result := int2 c d a b s (fun a b => rotr a (b.toNat % 64))
/-- SLT (R232): d ← 1 when a < b signed. -/
def execSlt (c : Nat) (d a b : RegNo) (s : State) : Result := int2 c d a b s (fun a b => flagWord (a.slt b))
/-- SLTU (R232): d ← 1 when a < b unsigned. -/
def execSltu (c : Nat) (d a b : RegNo) (s : State) : Result := int2 c d a b s (fun a b => flagWord (a.ult b))
/-- MIN (R232): d ← the lesser, signed. -/
def execMin (c : Nat) (d a b : RegNo) (s : State) : Result := int2 c d a b s (fun a b => pick (a.sle b) a b)
/-- MAX (R232): d ← the greater, signed. -/
def execMax (c : Nat) (d a b : RegNo) (s : State) : Result := int2 c d a b s (fun a b => pick (b.sle a) a b)
/-- MINU (R232): d ← the lesser, unsigned. -/
def execMinu (c : Nat) (d a b : RegNo) (s : State) : Result := int2 c d a b s (fun a b => pick (a.ule b) a b)
/-- MAXU (R232): d ← the greater, unsigned. -/
def execMaxu (c : Nat) (d a b : RegNo) (s : State) : Result := int2 c d a b s (fun a b => pick (b.ule a) a b)
/-- MUL (R232): d ← low 64 bits of a × b. -/
def execMul (c : Nat) (d a b : RegNo) (s : State) : Result := int2 c d a b s (fun a b => a * b)
/-- MULHS (R232): d ← high 64 bits of the signed product. -/
def execMulhs (c : Nat) (d a b : RegNo) (s : State) : Result := int2 c d a b s (fun a b => BitVec.ofInt 64 (a.toInt * b.toInt / 2 ^ 64))
/-- MULHU (R232): d ← high 64 bits of the unsigned product. -/
def execMulhu (c : Nat) (d a b : RegNo) (s : State) : Result := int2 c d a b s (fun a b => BitVec.ofNat 64 (a.toNat * b.toNat / 2 ^ 64))
/-- DIVS (R232): d ← signed quotient. -/
def execDivs (c : Nat) (d a b : RegNo) (s : State) : Result := int2 c d a b s (fun a b => divS a b)
/-- DIVU (R232): d ← unsigned quotient. -/
def execDivu (c : Nat) (d a b : RegNo) (s : State) : Result := int2 c d a b s (fun a b => divU a b)
/-- REMS (R232): d ← signed remainder. -/
def execRems (c : Nat) (d a b : RegNo) (s : State) : Result := int2 c d a b s (fun a b => remS a b)
/-- REMU (R232): d ← unsigned remainder. -/
def execRemu (c : Nat) (d a b : RegNo) (s : State) : Result := int2 c d a b s (fun a b => remU a b)
/-- CLZ (R232): d ← number of leading zeros of a, 0 to 64. -/
def execClz (c : Nat) (d a : RegNo) (s : State) : Result := int1 c d a s (fun a => BitVec.ofNat 64 (clzFrom 64 a))
/-- POPC (R232): d ← number of ones in a. -/
def execPopc (c : Nat) (d a : RegNo) (s : State) : Result := int1 c d a s (fun a => BitVec.ofNat 64 (popFrom 64 a))
/-- ADDI (R231): d ← a + IMM. -/
def execAddi (c : Nat) (d a : RegNo) (imm : BitVec 16) (s : State) : Result := int1 c d a s (fun a => a + imm.signExtend 64)
/-- ANDI (R231): d ← a AND IMM, zero-extended. -/
def execAndi (c : Nat) (d a : RegNo) (imm : BitVec 16) (s : State) : Result := int1 c d a s (fun a => a &&& imm.zeroExtend 64)
/-- ORI (R231): d ← a OR IMM, zero-extended. -/
def execOri (c : Nat) (d a : RegNo) (imm : BitVec 16) (s : State) : Result := int1 c d a s (fun a => a ||| imm.zeroExtend 64)
/-- XORI (R231): d ← a XOR IMM, zero-extended. -/
def execXori (c : Nat) (d a : RegNo) (imm : BitVec 16) (s : State) : Result := int1 c d a s (fun a => a ^^^ imm.zeroExtend 64)
/-- SHI's shift (R231): IMM[7:6] selects left, logical right, arithmetic right or rotate right by IMM[5:0]. -/
def shiftBy (kind : BitVec 2) (n : BitVec 6) (a : DWord) : DWord :=
  match kind.toNat with
  | 0 => a <<< n.toNat
  | 1 => a >>> n.toNat
  | 2 => a.sshiftRight n.toNat
  | _ => rotr a n.toNat
/-- SHI (R231). -/
def execShi (c : Nat) (d a : RegNo) (kind : BitVec 2) (n : BitVec 6) (s : State) : Result := int1 c d a s (shiftBy kind n)
/-- SLTI (R231): d ← 1 when a < IMM as signed values, otherwise 0. -/
def execSlti (c : Nat) (d a : RegNo) (imm : BitVec 16) (s : State) : Result :=
  int1 c d a s (fun a => flagWord (a.slt (imm.signExtend 64)))
/-- CSET (R231): d ← IMM zero-extended and shifted left by 16 × p. -/
def execCset (c : Nat) (d : RegNo) (p : BitVec 2) (imm : BitVec 16) (s : State) : Result :=
  cellOp c s (fun x => x.wr d (imm.zeroExtend 64 <<< (16 * p.toNat)))
/-- CPUT (R231): bits [16p + 15:16p] of d ← IMM; the other bits of d are kept. -/
def execCput (c : Nat) (d : RegNo) (p : BitVec 2) (imm : BitVec 16) (s : State) : Result :=
  cellOp c s (fun x =>
    x.wr d ((x.rd d &&& ~~~((0xFFFF : DWord) <<< (16 * p.toNat))) ||| (imm.zeroExtend 64 <<< (16 * p.toNat))))

end Sys2Proof.Machine
end

