-- ==== Sys2Proof/Machine/IsaVec.lean ====
section
/-! DEFINITION. Sys2Proof/Machine/IsaVec.lean: vector instructions of set 0x0001 (R231, R234). -/
namespace Sys2Proof.Machine

/-- VADD (R234): lane of d ← a + b. -/
def execVadd (c : Nat) (t : Lane) (d a b : RegNo) (s : State) : Result :=
  vec2 c d a b s (laneFn t (fun a b => a + b) fAdd)
/-- VSUB (R234): lane of d ← a − b. -/
def execVsub (c : Nat) (t : Lane) (d a b : RegNo) (s : State) : Result :=
  vec2 c d a b s (laneFn t (fun a b => a - b) fSub)
/-- VMUL (R234): lane of d ← a × b. -/
def execVmul (c : Nat) (t : Lane) (d a b : RegNo) (s : State) : Result :=
  vec2 c d a b s (laneFn t (fun a b => a * b) fMul)
/-- VMIN (R234): lane of d ← the lesser. -/
def execVmin (c : Nat) (t : Lane) (d a b : RegNo) (s : State) : Result :=
  vec2 c d a b s (laneFn t (fun a b => pick (a.sle b) a b) (fun f => fMinMax f false))
/-- VMAX (R234): lane of d ← the greater. -/
def execVmax (c : Nat) (t : Lane) (d a b : RegNo) (s : State) : Result :=
  vec2 c d a b s (laneFn t (fun a b => pick (b.sle a) a b) (fun f => fMinMax f true))
/-- VCMPLT (R234): lane of d ← all ones when a < b. -/
def execVcmplt (c : Nat) (t : Lane) (d a b : RegNo) (s : State) : Result :=
  vec2 c d a b s (laneFn t (fun a b => if a.slt b then BitVec.allOnes 64 else 0) (fun f x y => laneTrue t (fLt f x y)))
/-- VCMPEQ (R234): lane of d ← all ones when a = b. -/
def execVcmpeq (c : Nat) (t : Lane) (d a b : RegNo) (s : State) : Result :=
  vec2 c d a b s (laneFn t (fun a b => if a = b then BitVec.allOnes 64 else 0) (fun f x y => laneTrue t (fEq f x y)))
/-- VDIV (R234): lane of d ← a / b; floating-point lanes only. -/
def execVdiv (c : Nat) (p : Prec) (d a b : RegNo) (s : State) : Result :=
  vec2 c d a b s (laneFn (laneOfPrec p) (fun a _ => a) fDiv)
/-- VABS (R234): lane of d ← a with its sign bit cleared; floating-point lanes only. -/
def execVabs (c : Nat) (p : Prec) (d a : RegNo) (s : State) : Result :=
  vec2 c d a a s (laneFn (laneOfPrec p) (fun a _ => a) (fun f x _ => (fAbs f x, {})))
/-- VNEG (R234): lane of d ← a with its sign bit inverted, or 0 − a for integers. -/
def execVneg (c : Nat) (t : Lane) (d a : RegNo) (s : State) : Result :=
  vec2 c d a a s (laneFn t (fun a _ => 0 - a) (fun f x _ => (fNeg f x, {})))
/-- VAND (R234), integer lanes. -/
def execVand (c : Nat) (d a b : RegNo) (s : State) : Result := vec2 c d a b s (fun x y => (x &&& y, {}))
/-- VOR (R234), integer lanes. -/
def execVor (c : Nat) (d a b : RegNo) (s : State) : Result := vec2 c d a b s (fun x y => (x ||| y, {}))
/-- VXOR (R234), integer lanes. -/
def execVxor (c : Nat) (d a b : RegNo) (s : State) : Result := vec2 c d a b s (fun x y => (x ^^^ y, {}))
/-- VFMA (R231): lane n of d ← lane n of a × b + c, one rounding. -/
def execVfma (c : Nat) (p : Prec) (d a b e : RegNo) (s : State) : Result :=
  cellOp c s (fun x =>
    let va := x.vrd a
    let vb := x.vrd b
    let vc := x.vrd e
    let r := fun n => fFma (fmtOf p) (fpIn p (laneOf va n)) (fpIn p (laneOf vb n)) (fpIn p (laneOf vc n))
    (x.vwr d (vecOf (fun n => BitVec.ofNat 64 (r n).1))).raiseFp (laneFlags (fun n => (r n).2)))
/-- VGET (R234): general register d ← lane L of vector register a. -/
def execVget (c : Nat) (d a : RegNo) (l : BitVec 3) (s : State) : Result :=
  cellOp c s (fun x => x.wr d (laneOf (x.vrd a) l.toNat))
/-- VPUT (R234): lane L of vector register d ← general register a; the other lanes are kept. -/
def execVput (c : Nat) (d a : RegNo) (l : BitVec 3) (s : State) : Result :=
  cellOp c s (fun x => x.vwr d (vecOf (fun n => if n = l.toNat then x.rd a else laneOf (x.vrd d) n)))
/-- VSPLAT (R234): every lane of vector register d ← general register a. -/
def execVsplat (c : Nat) (d a : RegNo) (s : State) : Result := cellOp c s (fun x => x.vwr d (vecOf (fun _ => x.rd a)))
/-- The binary64 sum of lanes 0 to 7 in ascending order, each of the seven additions rounded, from lane 0 itself (R234). -/
def sumLanes (v : BitVec 512) : Nat × FFlags :=
  (List.range 7).foldl
    (fun a n => let r := fAdd fmt64 a.1 (laneOf v (n + 1)).toNat; (r.1, orFlags a.2 r.2)) ((laneOf v 0).toNat, {})
/-- VSUMD (R234). -/
def execVsumd (c : Nat) (d a : RegNo) (s : State) : Result :=
  cellOp c s (fun x =>
    let r := sumLanes (x.vrd a)
    (x.wr d (BitVec.ofNat 64 r.1)).raiseFp r.2)
/-- VSUMI (R234): general register d ← the sum of the 8 integer lanes of vector register a, modulo 2^64. -/
def execVsumi (c : Nat) (d a : RegNo) (s : State) : Result :=
  cellOp c s (fun x => x.wr d ((List.range 8).foldl (fun t n => t + laneOf (x.vrd a) n) 0))

end Sys2Proof.Machine
end

