-- ==== Sys2Proof/Machine/Dispatch.lean ====
section
/-! DEFINITION. Sys2Proof/Machine/Dispatch.lean: the meaning of each command, one arm per row of spec/opcode_table.json. -/
namespace Sys2Proof.Machine

/-- What a command does to everything but the queue. -/
def exec (i : Instr) (s : State) : Host.Outcome State Fault Refusal :=
  match i with
  | .regWrite src a => Sys2Proof.Machine.execRegWrite src a s
  | .latchingRead src a => Sys2Proof.Machine.execLatchingRead src a s
  | .gCycCRead g => Sys2Proof.Machine.execGCycCRead g s
  | .lgHeadRead src => Sys2Proof.Machine.execLgHeadRead src s
  | .softReset src p => Sys2Proof.Machine.execSoftReset src p s
  | .softResetDone p => Sys2Proof.Machine.execSoftResetDone p s
  | .pageEnableChg src p en => Sys2Proof.Machine.execPageEnableChg src p en s
  | .pageContainChg src p v => Sys2Proof.Machine.execPageContainChg src p v s
  | .pageErrClear src p => Sys2Proof.Machine.execPageErrClear src p s
  | .irqSetWrite src p w => Sys2Proof.Machine.execIrqSetWrite src p w s
  | .irqStsClear src p w => Sys2Proof.Machine.execIrqStsClear src p w s
  | .msixUnmask fn vec => Sys2Proof.Machine.execMsixUnmask fn vec s
  | .faultInject src p kind cell => Sys2Proof.Machine.execFaultInject src p kind cell s
  | .ledgerCtlWrite src p w => Sys2Proof.Machine.execLedgerCtlWrite src p w s
  | .counterClear src p c => Sys2Proof.Machine.execCounterClear src p c s
  | .eccCorrected p c => Sys2Proof.Machine.execEccCorrected p c s
  | .eccUncorrectable p c => Sys2Proof.Machine.execEccUncorrectable p c s
  | .stuckState p c => Sys2Proof.Machine.execStuckState p c s
  | .noRetireTimeout n c => Sys2Proof.Machine.execNoRetireTimeout n c s
  | .cellNoResponse p c => Sys2Proof.Machine.execCellNoResponse p c s
  | .sharedResourceFault p => Sys2Proof.Machine.execSharedResourceFault p s
  | .blockNoResponse p => Sys2Proof.Machine.execBlockNoResponse p s
  | .segmentFault r => Sys2Proof.Machine.execSegmentFault r s
  | .topOfSecond => Sys2Proof.Machine.execTopOfSecond s
  | .gridTick => Sys2Proof.Machine.execGridTick s
  | .slewWrite src v => Sys2Proof.Machine.execSlewWrite src v s
  | .slewDone => Sys2Proof.Machine.execSlewDone s
  | .stepCmd src w => Sys2Proof.Machine.execStepCmd src w s
  | .stepApply => Sys2Proof.Machine.execStepApply s
  | .snapCmd src => Sys2Proof.Machine.execSnapCmd src s
  | .syncReport src locked => Sys2Proof.Machine.execSyncReport src locked s
  | .syncTimeout => Sys2Proof.Machine.execSyncTimeout s
  | .holdoverExpiry => Sys2Proof.Machine.execHoldoverExpiry s
  | .txtsPop src port => Sys2Proof.Machine.execTxtsPop src port s
  | .txtsClrLost src port => Sys2Proof.Machine.execTxtsClrLost src port s
  | .tioEdge pin rise back => Sys2Proof.Machine.execTioEdge pin rise back s
  | .capPop src => Sys2Proof.Machine.execCapPop src s
  | .capClrLost src => Sys2Proof.Machine.execCapClrLost src s
  | .tioCfgWrite src n w => Sys2Proof.Machine.execTioCfgWrite src n w s
  | .schEnq src pin level => Sys2Proof.Machine.execSchEnq src pin level s
  | .schFlush src pin => Sys2Proof.Machine.execSchFlush src pin s
  | .schFire => Sys2Proof.Machine.execSchFire s
  | .ppsOutRise => Sys2Proof.Machine.execPpsOutRise s
  | .ppsOutFall => Sys2Proof.Machine.execPpsOutFall s
  | .portCtlWrite src n w => Sys2Proof.Machine.execPortCtlWrite src n w s
  | .linkDown n => Sys2Proof.Machine.execLinkDown n s
  | .linkUp n => Sys2Proof.Machine.execLinkUp n s
  | .frameRx n ph f => Sys2Proof.Machine.execFrameRx n ph f s
  | .ddAgeExpiry pair src => Sys2Proof.Machine.execDdAgeExpiry pair src s
  | .nonschedTx n ph => Sys2Proof.Machine.execNonschedTx n ph s
  | .txqPiWrite src w => Sys2Proof.Machine.execTxqPiWrite src w s
  | .pubDoorbell src w => Sys2Proof.Machine.execPubDoorbell src w s
  | .pubDone => Sys2Proof.Machine.execPubDone s
  | .launch n => Sys2Proof.Machine.execLaunch n s
  | .gooseRepeat n => Sys2Proof.Machine.execGooseRepeat n s
  | .sdtBaseWrite src a => Sys2Proof.Machine.execSdtBaseWrite src a s
  | .sdtZeroDone => Sys2Proof.Machine.execSdtZeroDone s
  | .descDoorbell src w => Sys2Proof.Machine.execDescDoorbell src w s
  | .descDone => Sys2Proof.Machine.execDescDone s
  | .sdtStateWriteback n => Sys2Proof.Machine.execSdtStateWriteback n s
  | .ruleAdd src action => Sys2Proof.Machine.execRuleAdd src action s
  | .ruleRemove src => Sys2Proof.Machine.execRuleRemove src s
  | .ruleDone => Sys2Proof.Machine.execRuleDone s
  | .hmacJobStart e => Sys2Proof.Machine.execHmacJobStart e s
  | .verifyDone id pass => Sys2Proof.Machine.execVerifyDone id pass s
  | .verifyDeadline id => Sys2Proof.Machine.execVerifyDeadline id s
  | .talExpired n => Sys2Proof.Machine.execTalExpired n s
  | .discSourceAge src => Sys2Proof.Machine.execDiscSourceAge src s
  | .asduPlace l => Sys2Proof.Machine.execAsduPlace l s
  | .cutOff n => Sys2Proof.Machine.execCutOff n s
  | .ctxSel src w => Sys2Proof.Machine.execCtxSel src w s
  | .cycleStart g => Sys2Proof.Machine.execCycleStart g s
  | .freezeClose g late => Sys2Proof.Machine.execFreezeClose g late s
  | .commitDeadline g late => Sys2Proof.Machine.execCommitDeadline g late s
  | .commitPoint gs late => Sys2Proof.Machine.execCommitPoint gs late s
  | .add c d a b => Sys2Proof.Machine.execAdd c d a b s
  | .sub c d a b => Sys2Proof.Machine.execSub c d a b s
  | .and c d a b => Sys2Proof.Machine.execAnd c d a b s
  | .or c d a b => Sys2Proof.Machine.execOr c d a b s
  | .xor c d a b => Sys2Proof.Machine.execXor c d a b s
  | .shl c d a b => Sys2Proof.Machine.execShl c d a b s
  | .shr c d a b => Sys2Proof.Machine.execShr c d a b s
  | .sar c d a b => Sys2Proof.Machine.execSar c d a b s
  | .ror c d a b => Sys2Proof.Machine.execRor c d a b s
  | .slt c d a b => Sys2Proof.Machine.execSlt c d a b s
  | .sltu c d a b => Sys2Proof.Machine.execSltu c d a b s
  | .min c d a b => Sys2Proof.Machine.execMin c d a b s
  | .max c d a b => Sys2Proof.Machine.execMax c d a b s
  | .minu c d a b => Sys2Proof.Machine.execMinu c d a b s
  | .maxu c d a b => Sys2Proof.Machine.execMaxu c d a b s
  | .mul c d a b => Sys2Proof.Machine.execMul c d a b s
  | .mulhs c d a b => Sys2Proof.Machine.execMulhs c d a b s
  | .mulhu c d a b => Sys2Proof.Machine.execMulhu c d a b s
  | .divs c d a b => Sys2Proof.Machine.execDivs c d a b s
  | .divu c d a b => Sys2Proof.Machine.execDivu c d a b s
  | .rems c d a b => Sys2Proof.Machine.execRems c d a b s
  | .remu c d a b => Sys2Proof.Machine.execRemu c d a b s
  | .clz c d a => Sys2Proof.Machine.execClz c d a s
  | .popc c d a => Sys2Proof.Machine.execPopc c d a s
  | .addi c d a imm => Sys2Proof.Machine.execAddi c d a imm s
  | .andi c d a imm => Sys2Proof.Machine.execAndi c d a imm s
  | .ori c d a imm => Sys2Proof.Machine.execOri c d a imm s
  | .xori c d a imm => Sys2Proof.Machine.execXori c d a imm s
  | .shi c d a kind n => Sys2Proof.Machine.execShi c d a kind n s
  | .slti c d a imm => Sys2Proof.Machine.execSlti c d a imm s
  | .cset c d p imm => Sys2Proof.Machine.execCset c d p imm s
  | .cput c d p imm => Sys2Proof.Machine.execCput c d p imm s
  | .ldbu c d a imm => Sys2Proof.Machine.execLdbu c d a imm s
  | .ldbs c d a imm => Sys2Proof.Machine.execLdbs c d a imm s
  | .ldhu c d a imm => Sys2Proof.Machine.execLdhu c d a imm s
  | .ldhs c d a imm => Sys2Proof.Machine.execLdhs c d a imm s
  | .ldwu c d a imm => Sys2Proof.Machine.execLdwu c d a imm s
  | .ldws c d a imm => Sys2Proof.Machine.execLdws c d a imm s
  | .ldd c d a imm => Sys2Proof.Machine.execLdd c d a imm s
  | .stb c d a imm => Sys2Proof.Machine.execStb c d a imm s
  | .sth c d a imm => Sys2Proof.Machine.execSth c d a imm s
  | .stw c d a imm => Sys2Proof.Machine.execStw c d a imm s
  | .std c d a imm => Sys2Proof.Machine.execStd c d a imm s
  | .vld c d a imm => Sys2Proof.Machine.execVld c d a imm s
  | .vst c d a imm => Sys2Proof.Machine.execVst c d a imm s
  | .beq c a b ofs => Sys2Proof.Machine.execBeq c a b ofs s
  | .bne c a b ofs => Sys2Proof.Machine.execBne c a b ofs s
  | .blt c a b ofs => Sys2Proof.Machine.execBlt c a b ofs s
  | .bge c a b ofs => Sys2Proof.Machine.execBge c a b ofs s
  | .bltu c a b ofs => Sys2Proof.Machine.execBltu c a b ofs s
  | .bgeu c a b ofs => Sys2Proof.Machine.execBgeu c a b ofs s
  | .jmp c ofs => Sys2Proof.Machine.execJmp c ofs s
  | .call c ofs => Sys2Proof.Machine.execCall c ofs s
  | .jreg c d a imm => Sys2Proof.Machine.execJreg c d a imm s
  | .fadd c p d a b => Sys2Proof.Machine.execFadd c p d a b s
  | .fsub c p d a b => Sys2Proof.Machine.execFsub c p d a b s
  | .fmul c p d a b => Sys2Proof.Machine.execFmul c p d a b s
  | .fdiv c p d a b => Sys2Proof.Machine.execFdiv c p d a b s
  | .fsqrt c p d a => Sys2Proof.Machine.execFsqrt c p d a s
  | .fmin c p d a b => Sys2Proof.Machine.execFmin c p d a b s
  | .fmax c p d a b => Sys2Proof.Machine.execFmax c p d a b s
  | .feq c p d a b => Sys2Proof.Machine.execFeq c p d a b s
  | .flt c p d a b => Sys2Proof.Machine.execFlt c p d a b s
  | .fle c p d a b => Sys2Proof.Machine.execFle c p d a b s
  | .fabs c p d a => Sys2Proof.Machine.execFabs c p d a s
  | .fneg c p d a => Sys2Proof.Machine.execFneg c p d a s
  | .ftoi c p d a => Sys2Proof.Machine.execFtoi c p d a s
  | .itof c p d a => Sys2Proof.Machine.execItof c p d a s
  | .widen c d a => Sys2Proof.Machine.execWiden c d a s
  | .narrow c d a => Sys2Proof.Machine.execNarrow c d a s
  | .fma c p d a b e => Sys2Proof.Machine.execFma c p d a b e s
  | .fms c p d a b e => Sys2Proof.Machine.execFms c p d a b e s
  | .vadd c t d a b => Sys2Proof.Machine.execVadd c t d a b s
  | .vsub c t d a b => Sys2Proof.Machine.execVsub c t d a b s
  | .vmul c t d a b => Sys2Proof.Machine.execVmul c t d a b s
  | .vdiv c p d a b => Sys2Proof.Machine.execVdiv c p d a b s
  | .vmin c t d a b => Sys2Proof.Machine.execVmin c t d a b s
  | .vmax c t d a b => Sys2Proof.Machine.execVmax c t d a b s
  | .vabs c p d a => Sys2Proof.Machine.execVabs c p d a s
  | .vneg c t d a => Sys2Proof.Machine.execVneg c t d a s
  | .vand c d a b => Sys2Proof.Machine.execVand c d a b s
  | .vor c d a b => Sys2Proof.Machine.execVor c d a b s
  | .vxor c d a b => Sys2Proof.Machine.execVxor c d a b s
  | .vcmplt c t d a b => Sys2Proof.Machine.execVcmplt c t d a b s
  | .vcmpeq c t d a b => Sys2Proof.Machine.execVcmpeq c t d a b s
  | .vfma c p d a b e => Sys2Proof.Machine.execVfma c p d a b e s
  | .vget c d a l => Sys2Proof.Machine.execVget c d a l s
  | .vput c d a l => Sys2Proof.Machine.execVput c d a l s
  | .vsplat c d a => Sys2Proof.Machine.execVsplat c d a s
  | .vsumd c d a => Sys2Proof.Machine.execVsumd c d a s
  | .vsumi c d a => Sys2Proof.Machine.execVsumi c d a s
  | .tmr c d a b => Sys2Proof.Machine.execTmr c d a b s
  | .edg c d a b m => Sys2Proof.Machine.execEdg c d a b m s
  | .endCell c => Sys2Proof.Machine.execEndCell c s
  | .barrier c => Sys2Proof.Machine.execBarrier c s
  | .barrierRelease g => Sys2Proof.Machine.execBarrierRelease g s
  | .rdfps c d => Sys2Proof.Machine.execRdfps c d s
  | .clrfps c => Sys2Proof.Machine.execClrfps c s
  | .rdcyc c d => Sys2Proof.Machine.execRdcyc c d s
  | .illegalInstruction c w => Sys2Proof.Machine.execIllegalInstruction c w s
  | .ptRead src => Sys2Proof.Machine.execPtRead src s
  | .ptWrite src => Sys2Proof.Machine.execPtWrite src s
  | .ptDone => Sys2Proof.Machine.execPtDone s
  | .gcmdLoad src n g => Sys2Proof.Machine.execGcmdLoad src n g s
  | .gcmdStart src n g => Sys2Proof.Machine.execGcmdStart src n g s
  | .gcmdStop src n g => Sys2Proof.Machine.execGcmdStop src n g s
  | .restartWarm src n g => Sys2Proof.Machine.execRestartWarm src n g s
  | .restartCold src n g => Sys2Proof.Machine.execRestartCold src n g s
  | .gcmdUnload src n g => Sys2Proof.Machine.execGcmdUnload src n g s
  | .gcmdExchange src n g => Sys2Proof.Machine.execGcmdExchange src n g s
  | .gcmdDone n => Sys2Proof.Machine.execGcmdDone n s
  | .patchCmd src n g count => Sys2Proof.Machine.execPatchCmd src n g count s
  | .patchChecked n => Sys2Proof.Machine.execPatchChecked n s
  | .hingeLaneLoss n errs => Sys2Proof.Machine.execHingeLaneLoss n errs s
  | .hingeLinkUp => Sys2Proof.Machine.execHingeLinkUp s
  | .hingeTx => Sys2Proof.Machine.execHingeTx s
  | .hingeHbSend => Sys2Proof.Machine.execHingeHbSend s
  | .netHbSend => Sys2Proof.Machine.execNetHbSend s
  | .heartbeat h b => Sys2Proof.Machine.execHeartbeat h b s
  | .hbMiss => Sys2Proof.Machine.execHbMiss s
  | .netSlotEnd => Sys2Proof.Machine.execNetSlotEnd s
  | .judgeDeadline => Sys2Proof.Machine.execJudgeDeadline s
  | .verdict h g cause c sec => Sys2Proof.Machine.execVerdict h g cause c sec s
  | .ctlGuestCommand h seq g op mask exb c sec => Sys2Proof.Machine.execCtlGuestCommand h seq g op mask exb c sec s
  | .ctlPatchSet h seq g entries tick => Sys2Proof.Machine.execCtlPatchSet h seq g entries tick s
  | .ctlPublicationEntry h seq g index entry c sec => Sys2Proof.Machine.execCtlPublicationEntry h seq g index entry c sec s
  | .ctlImageChunk h seq g ofs bytes => Sys2Proof.Machine.execCtlImageChunk h seq g ofs bytes s
  | .ctlAddressCounts h seq counts => Sys2Proof.Machine.execCtlAddressCounts h seq counts s
  | .ctlAllowanceEntry h seq g lo hi c sec => Sys2Proof.Machine.execCtlAllowanceEntry h seq g lo hi c sec s
  | .ack h number bulk => Sys2Proof.Machine.execAck h number bulk s
  | .controlRetry seq => Sys2Proof.Machine.execControlRetry seq s
  | .resyncReq h => Sys2Proof.Machine.execResyncReq h s
  | .resyncGo h code held => Sys2Proof.Machine.execResyncGo h code held s
  | .enter h sec => Sys2Proof.Machine.execEnter h sec s
  | .demote h sec => Sys2Proof.Machine.execDemote h sec s
  | .lines h g c sec entries => Sys2Proof.Machine.execLines h g c sec entries s
  | .image h g pos index c sec points => Sys2Proof.Machine.execImage h g pos index c sec points s
  | .commit h g sync frames c sec dig => Sys2Proof.Machine.execCommit h g sync frames c sec dig s
  | .bulk h body last => Sys2Proof.Machine.execBulk h body last s
  | .resyncRetry => Sys2Proof.Machine.execResyncRetry s
  | .pubHoldEnd => Sys2Proof.Machine.execPubHoldEnd s
  | .allowWrite src g w => Sys2Proof.Machine.execAllowWrite src g w s
  | .roleCmdResync src => Sys2Proof.Machine.execRoleCmdResync src s
  | .roleCmdDemote src => Sys2Proof.Machine.execRoleCmdDemote src s
  | .modeCmdRun src => Sys2Proof.Machine.execModeCmdRun src s
  | .modeCmdConfigure src => Sys2Proof.Machine.execModeCmdConfigure src s
  | .modeCmdTest src => Sys2Proof.Machine.execModeCmdTest src s
  | .modeCmdEndTest src => Sys2Proof.Machine.execModeCmdEndTest src s
  | .modeCmdGoActive src => Sys2Proof.Machine.execModeCmdGoActive src s
  | .modeCmdSafe src => Sys2Proof.Machine.execModeCmdSafe src s
  | .modeCmdCold src => Sys2Proof.Machine.execModeCmdCold src s
  | .modeDone => Sys2Proof.Machine.execModeDone s
  | .pwExpiry => Sys2Proof.Machine.execPwExpiry s
  | .resetRelease unitB slots => Sys2Proof.Machine.execResetRelease unitB slots s
  | .bootDone trained trained2 log2 => Sys2Proof.Machine.execBootDone trained trained2 log2 s
  | .bootFail trained trained2 fuse => Sys2Proof.Machine.execBootFail trained trained2 fuse s
  | .debugUnlock ok => Sys2Proof.Machine.execDebugUnlock ok s
  | .dbgLockout src => Sys2Proof.Machine.execDbgLockout src s
  | .debugResetReq => Sys2Proof.Machine.execDebugResetReq s
  | .bypass => Sys2Proof.Machine.execBypass s
  | .idcode => Sys2Proof.Machine.execIdcode s
  | .samplePreload => Sys2Proof.Machine.execSamplePreload s
  | .extest => Sys2Proof.Machine.execExtest s
  | .extestPulse => Sys2Proof.Machine.execExtestPulse s
  | .extestTrain => Sys2Proof.Machine.execExtestTrain s
  | .clamp => Sys2Proof.Machine.execClamp s
  | .highz => Sys2Proof.Machine.execHighz s
  | .tapReset => Sys2Proof.Machine.execTapReset s
  | .sqPiWrite src q w => Sys2Proof.Machine.execSqPiWrite src q w s
  | .sqEn src q log2 => Sys2Proof.Machine.execSqEn src q log2 s
  | .qShareWrite src q w => Sys2Proof.Machine.execQShareWrite src q w s
  | .segmentStart e fetched => Sys2Proof.Machine.execSegmentStart e fetched s
  | .segmentDone e data left => Sys2Proof.Machine.execSegmentDone e data left s
  | .hostFault at_ n cause data => Sys2Proof.Machine.execHostFault at_ n cause data s
  | .flr g => Sys2Proof.Machine.execFlr g s
  | .gFreset g => Sys2Proof.Machine.execGFreset g s
  | .fnReset src => Sys2Proof.Machine.execFnReset src s
  | .vfEnableClear => Sys2Proof.Machine.execVfEnableClear s
  | .fnResetDone g => Sys2Proof.Machine.execFnResetDone g s
  | .strSel g pub index => Sys2Proof.Machine.execStrSel g pub index s
  | .lvSel g seq => Sys2Proof.Machine.execLvSel g seq s
  | .generate src => Sys2Proof.Machine.execGenerate src s
  | .derive src => Sys2Proof.Machine.execDerive src s
  | .importKey src => Sys2Proof.Machine.execImport src s
  | .krLoad src => Sys2Proof.Machine.execKrLoad src s
  | .revoke src => Sys2Proof.Machine.execRevoke src s
  | .erase src => Sys2Proof.Machine.execErase src s
  | .krCommit src => Sys2Proof.Machine.execKrCommit src s
  | .krCmdDone => Sys2Proof.Machine.execKrCmdDone s
  | .krCommitWrite => Sys2Proof.Machine.execKrCommitWrite s
  | .krCommitDone ok => Sys2Proof.Machine.execKrCommitDone ok s
  | .plainLock src => Sys2Proof.Machine.execPlainLock src s
  | .remask => Sys2Proof.Machine.execRemask s
  | .entropyFail test => Sys2Proof.Machine.execEntropyFail test s
  | .ledgerWriterStart => Sys2Proof.Machine.execLedgerWriterStart s
  | .ledgerWrite => Sys2Proof.Machine.execLedgerWrite s
  | .lgCfgWrite src base log2 => Sys2Proof.Machine.execLgCfgWrite src base log2 s
  | .lgSel src seq => Sys2Proof.Machine.execLgSel src seq s
  | .lgClear src => Sys2Proof.Machine.execLgClear src s
  | .lgClearDone => Sys2Proof.Machine.execLgClearDone s
  | .histSel src w => Sys2Proof.Machine.execHistSel src w s
  | .metCfgWrite src m w => Sys2Proof.Machine.execMetCfgWrite src m w s
  | .histSample p c m v => Sys2Proof.Machine.execHistSample p c m v s
  | .ckGo src c cont poly => Sys2Proof.Machine.execCkGo src c cont poly s
  | .ckAbort src c => Sys2Proof.Machine.execCkAbort src c s
  | .ckDone c => Sys2Proof.Machine.execCkDone c s
  | .adcSample c raw skew => Sys2Proof.Machine.execAdcSample c raw skew s
  | .adcScanTrigger c => Sys2Proof.Machine.execAdcScanTrigger c s
  | .coreSwtrig src c => Sys2Proof.Machine.execCoreSwtrig src c s
  | .adcScanDone c => Sys2Proof.Machine.execAdcScanDone c s
  | .vrefMeasure v => Sys2Proof.Machine.execVrefMeasure v s
  | .calSel src w => Sys2Proof.Machine.execCalSel src w s
  | .calZero src => Sys2Proof.Machine.execCalZero src s
  | .calFull src => Sys2Proof.Machine.execCalFull src s
  | .calApply src => Sys2Proof.Machine.execCalApply src s
  | .calAbort src => Sys2Proof.Machine.execCalAbort src s
  | .calAvgDone => Sys2Proof.Machine.execCalAvgDone s
  | .calTimeout => Sys2Proof.Machine.execCalTimeout s
  | .coefLoad src c g w => Sys2Proof.Machine.execCoefLoad src c g w s
  | .fcCfgWrite src n w => Sys2Proof.Machine.execFcCfgWrite src n w s
  | .fcSwap src n => Sys2Proof.Machine.execFcSwap src n s
  | .fcSync src n => Sys2Proof.Machine.execFcSync src n s
  | .filtPointWrite n => Sys2Proof.Machine.execFiltPointWrite n s
  | .auCfgWrite src u w => Sys2Proof.Machine.execAuCfgWrite src u w s
  | .acqArmed u => Sys2Proof.Machine.execAcqArmed u s
  | .auRel src u => Sys2Proof.Machine.execAuRel src u s
  | .auSwtrig src u => Sys2Proof.Machine.execAuSwtrig src u s
  | .acqBlockWrite u => Sys2Proof.Machine.execAcqBlockWrite u s
  | .acqRedHalve u => Sys2Proof.Machine.execAcqRedHalve u s
  | .acqRecordClose u => Sys2Proof.Machine.execAcqRecordClose u s
  | .scrubRead c find => Sys2Proof.Machine.execScrubRead c find s
  | .ckptGo src => Sys2Proof.Machine.execCkptGo src s
  | .flRead src => Sys2Proof.Machine.execFlRead src s
  | .slotWrite src slot => Sys2Proof.Machine.execSlotWrite src slot s
  | .flashOpDone ok => Sys2Proof.Machine.execFlashOpDone ok s
  | .pcieLinkDown => Sys2Proof.Machine.execPcieLinkDown s
  | .pcieReset => Sys2Proof.Machine.execPcieReset s
  | .refFail edges => Sys2Proof.Machine.execRefFail edges s
  | .refReturn => Sys2Proof.Machine.execRefReturn s
  | .refFailClear => Sys2Proof.Machine.execRefFailClear s
  | .sdPllLockLoss n => Sys2Proof.Machine.execSdPllLockLoss n s
  | .sdPllLock n => Sys2Proof.Machine.execSdPllLock n s
  | .rootPllLockLoss => Sys2Proof.Machine.execRootPllLockLoss s
  | .powerOn => Sys2Proof.Machine.execPowerOn s
  | .porst => Sys2Proof.Machine.execPorst s
  | .rstGo src => Sys2Proof.Machine.execRstGo src s
  | .railBelowWarn c mv low => Sys2Proof.Machine.execRailBelowWarn c mv low s
  | .railBelowReset c mv => Sys2Proof.Machine.execRailBelowReset c mv s
  | .pwrWarnClear => Sys2Proof.Machine.execPwrWarnClear s
  | .tempWarn source code => Sys2Proof.Machine.execTempWarn source code s
  | .thermalTrip code => Sys2Proof.Machine.execThermalTrip code s
  | .pcieLinkUp speed width => Sys2Proof.Machine.execPcieLinkUp speed width s
  | .vfEnableSet => Sys2Proof.Machine.execVfEnableSet s
  | .busMasterEnableChg fn on => Sys2Proof.Machine.execBusMasterEnableChg fn on s
  | .d3hotTransition fn d3 => Sys2Proof.Machine.execD3hotTransition fn d3 s
  | .msixMask fn vec => Sys2Proof.Machine.execMsixMask fn vec s
  | .railAboveWarn c mv low => Sys2Proof.Machine.execRailAboveWarn c mv low s
  | .frameErr lanes => Sys2Proof.Machine.execFrameErr lanes s

end Sys2Proof.Machine
end

