-- ==== Sys2Proof/Safety.lean ====
section
/-! DEFINITION. Sys2Proof/Safety.lean: what counts as a step that goes on, the form that every state keeps, and the words in which
the statements say what a command leaves and what it leaves alone. -/
namespace Sys2Proof.Machine

/-- The step answers a next state: neither a fault nor a refusal. -/
def goesOn (s : State) : Bool :=
  match step s with
  | .next _ => true
  | _ => false

/-- The canonical form of memory and of the register file: keys strictly rising, and no entry that says what an unlisted key
reads as. -/
def State.wf (s : State) : Bool := Memory.wf 0 s.dram && Memory.wf 0xFF s.flash && Tbl.wf resetWord s.regs

/-- The address of a register in the register file. -/
def key (p : Page) (o : Nat) : Nat := Page.base p + o

/-- A command that leaves `t` has also sent the messages that rise with it, and set the sources of guest pages (R66, R331). -/
def settled (s t : State) : State := settle s (guestEvents s t)

/-- The address of IRQ_STS of some guest's control page, where sources are set by what happens elsewhere (R331). -/
def guestSts (k : Nat) : Prop := 0x100_0000 ≤ k ∧ k % 0x100_0000 = HDR.IRQ_STS

/-- Every register keeps its value, but for those at the listed addresses and the sources of guest control pages. -/
def keepsRegs (s t : State) (ks : List Nat) : Prop :=
  ∀ k, ¬ guestSts k → k ∉ ks → Tbl.get 0 k t.regs = Tbl.get 0 k s.regs

/-- The state without its register file, the words that wait in it for their high word, the message bits and what has been sent. -/
def State.rest (s : State) : State := { s with regs := [], shadow := [], msixPend := [], sent := [] }

/-- Outside those, `t` is `u`. -/
def sameState (u t : State) : Prop := t.rest = u.rest

/-- The command answers a next state of which `P` holds; outside the registers at `ks` it is `u`, so `u` names everything else
that the command changes. -/
def Ends (i : Instr) (s u : State) (ks : List Nat) (P : State → Prop) : Prop :=
  ∃ t, exec i s = .next t ∧ P t ∧ keepsRegs s t ks ∧ sameState u t

/-- A write of a source to a register passes every check of R58. -/
def State.accepts (s : State) (src : Src) (p : Page) (o : Nat) (w : Word) : Prop :=
  s.reaches src p = true ∧ s.verdict (ruleFor p o) src p o w = none

/-- Cell `c` issues a word: it executes, and its PC lies in the instruction SRAM (R198). -/
def State.issues (s : State) (c : Nat) : Prop := (s.cell c).run = .running ∧ inIsram (s.cell c).pc = true

/-- No loaded guest has the line of a point among those its cache pins, so an update of the point is counted nowhere (R220). -/
def State.unpinned (s : State) (p : Nat) : Prop := ∀ e ∈ s.guests, e.2.pins (p / 8) = false

/-- The next CLK_TIME edge, which brings the local time to `s.time.clock + g`, meets nothing that acts on it: it stays within its
second, its tick and its millisecond, no pin's configuration waits, no scheduled output is due, PPS_OUT neither rises nor falls, and
no count of R82 is judged. -/
def State.quiet (s : State) (g : Nat) : Prop :=
  let c := s.time.clock + g
  c < clockU ∧ secOf c = secOf s.time.clock ∧ absTick c = absTick s.time.clock ∧
    (s.time.elapsed + g) / (1000000 * nsU) = s.time.elapsed / (1000000 * nsU) ∧
    s.time.cfgWait = [] ∧ (∀ e ∈ s.time.sched.head?, qDiff (stampOf c) e.time < 0) ∧
    (s.ppsOpen = false ∨ secOf (s.ppsLine c) = secOf (s.ppsLine s.time.clock)) ∧
    (s.time.pps = false ∨ s.time.elapsed + g < s.time.ppsAt + s.ppsWidth) ∧ (s.time.sync = .free ∨ s.time.phase % 4 ≠ 3)

/-- The Time Unit after such an edge. -/
def State.afterEdge (s : State) (g : Nat) : TimeSt :=
  { s.time with clock := s.time.clock + g, elapsed := s.time.elapsed + g, phase := (s.time.phase + 1) % 4,
                reported := s.time.reported && decide (s.time.phase % 4 ≠ 3) }

/-- A saturating 32-bit counter after one more event. -/
def oneMore (w : Word) : Word := BitVec.ofNat 32 (min 0xFFFF_FFFF (w.toNat + 1))

end Sys2Proof.Machine
end

