-- ==== Sys2Proof/Certificates/Slice0/Obligations.lean ====
section
/-! DEFINITION. Sys2Proof/Certificates/Slice0/Obligations.lean: the statements about the model. In them `Ends i s u ks P` says that
command `i` completes in state `s`, that outside the registers at `ks` the next state is `u`, and that `P` holds of it. -/
open Sys2Proof Sys2Proof.Machine

/-! ### The queue, time and reset -/

/-- The command at the front of the queue is what a step runs, with the rest of the queue left waiting. -/
def Obligations.StepRunsFront : Prop :=
  ∀ (s : State) (c : Instr) (rest : List Instr), s.pending = c :: rest → step s = exec c { s with pending := rest }

/-- With no command waiting a step is one CLK_TIME edge (the model's choice, log entry 1): with nothing to slew and no step waiting,
local time advances by INCR (R71), and where the edge meets nothing that acts on it (`State.quiet`), nothing changes but the
Time Unit's counts: the clock, the local time elapsed and the place of the edge in its CLK_REG cycle. -/
def Obligations.EmptyQueueIsOneEdge : Prop :=
  ∀ s : State, s.pending = [] → s.time.slewPend = 0 → s.time.job = none → s.quiet s.incr →
    ∃ t, step s = .next t ∧ keepsRegs s t [] ∧ sameState { s with time := s.afterEdge s.incr } t ∧ t.pending = [] ∧
      t.time.clock = s.time.clock + s.incr

/-- From every state whose register file, memory and flash have the canonical form (keys strictly rising, no entry that says what an
unlisted key reads as), a step that answers a next state leaves them in that form, whatever command it runs. The form is the
model's own (log entry 2). -/
def Obligations.StepKeepsForm : Prop :=
  ∀ s t : State, s.wf = true → step s = .next t → t.wf = true

/-- Reset (R9, R304): every register reads its reset value, the queue and every table, queue and engine is empty, the mode is BOOT,
and the canonical form holds. The model's choices in it: log 2, 11, 12. -/
def Obligations.ResetState : Prop :=
  State.reset.wf = true ∧ State.reset.pending = [] ∧ State.reset.role.mode = .boot ∧ State.reset.time.sync = .free ∧
    State.reset.time.clock = 0 ∧ State.reset.guests = [] ∧ State.reset.cells = [] ∧ State.reset.dram = [] ∧
    (∀ p o, State.reset.rd p o = resetWord (key p o)) ∧
    State.reset.rd .timeu TIMEU.SLEW_RATE = BitVec.ofNat 32 100000 ∧ State.reset.rd .clkrst CLKRST.RST_CAUSE = 1

/-- An instruction word of a legal encoding is read as the instruction it encodes, with every operand at every value, and a word that is
read as an instruction is the word that instruction encodes: no word with a reserved bit set, and no second spelling, is legal
(R230 to R235). The model's choices in it: log 14. -/
def Obligations.WordsAndEncodings : Prop :=
  (∀ (i : Instr) (c : Nat) (w : Word), isaEncode i = some (c, w) → isaDecode c w = some i) ∧
  (∀ (c : Nat) (w : Word) (i : Instr), isaDecode c w = some i → isaEncode i = some (c, w))

/-! ### Instruction set 0x0001: integer, immediate -/

/-- INT (R232): d ← the function of a and b, every one of the 24; the cell goes on at the next word. DIVS, DIVU, REMS, REMU (R196, R232): the quotient truncated toward zero and its remainder; a divisor of 0 gives all ones and
the dividend; −2^63 by −1 gives −2^63 and 0. The model's choices in it: log 9, 14. -/
def Obligations.IntegerWords : Prop :=
  (∀ (s : State) (c : Nat) (d a b : RegNo), s.issues c →
    let x := (s.cell c).issue
    let l := x.rd a
    let r := x.rd b
    let gives := fun (i : Instr) (v : DWord) => exec i s = .next (s.setCell c (x.wr d v).next)
    gives (.add c d a b) (l + r) ∧ gives (.sub c d a b) (l - r) ∧ gives (.and c d a b) (l &&& r) ∧
    gives (.or c d a b) (l ||| r) ∧ gives (.xor c d a b) (l ^^^ r) ∧
    gives (.shl c d a b) (l <<< (r.toNat % 64)) ∧ gives (.shr c d a b) (l >>> (r.toNat % 64)) ∧
    gives (.sar c d a b) (BitVec.ofInt 64 (l.toInt / 2 ^ (r.toNat % 64))) ∧ gives (.ror c d a b) (l.rotateRight (r.toNat % 64)) ∧
    gives (.slt c d a b) (if l.toInt < r.toInt then 1 else 0) ∧ gives (.sltu c d a b) (if l.toNat < r.toNat then 1 else 0) ∧
    gives (.min c d a b) (if r.toInt < l.toInt then r else l) ∧ gives (.max c d a b) (if l.toInt < r.toInt then r else l) ∧
    gives (.minu c d a b) (if r.toNat < l.toNat then r else l) ∧ gives (.maxu c d a b) (if l.toNat < r.toNat then r else l) ∧
    gives (.mul c d a b) (BitVec.ofNat 64 (l.toNat * r.toNat)) ∧
    gives (.mulhs c d a b) (BitVec.ofInt 64 (l.toInt * r.toInt / 2 ^ 64)) ∧
    gives (.mulhu c d a b) (BitVec.ofNat 64 (l.toNat * r.toNat / 2 ^ 64)) ∧
    gives (.clz c d a) (BitVec.ofNat 64 (if l = 0 then 64 else 63 - l.toNat.log2)) ∧
    gives (.popc c d a) (BitVec.ofNat 64 ((List.range 64).filter (fun i => l.getLsbD i)).length)) ∧
  (∀ (s : State) (c : Nat) (d a b : RegNo), s.issues c →
    let x := (s.cell c).issue
    let l := x.rd a
    let r := x.rd b
    let gives := fun (i : Instr) (v : DWord) => exec i s = .next (s.setCell c (x.wr d v).next)
    (r = 0 → gives (.divs c d a b) (BitVec.allOnes 64) ∧ gives (.divu c d a b) (BitVec.allOnes 64) ∧
      gives (.rems c d a b) l ∧ gives (.remu c d a b) l) ∧
    (r ≠ 0 → gives (.divs c d a b) (BitVec.ofInt 64 (l.toInt.tdiv r.toInt)) ∧
      gives (.rems c d a b) (BitVec.ofInt 64 (l.toInt.tmod r.toInt)) ∧
      gives (.divu c d a b) (BitVec.ofNat 64 (l.toNat / r.toNat)) ∧ gives (.remu c d a b) (BitVec.ofNat 64 (l.toNat % r.toNat))) ∧
    (l.toInt = -2 ^ 63 → r.toInt = -1 → gives (.divs c d a b) l ∧ gives (.rems c d a b) 0))

/-- ADDI to CPUT (R231): d ← the function of a and the immediate. The model's choices in it: log 9, 14. -/
def Obligations.ImmediateResults : Prop :=
  ∀ (s : State) (c : Nat) (d a : RegNo) (imm : BitVec 16) (n : BitVec 6) (p : BitVec 2), s.issues c →
    let x := (s.cell c).issue
    let l := x.rd a
    let gives := fun (i : Instr) (v : DWord) => exec i s = .next (s.setCell c (x.wr d v).next)
    gives (.addi c d a imm) (BitVec.ofInt 64 (l.toInt + imm.toInt)) ∧ gives (.andi c d a imm) (l &&& imm.zeroExtend 64) ∧
    gives (.ori c d a imm) (l ||| imm.zeroExtend 64) ∧ gives (.xori c d a imm) (l ^^^ imm.zeroExtend 64) ∧
    gives (.shi c d a 0 n) (l <<< n.toNat) ∧ gives (.shi c d a 1 n) (l >>> n.toNat) ∧
    gives (.shi c d a 2 n) (BitVec.ofInt 64 (l.toInt / 2 ^ n.toNat)) ∧ gives (.shi c d a 3 n) (l.rotateRight n.toNat) ∧
    gives (.slti c d a imm) (if l.toInt < imm.toInt then 1 else 0) ∧
    gives (.cset c d p imm) (BitVec.ofNat 64 (imm.toNat * 2 ^ (16 * p.toNat))) ∧
    ∃ v : DWord, gives (.cput c d p imm) v ∧
      ∀ j, j < 64 → v.getLsbD j = if 16 * p.toNat ≤ j ∧ j < 16 * p.toNat + 16 then imm.getLsbD (j - 16 * p.toNat) else (x.rd d).getLsbD j

/-- A write of a register reads back, but for g0, which reads 0 whatever is written (R229); no other register, cell or part of
the state changes. -/
def Obligations.RegisterWrites : Prop :=
  ∀ (s : State) (c : Nat) (x : Cell) (d : RegNo) (v : DWord) (w : BitVec 512),
    (∀ r, (x.wr d v).rd r = if r = 0 then 0 else if r = d then v else x.rd r) ∧
    (∀ r, (x.vwr d w).vrd r = if r = d then w else x.vrd r) ∧
    (x.wr d v) = { x with g := (x.wr d v).g } ∧ (x.vwr d w) = { x with v := (x.vwr d w).v } ∧
    (∀ k, (s.setCell c x).cell k = if k = c then x else s.cell k) ∧
    s.setCell c x = { s with cells := (s.setCell c x).cells }

/-! ### Loads and stores -/

/-- Loads (R197, R198, R231): an aligned address that the map admits; the bytes found there, zero- or sign-extended.
The model's choices in it: log 9, 14. -/
def Obligations.Loads : Prop :=
  ∀ (s : State) (c : Nat) (d a : RegNo) (imm : BitVec 16), s.issues c →
    let x := (s.cell c).issue
    let ad := x.ea a imm
    let gives := fun (i : Instr) (v : DWord) => exec i s = .next (s.setCell c (x.wr d v).next)
    ad = ((x.rd a).toInt + imm.toInt) % 2 ^ 64 ∧
    (∀ pl, s.place? x ad 1 false = some pl → let v := ofLe (s.loadBytes x pl 1)
      gives (.ldbu c d a imm) (BitVec.ofNat 64 v) ∧ gives (.ldbs c d a imm) ((BitVec.ofNat 8 v).signExtend 64)) ∧
    (∀ pl, ad % 2 = 0 → s.place? x ad 2 false = some pl → let v := ofLe (s.loadBytes x pl 2)
      gives (.ldhu c d a imm) (BitVec.ofNat 64 v) ∧ gives (.ldhs c d a imm) ((BitVec.ofNat 16 v).signExtend 64)) ∧
    (∀ pl, ad % 4 = 0 → s.place? x ad 4 false = some pl → let v := ofLe (s.loadBytes x pl 4)
      gives (.ldwu c d a imm) (BitVec.ofNat 64 v) ∧ gives (.ldws c d a imm) ((BitVec.ofNat 32 v).signExtend 64)) ∧
    (∀ pl, ad % 8 = 0 → s.place? x ad 8 false = some pl →
      gives (.ldd c d a imm) (BitVec.ofNat 64 (ofLe (s.loadBytes x pl 8)))) ∧
    (∀ pl, ad % 64 = 0 → s.place? x ad 64 false = some pl → ∃ v : BitVec 512,
      exec (.vld c d a imm) s = .next (s.setCell c (x.vwr d v).next) ∧
      ∀ n, n < 8 → laneOf v n = BitVec.ofNat 64 (ofLe (((s.loadBytes x pl 64).drop (8 * n)).take 8)))

/-- Stores to data SRAM (R197, R210, R231): at an aligned address that the map admits, the register's low bytes stand there
afterwards, least significant first; every other byte stands as before, and the lines stored to are dirty. Stores to the exchange area (R197, R205, R210): the bytes stand in the guest's exchange lines; the cell itself only goes on.
The model's choices in it: log 9, 14. -/
def Obligations.Stores : Prop :=
  (∀ (s : State) (c : Nat) (d a : RegNo) (imm : BitVec 16), s.issues c →
    let x := (s.cell c).issue
    let ad := x.ea a imm
    let stores := fun (i : Instr) (n v : Nat) => ∀ o, ad % n = 0 → s.place? x ad n true = some (.data o) →
      ∃ y : Cell, exec i s = .next (s.setCell c { y with pc := x.pc + 4 }) ∧ y = { x with dsram := y.dsram, dirty := y.dirty } ∧
        (∀ k, Tbl.get 0 k y.dsram = if o ≤ k ∧ k < o + n then BitVec.ofNat 8 (v / 256 ^ (k - o)) else Tbl.get 0 k x.dsram) ∧
        (∀ k, Tbl.get false k y.dirty = (decide (o / 64 ≤ k ∧ k ≤ (o + n - 1) / 64) || Tbl.get false k x.dirty))
    stores (.stb c d a imm) 1 (x.rd d).toNat ∧ stores (.sth c d a imm) 2 (x.rd d).toNat ∧
    stores (.stw c d a imm) 4 (x.rd d).toNat ∧ stores (.std c d a imm) 8 (x.rd d).toNat ∧
    stores (.vst c d a imm) 64 (x.vrd d).toNat) ∧
  (∀ (s : State) (c : Nat) (d a : RegNo) (imm : BitVec 16), s.issues c →
    let x := (s.cell c).issue
    let ad := x.ea a imm
    let stores := fun (i : Instr) (n v : Nat) => ∀ o g, ad % n = 0 → s.place? x ad n true = some (.xch o) → s.guest x.guest = some g →
      ∃ h : Guest, exec i s = .next ((s.setCell c x.next).setGuest x.guest h) ∧ h = { g with xch := h.xch, xchDirty := h.xchDirty } ∧
        ∀ k, Tbl.get 0 k h.xch = if o ≤ k ∧ k < o + n then BitVec.ofNat 8 (v / 256 ^ (k - o)) else Tbl.get 0 k g.xch
    stores (.stb c d a imm) 1 (x.rd d).toNat ∧ stores (.sth c d a imm) 2 (x.rd d).toNat ∧
    stores (.stw c d a imm) 4 (x.rd d).toNat ∧ stores (.std c d a imm) 8 (x.rd d).toNat ∧
    stores (.vst c d a imm) 64 (x.vrd d).toNat)

/-- Where an access lands (R197): the data SRAM but for a store that meets the input area, the guest's exchange lines, and for loads
the cycle context; no other address. A load or store at an address that is no multiple of its size is a misaligned access, kind 3; at an aligned address outside
the map's access column it is an access violation, kind 2; the word has no other effect (R198).
The model's choices in it: log 14. -/
def Obligations.AddressesAndFaults : Prop :=
  (∀ (s : State) (x : Cell) (a n : Nat) (store : Bool), 0 < n →
    (∀ o, s.place? x a n store = some (.data o) ↔ 0x1000_0000 ≤ a ∧ a + n ≤ 0x1004_0000 ∧ o = a - 0x1000_0000 ∧
      ¬ (store = true ∧ x.inLo < o + n ∧ o < x.inHi)) ∧
    (∀ o, s.place? x a n store = some (.xch o) ↔ 0x2000_0000 ≤ a ∧ a + n ≤ 0x2000_0000 + s.xchBytes x ∧ o = a - 0x2000_0000) ∧
    (s.xchBytes x < 0x1000_0000 →
      ∀ o, s.place? x a n store = some (.ctx o) ↔ 0x3000_0000 ≤ a ∧ a + n ≤ 0x3000_0040 ∧ store = false ∧ o = a - 0x3000_0000)) ∧
  (∀ (s : State) (c : Nat) (d a : RegNo) (imm : BitVec 16), s.issues c →
    let x := (s.cell c).issue
    let ad := x.ea a imm
    let traps := fun (i : Instr) (n : Nat) (store : Bool) =>
      (ad % n ≠ 0 → exec i s = .next (s.progFault c 3 x.pc ad)) ∧
      (ad % n = 0 → s.place? x ad n store = none → exec i s = .next (s.progFault c 2 x.pc ad))
    traps (.ldbu c d a imm) 1 false ∧ traps (.ldbs c d a imm) 1 false ∧ traps (.ldhu c d a imm) 2 false ∧
    traps (.ldhs c d a imm) 2 false ∧ traps (.ldwu c d a imm) 4 false ∧ traps (.ldws c d a imm) 4 false ∧
    traps (.ldd c d a imm) 8 false ∧ traps (.vld c d a imm) 64 false ∧ traps (.stb c d a imm) 1 true ∧
    traps (.sth c d a imm) 2 true ∧ traps (.stw c d a imm) 4 true ∧ traps (.std c d a imm) 8 true ∧ traps (.vst c d a imm) 64 true)

/-! ### Branches, faults, the cycle's end -/

/-- Branches and jumps (R230, R231): to the address of the word plus 4 × OFS, or on to the next word; CALL and JREG leave the address
after them. The model's choices in it: log 9, 14. -/
def Obligations.Branches : Prop :=
  ∀ (s : State) (c : Nat) (d a b : RegNo) (ofs imm : BitVec 16) (far : BitVec 26), s.issues c →
    let x := (s.cell c).issue
    let l := x.rd a
    let r := x.rd b
    let branch := fun (i : Instr) (cond : Prop) =>
      (cond → ∀ t : Nat, (t : Int) = x.pc + 4 * ofs.toInt → inIsram t = true → exec i s = .next (s.setCell c { x with pc := t })) ∧
      (¬ cond → exec i s = .next (s.setCell c { x with pc := x.pc + 4 }))
    branch (.beq c a b ofs) (l = r) ∧ branch (.bne c a b ofs) (l ≠ r) ∧ branch (.blt c a b ofs) (l.toInt < r.toInt) ∧
    branch (.bge c a b ofs) (r.toInt ≤ l.toInt) ∧ branch (.bltu c a b ofs) (l.toNat < r.toNat) ∧
    branch (.bgeu c a b ofs) (r.toNat ≤ l.toNat) ∧
    (∀ t : Nat, (t : Int) = x.pc + 4 * far.toInt → inIsram t = true →
      exec (.jmp c far) s = .next (s.setCell c { x with pc := t }) ∧
      exec (.call c far) s = .next (s.setCell c { x.wr 31 (BitVec.ofNat 64 (x.pc + 4)) with pc := t })) ∧
    (∀ t : Nat, (t : Int) = (l.toInt + 4 * imm.toInt) % 2 ^ 64 → inIsram t = true →
      exec (.jreg c d a imm) s = .next (s.setCell c { x.wr d (BitVec.ofNat 64 (x.pc + 4)) with pc := t }))

/-- A program fault (R198, R219): the cell's fault registers take the kind, the word's address and the data address; the guest's
execution stops on all its cells at once, and the fault waits for the commit deadline. Illegal instructions, and execution outside the instruction SRAM (R198, R235): a word that is no instruction is a fault of kind
1 at its address; a branch or jump to an address outside, and a PC past the last word, are faults of kind 4.
The model's choices in it: log 14. -/
def Obligations.ProgramFaults : Prop :=
  (∀ (s : State) (n w g kind pc addr : Nat) (x : Guest), n < 16 → w < 16 → 0 < kind → kind < 16 →
    (s.cell (16 * n + w)).guest = g → s.guest g = some x →
    let t := s.progFault (16 * n + w) kind pc addr
    t.rdf (.exb n) (win w EXBW.CELL_FAULT) 3 0 = kind ∧
    t.rd (.exb n) (win w EXBW.CELL_FAULT_PC) = BitVec.ofNat 32 pc ∧
    t.rd (.exb n) (win w EXBW.CELL_FAULT_ADDR) = BitVec.ofNat 32 addr ∧
    t.guest g = some { x with progFault := true } ∧ (∀ h, h ≠ g → t.guest h = s.guest h) ∧
    (∀ k, t.cell k = if k ∈ x.cellList then { s.cell k with run := .stopped } else s.cell k) ∧
    t.dram = s.dram ∧ t.time = s.time ∧
    keepsRegs s t [key (.exb n) (win w EXBW.CELL_FAULT), key (.exb n) (win w EXBW.CELL_FAULT_PC), key (.exb n) (win w EXBW.CELL_FAULT_ADDR)]) ∧
  (∀ (s : State) (c : Nat) (a b d : RegNo) (ofs imm : BitVec 16) (far : BitVec 26) (w : Word), (s.cell c).run = .running →
    let x := (s.cell c).issue
    (inIsram (s.cell c).pc = true → isaDecode c w = none →
      exec (.illegalInstruction c w) s = .next (s.progFault c 1 x.pc 0)) ∧
    (inIsram (s.cell c).pc = false →
      exec (.add c d a b) s = .next (s.progFault c 4 (s.cell c).pc 0) ∧ exec (.endCell c) s = .next (s.progFault c 4 (s.cell c).pc 0)) ∧
    (inIsram (s.cell c).pc = true →
      (∀ t : Nat, (t : Int) = x.pc + 4 * far.toInt → inIsram t = false →
        exec (.jmp c far) s = .next (s.progFault c 4 x.pc 0) ∧ exec (.call c far) s = .next (s.progFault c 4 x.pc 0)) ∧
      ((x.pc : Int) + 4 * far.toInt < 0 → exec (.jmp c far) s = .next (s.progFault c 4 x.pc 0)) ∧
      (∀ t : Nat, (t : Int) = x.pc + 4 * ofs.toInt → inIsram t = false → x.rd a = x.rd b →
        exec (.beq c a b ofs) s = .next (s.progFault c 4 x.pc 0)) ∧
      (inIsram ((x.rd a + 4 * imm.signExtend 64).toNat) = false → exec (.jreg c d a imm) s = .next (s.progFault c 4 x.pc 0))))

/-- END, BARRIER and its release, RDFPS, CLRFPS, RDCYC (R195, R199, R203, R231). The model's choices in it: log 9, 14, 58. -/
def Obligations.SystemWords : Prop :=
  (∀ (s : State) (c : Nat) (d : RegNo), s.issues c →
    let x := (s.cell c).issue
    exec (.endCell c) s = .next (s.setCell c
      { x with pc := x.pc + 4, run := .finished, endCyc := (x.cyc + 1) % 2 ^ 64, endTime := s.time.clock }) ∧
    exec (.barrier c) s = .next (s.setCell c { x with pc := x.pc + 4, run := .barrier }) ∧
    exec (.rdfps c d) s = .next (s.setCell c { x.wr d (BitVec.ofNat 64 x.fps) with pc := x.pc + 4 }) ∧
    exec (.clrfps c) s = .next (s.setCell c { x with pc := x.pc + 4, fps := 0 }) ∧
    exec (.rdcyc c d) s = .next (s.setCell c { x.wr d (BitVec.ofNat 64 x.cyc) with pc := x.pc + 4 })) ∧
  (∀ (s : State) (g : Nat) (x : Guest), s.guest g = some x → (∀ k ∈ x.cellList, (s.cell k).run = .barrier) →
    ∃ t, exec (.barrierRelease g) s = .next t ∧ t = { s with cells := t.cells } ∧
      (∀ k ∈ x.cellList, (t.cell k) = { s.cell k with run := .running, cyc := (t.cell k).cyc } ∧
        (∃ j ∈ x.cellList, (t.cell k).cyc = (s.cell j).cyc) ∧ ∀ j ∈ x.cellList, (s.cell j).cyc ≤ (t.cell k).cyc) ∧
      ∀ k, k ∉ x.cellList → t.cell k = s.cell k)

/-- TMR (R238): the three kinds run on the record at the address in a, in read-write data SRAM, with b[0]; Q goes to d and the record
takes ELAPSED, Q, RUN and IN_PREV; a KIND above 2 gives 0 and leaves the record. A record elsewhere is a fault of kind 2, one not
8-byte aligned of kind 3 (R236). The timers of R238, kind by kind. EDG (R239): an unprimed detector gives 0; a primed one gives 1 on an edge of its mode; PREV takes the input and PRIMED is 1. -/
def Obligations.TimersAndEdges : Prop :=
  ((∀ (s : State) (c : Nat) (d a b : RegNo) (g : Guest), s.issues c → s.guest (s.cell c).guest = some g →
    let x := (s.cell c).issue
    let ad := (x.rd a).toNat
    let i := (x.rd b).getLsbD 0
    (ad % 8 ≠ 0 → exec (.tmr c d a b) s = .next (s.progFault c 3 x.pc ad)) ∧
    (ad % 8 = 0 → (∀ o, s.place? x ad 16 true ≠ some (.data o)) → exec (.tmr c d a b) s = .next (s.progFault c 2 x.pc ad)) ∧
    (∀ o, ad % 8 = 0 → s.place? x ad 16 true = some (.data o) →
      let kind := (Tbl.get 0 (o + 8) x.dsram).toNat
      let flags := Tbl.get 0 (o + 9) x.dsram
      let t0 : Timer := ⟨ofLe (tblBytes x.dsram (o + 4) 4), flags.getLsbD 0, flags.getLsbD 1, flags.getLsbD 2⟩
      let t1 := timerRun kind (ofLe (tblBytes x.dsram o 4)) g.cycLen i t0
      (2 < kind → exec (.tmr c d a b) s = .next (s.setCell c (x.wr d 0).next)) ∧
      (kind ≤ 2 → ∃ y : Cell, exec (.tmr c d a b) s = .next (s.setCell c (y.wr d (if t1.q then 1 else 0)).next) ∧
        y = { x with dsram := y.dsram, dirty := y.dirty } ∧
        ofLe (tblBytes y.dsram (o + 4) 4) = t1.elapsed % 2 ^ 32 ∧ (Tbl.get 0 (o + 9) y.dsram).getLsbD 0 = t1.q ∧
        (Tbl.get 0 (o + 9) y.dsram).getLsbD 1 = t1.run ∧ (Tbl.get 0 (o + 9) y.dsram).getLsbD 2 = i ∧
        (∀ k, Tbl.get false k y.dirty = (decide (k = (o + 4) / 64 ∨ k = (o + 9) / 64) || Tbl.get false k x.dirty)) ∧
        ∀ k, ¬ (o + 4 ≤ k ∧ k < o + 8) → k ≠ o + 9 → Tbl.get 0 k y.dsram = Tbl.get 0 k x.dsram))) ∧
  (∀ (preset len : Nat) (i : Bool) (t : Timer),
    let up := min 0xFFFF_FFFF (t.elapsed + len)
    (i = true → timerRun 0 preset len i t = { t with elapsed := up, q := decide (preset ≤ up), prev := true }) ∧
    (i = false → timerRun 0 preset len i t = { t with elapsed := 0, q := false, prev := false }) ∧
    (i = true → timerRun 1 preset len i t = { t with elapsed := 0, q := true, prev := true }) ∧
    (i = false → t.q = true → timerRun 1 preset len i t = { t with elapsed := up, q := decide (up < preset), prev := false }) ∧
    (i = false → t.q = false → timerRun 1 preset len i t = { t with prev := false }) ∧
    (t.run = false → (i = false ∨ t.prev = true) → timerRun 2 preset len i t = { t with q := false, prev := i }) ∧
    (t.run = false → i = true → t.prev = false →
      let e := min 0xFFFF_FFFF len
      timerRun 2 preset len i t = { elapsed := e, q := decide (e < preset), run := decide (e < preset), prev := true }) ∧
    (t.run = true → timerRun 2 preset len i t = { elapsed := up, q := decide (up < preset), run := decide (up < preset), prev := i }))) ∧
  (∀ (s : State) (c : Nat) (d a b : RegNo) (m : EdgeMode) (o : Nat), s.issues c →
    let x := (s.cell c).issue
    let i := (x.rd b).getLsbD 0
    let f := Tbl.get 0 o x.dsram
    (x.rd a).toNat % 8 = 0 → s.place? x (x.rd a).toNat 8 true = some (.data o) →
      ∃ y : Cell, y = { x with dsram := y.dsram, dirty := y.dirty } ∧
        exec (.edg c d a b m) s = .next (s.setCell c (y.wr d (if f.getLsbD 1 &&
          (match m with
           | .rising => !f.getLsbD 0 && i
           | .falling => f.getLsbD 0 && !i
           | .both => f.getLsbD 0 != i) then 1 else 0)).next) ∧
        (Tbl.get 0 o y.dsram).getLsbD 0 = i ∧ (Tbl.get 0 o y.dsram).getLsbD 1 = true ∧
        (∀ k, Tbl.get false k y.dirty = (decide (k = o / 64) || Tbl.get false k x.dirty)) ∧
        ∀ k, k ≠ o → Tbl.get 0 k y.dsram = Tbl.get 0 k x.dsram)

/-! ### Floating point and vectors -/

/-- Scalar floating point (R231, R233): the result goes to d, a binary32 one with bits [63:32] zero, and FPS gains the bits of the
exceptions raised and loses none. The model's choices in it: log 9, 14. -/
def Obligations.FloatWords : Prop :=
  ∀ (s : State) (c : Nat) (p : Prec) (d a b e : RegNo), s.issues c →
    let x := (s.cell c).issue
    let f := fmtOf p
    let l := fpIn p (x.rd a)
    let r := fpIn p (x.rd b)
    let z := fpIn p (x.rd e)
    let gives := fun (i : Instr) (v : Nat × FFlags) =>
      exec i s = .next (s.setCell c { x.wr d (BitVec.ofNat 64 v.1) with pc := x.pc + 4, fps := x.fps ||| flagBits v.2 })
    gives (.fadd c p d a b) (fAdd f l r) ∧ gives (.fsub c p d a b) (fSub f l r) ∧ gives (.fmul c p d a b) (fMul f l r) ∧
    gives (.fdiv c p d a b) (fDiv f l r) ∧ gives (.fsqrt c p d a) (fSqrt f l) ∧ gives (.fmin c p d a b) (fMinMax f false l r) ∧
    gives (.fmax c p d a b) (fMinMax f true l r) ∧ gives (.feq c p d a b) (fEq f l r) ∧ gives (.flt c p d a b) (fLt f l r) ∧
    gives (.fle c p d a b) (fLe f l r) ∧ gives (.fabs c p d a) (fAbs f l, {}) ∧ gives (.fneg c p d a) (fNeg f l, {}) ∧
    gives (.ftoi c p d a) (fToI f l) ∧ gives (.itof c p d a) (iToF f (x.rd a).toNat) ∧
    gives (.widen c d a) (fConv fmt32 fmt64 ((x.rd a).toNat % 2 ^ 32)) ∧ gives (.narrow c d a) (fConv fmt64 fmt32 (x.rd a).toNat) ∧
    gives (.fma c p d a b e) (fFma f l r z) ∧ gives (.fms c p d a b e) (fFms f l r z)

/-- Vector words (R234): lane n of d is the function of lane n of a and b, for every lane; FPS gains the flags of all lanes. Transfers
between general and vector registers: VGET, VPUT, VSPLAT, and the sums of the eight lanes.
The model's choices in it: log 9, 14. -/
def Obligations.VectorWords : Prop :=
  (∀ (s : State) (c : Nat) (t : Lane) (p : Prec) (d a b e : RegNo), s.issues c →
    let x := (s.cell c).issue
    let lane := fun (r : RegNo) (n : Nat) => laneOf (x.vrd r) n
    let gives := fun (i : Instr) (f : Nat → DWord × FFlags) => ∃ v : BitVec 512, ∃ fl : Nat,
      exec i s = .next (s.setCell c { x.vwr d v with pc := x.pc + 4, fps := x.fps ||| fl }) ∧
      (∀ n, n < 8 → laneOf v n = (f n).1) ∧ (∀ j, fl.testBit j = true ↔ ∃ n, n < 8 ∧ (flagBits (f n).2).testBit j = true)
    let two := fun (fi : DWord → DWord → DWord) ff (n : Nat) => laneFn t fi ff (lane a n) (lane b n)
    gives (.vadd c t d a b) (two (fun l r => l + r) fAdd) ∧ gives (.vsub c t d a b) (two (fun l r => l - r) fSub) ∧
    gives (.vmul c t d a b) (two (fun l r => l * r) fMul) ∧
    gives (.vmin c t d a b) (two (fun l r => if l.sle r then l else r) (fun f => fMinMax f false)) ∧
    gives (.vmax c t d a b) (two (fun l r => if r.sle l then l else r) (fun f => fMinMax f true)) ∧
    gives (.vcmplt c t d a b) (two (fun l r => if l.slt r then BitVec.allOnes 64 else 0) (fun f l r => laneTrue t (fLt f l r))) ∧
    gives (.vcmpeq c t d a b) (two (fun l r => if l = r then BitVec.allOnes 64 else 0) (fun f l r => laneTrue t (fEq f l r))) ∧
    gives (.vdiv c p d a b) (fun n => laneFn (laneOfPrec p) (fun l _ => l) fDiv (lane a n) (lane b n)) ∧
    gives (.vabs c p d a) (fun n => (BitVec.ofNat 64 (fAbs (fmtOf p) (fpIn p (lane a n))), {})) ∧
    gives (.vneg c t d a) (fun n => laneFn t (fun l _ => 0 - l) (fun f l _ => (fNeg f l, {})) (lane a n) (lane a n)) ∧
    gives (.vand c d a b) (fun n => (lane a n &&& lane b n, {})) ∧ gives (.vor c d a b) (fun n => (lane a n ||| lane b n, {})) ∧
    gives (.vxor c d a b) (fun n => (lane a n ^^^ lane b n, {})) ∧
    gives (.vfma c p d a b e) (fun n =>
      let r := fFma (fmtOf p) (fpIn p (lane a n)) (fpIn p (lane b n)) (fpIn p (lane e n))
      (BitVec.ofNat 64 r.1, r.2))) ∧
  (∀ (s : State) (c : Nat) (d a : RegNo) (l : BitVec 3), s.issues c →
    let x := (s.cell c).issue
    exec (.vget c d a l) s = .next (s.setCell c (x.wr d (laneOf (x.vrd a) l.toNat)).next) ∧
    (∃ v : BitVec 512, exec (.vput c d a l) s = .next (s.setCell c (x.vwr d v).next) ∧
      ∀ n, n < 8 → laneOf v n = if n = l.toNat then x.rd a else laneOf (x.vrd d) n) ∧
    (∃ v : BitVec 512, exec (.vsplat c d a) s = .next (s.setCell c (x.vwr d v).next) ∧ ∀ n, n < 8 → laneOf v n = x.rd a) ∧
    exec (.vsumi c d a) s = .next (s.setCell c (x.wr d (BitVec.ofNat 64
      (((List.range 8).map (fun n => (laneOf (x.vrd a) n).toNat)).sum))).next) ∧
    (∃ (v : Nat → Nat) (fl : Nat), v 0 = (laneOf (x.vrd a) 0).toNat ∧
      (∀ n, n < 7 → v (n + 1) = (fAdd fmt64 (v n) (laneOf (x.vrd a) (n + 1)).toNat).1) ∧
      (∀ j, fl.testBit j = true ↔ ∃ n, n < 7 ∧ (flagBits (fAdd fmt64 (v n) (laneOf (x.vrd a) (n + 1)).toNat).2).testBit j = true) ∧
      exec (.vsumd c d a) s = .next (s.setCell c
        { x.wr d (BitVec.ofNat 64 (v 7)) with pc := x.pc + 4, fps := x.fps ||| fl })))

/-! ### Register accesses and the common header -/

/-- Steps 1 and 3 to 8 of R58: a write outside the page's windows, in BOOT outside CHIP and BOOT, to an isolated page, to an offset that
holds no register, with an illegal field (the code of the lowest bit, R8), to a block that cannot act, or against a check of its
chapter fails with the code of the first step that fails; PAGE_ERR takes every write. The model's choices in it: log 17, 18, 120. -/
def Obligations.WriteCheckOrder : Prop :=
  ∀ (s : State) (r : Rule) (src : Src) (p : Page) (o : Nat) (w : Word),
    (o = HDR.PAGE_ERR → s.verdict r src p o w = none) ∧
    (o ≠ HDR.PAGE_ERR →
      (noWindow p o = true → s.verdict r src p o w = some E_RANGE) ∧
      (noWindow p o = false →
        (s.role.mode = .boot → p ≠ .chip → p ≠ .boot → src ≠ .boot → s.verdict r src p o w = some E_MODE) ∧
        ((s.role.mode ≠ .boot ∨ p = .chip ∨ p = .boot ∨ src = .boot) →
          (s.isolated p = true → openWhenIsolated o = false → s.verdict r src p o w = some E_LOCKED) ∧
          ((s.isolated p = false ∨ openWhenIsolated o = true) →
            (regFields p o = none → s.verdict r src p o w = some E_RESERVED) ∧
            (∀ flds, regFields p o = some flds →
              let v := s.written p o w
              let bad := lowest (s.illegalLow p o ++ s.illegal flds (s.view p o) w ++ r.legal s src v)
              let busy := (Tbl.get false (Page.base p) s.srst = true ∧ 0x040 ≤ o) ∨ r.busy s src v = true
              (∀ c, bad = some c → s.verdict r src p o w = some c) ∧
              (bad = none → busy → s.verdict r src p o w = some E_BUSY) ∧
              (bad = none → ¬ busy → s.verdict r src p o w = r.check s src v))))))

/-- A rejected write (R59): STICKY, COUNT and CODE of PAGE_ERR, PAGE_ERR_ADDR and IRQ_STS.ERR; no record, and nothing else. -/
def Obligations.RejectedWrite : Prop :=
  ∀ (s : State) (src : Src) (a : Access) (p : Page) (o c : Nat), a.full = true → a.bytes = 4 → a.addr % 4 = 0 →
    pageFor src a.addr = some (p, o) → s.reaches src p = true →
    s.verdict (ruleFor p o) src p o (a.data.setWidth 32) = some c →
    Ends (.regWrite src a) s s [key p HDR.PAGE_ERR, key p HDR.PAGE_ERR_ADDR, key p HDR.IRQ_STS] (fun t =>
      t.rd p HDR.PAGE_ERR = BitVec.ofNat 32 (2 ^ 31 + 256 * min 0xFFFF (s.rdf p HDR.PAGE_ERR 23 8 + 1) + c) ∧
      t.rd p HDR.PAGE_ERR_ADDR = BitVec.ofNat 32 (srcCode src * 2 ^ 24 + (Page.base p % 0x100_0000 + o) % 2 ^ 24) ∧
      t.shadow = s.shadow ∧
      bit (t.rd p HDR.IRQ_STS) 25 = true ∧ t.ledger = s.ledger ∧
      (¬ guestSts (key p HDR.IRQ_STS) → ∀ b, b ≠ 25 → bit (t.rd p HDR.IRQ_STS) b = bit (s.rd p HDR.IRQ_STS) b))

/-- REG_WRITE (R6, R37, R38, R58): an accepted 32-bit write of a register without an action of its own stores its fields by their access
codes and changes nothing else; a word that waits for another register's write (`waits`: the low word of a wide field, the words
of LG_BASE and FN_WIN_BASE, a coefficient's offset) waits, and nothing else changes; the write of a high word stores both words of
its field and the low word waits no more. The model's choices in it: log 16, 17, 31. -/
def Obligations.AcceptedWrite : Prop :=
  ∀ (s : State) (src : Src) (a : Access) (p : Page) (o : Nat) (flds : List Fld), a.full = true → a.bytes = 4 → a.addr % 4 = 0 →
    pageFor src a.addr = some (p, o) → s.accepts src p o (a.data.setWidth 32) → regFields p o = some flds → 0x040 ≤ o →
    let w : Word := a.data.setWidth 32
    let plain := (∀ t src v, (ruleFor p o).pre t src v = t) ∧ (∀ t src v, (ruleFor p o).apply t src v = t)
    (plain → waits p o = false → (wideRegs p).contains (o - 4) = false →
      Ends (.regWrite src a) s s [key p o] (fun t => t.rd p o = stored flds (s.rd p o) w ∧ t.shadow = s.shadow)) ∧
    ((plain ∨ (wideRegs p).contains o = true) → waits p o = true →
      Ends (.regWrite src a) s s [] (fun t => t.shadow = Tbl.put (key p o) w s.shadow ∧
        ((wideRegs p).contains o = true → ∀ v, t.written p (o + 4) v = w.toNat + 2 ^ 32 * v.toNat))) ∧
    (plain → waits p o = false → (wideRegs p).contains (o - 4) = true →
      Ends (.regWrite src a) s s [key p (o - 4), key p o] (fun t =>
        t.rd p o = stored flds (s.rd p o) w ∧
        t.rd p (o - 4) = stored ((regFields p (o - 4)).getD []) (s.rd p (o - 4)) (Tbl.get (s.rd p (o - 4)) (key p (o - 4)) s.shadow) ∧
        t.shadow = Tbl.del (key p (o - 4)) s.shadow))

/-- What a store leaves in a field (R6): RW and RWC take the value written, RO and WO keep theirs, W1C loses the bits written 1 and
W1S gains them. The model's choices in it: log 18. -/
def Obligations.FieldAccess : Prop :=
  ∀ (old w : Word) (hi lo rst : Nat), lo ≤ hi → hi < 32 →
    let after := fun (acc : Acc) => stored [⟨hi, lo, acc, rst⟩] old w
    (∀ acc j, ¬ (lo ≤ j ∧ j ≤ hi) → bit (after acc) j = bit old j) ∧
    (∀ j, lo ≤ j → j ≤ hi →
      bit (after .rw) j = bit w j ∧ bit (after .rwc) j = bit w j ∧ bit (after .ro) j = bit old j ∧ bit (after .wo) j = bit old j ∧
      bit (after .w1c) j = (bit old j && !bit w j) ∧ bit (after .w1s) j = (bit old j || bit w j))

/-- Reads that latch (R38, R332, R375): a read of a low word that no latch serves holds the high word for the same source, and that
source's next read of the high word returns it and uses it up; G_CYC_C holds both words of the second, LG_HEAD_LO the head and tail
at one instant; nothing else changes. A read that reaches no page, or in BOOT outside CHIP and BOOT, leaves everything.
The model's choices in it: log 31, 32. -/
def Obligations.LatchingReads : Prop :=
  (∀ (s : State) (src : Src) (a : Nat) (p : Page) (o : Nat) (flds : List Fld), a % 4 = 0 → pageFor src a = some (p, o) →
    pageFor src (a + 4) = some (p, o + 4) → s.reaches src p = true → s.role.mode ≠ .boot → s.isolated p = false → 0x040 ≤ o →
    latchSet p o = [o + 4] → Tbl.look (srcKey src * 2 ^ 33 + Page.base p + o) s.latch = none → regFields p (o + 4) = some flds →
    ∃ t, exec (.latchingRead src a) s = .next t ∧ t = { s with latch := t.latch } ∧
      (t.read src (a + 4) 4).1 = leBytes 4 (s.view p (o + 4)).toNat ∧
      ∃ u, exec (.latchingRead src (a + 4)) t = .next u ∧ u = { t with latch := u.latch } ∧
        u.readReg src p (o + 4) = u.view p (o + 4)) ∧
  (∀ (s : State) (src : Src) (a : Nat), a % 4 = 0 →
    (pageFor src a = none → exec (.latchingRead src a) s = .next s) ∧
    (∀ p o, pageFor src a = some (p, o) →
      s.reaches src p = false ∨ (s.role.mode = .boot ∧ p ≠ .chip ∧ p ≠ .boot ∧ src ≠ .boot) → exec (.latchingRead src a) s = .next s)) ∧
  (∀ (s : State) (g : Fin 256), s.reaches (.fn g.val) (.guest g.val 0) = true → s.role.mode ≠ .boot →
    s.isolated (.guest g.val 0) = false →
    Tbl.look (srcKey (.fn g.val) * 2 ^ 33 + Page.base (.guest g.val 0) + GCTL.G_CYC_C) s.latch = none →
    ∃ t, exec (.gCycCRead g) s = .next t ∧ t = { s with latch := t.latch } ∧
      t.readReg (.fn g.val) (.guest g.val 0) GCTL.G_CYC_S_LO = s.view (.guest g.val 0) GCTL.G_CYC_S_LO ∧
      t.readReg (.fn g.val) (.guest g.val 0) GCTL.G_CYC_S_HI = s.view (.guest g.val 0) GCTL.G_CYC_S_HI) ∧
  (∀ (s : State) (src : Src), s.reaches src .ledger = true → s.role.mode ≠ .boot → s.isolated .ledger = false →
    Tbl.look (srcKey src * 2 ^ 33 + Page.base .ledger + LEDGER.LG_HEAD_LO) s.latch = none →
    ∃ t, exec (.lgHeadRead src) s = .next t ∧ t = { s with latch := t.latch } ∧
      ∀ o ∈ [LEDGER.LG_HEAD_HI, LEDGER.LG_HEAD_OFS, LEDGER.LG_TAIL_LO, LEDGER.LG_TAIL_HI, LEDGER.LG_TAIL_OFS],
        t.readReg src .ledger o = s.view .ledger o)

/-- PAGE_CTL (R46, R47, R68): an accepted write of SRST starts a soft reset, which runs from then on, and leaves the register as it is; one
of CONTAIN or of ENABLE leaves the register with the value written. Each that writes another value is recorded with the value
before and after and the source. A block that ENABLE = 0 stops is idle: a port's and the Hinge's link is down, no converter
streams, no filter channel or acquisition unit runs, no scan runs, the Ledger's writer stops; the other blocks hold their cells idle
by what each of their commands then does. SOFT_RESET, PAGE_CONTAIN_CHG and PAGE_ENABLE_CHG complete here. The model's choices in
it: log 22, 23. -/
def Obligations.PageControl : Prop :=
  ∀ (s : State) (src : Src) (p : Page), Page.isGuest p = false → bit (s.rd p HDR.PAGE_CTL) 1 = false →
    let old := s.rd p HDR.PAGE_CTL
    let note := fun (w : Word) =>
      (s.emit p 0x011 0 (leBytes 4 (Page.base p) ++ leBytes 4 old.toNat ++ leBytes 4 w.toNat ++ leBytes 1 (srcCode src))).ledger
    (s.accepts src p HDR.PAGE_CTL (old ||| 2) →
      Ends (.softReset src p) s { s with srst := Tbl.put (Page.base p) true s.srst, ledger := note (old ||| 2) } [key p HDR.PAGE_CTL]
        (fun t => t.rd p HDR.PAGE_CTL = old ∧ Tbl.get false (Page.base p) t.srst = true)) ∧
    (∀ v : BitVec 2, let w := setBits old 5 4 v.toNat
      s.accepts src p HDR.PAGE_CTL w →
      Ends (.pageContainChg src p v) s (if w = old then s else { s with ledger := note w }) [key p HDR.PAGE_CTL]
        (fun t => t.rd p HDR.PAGE_CTL = w)) ∧
    (∀ en : Bool, let w := setBit old 0 en
      s.accepts src p HDR.PAGE_CTL w →
      (bit old 0 = en → Ends (.pageEnableChg src p en) s s [key p HDR.PAGE_CTL] (fun t => t.rd p HDR.PAGE_CTL = old)) ∧
      (bit old 0 ≠ en → ∃ t, exec (.pageEnableChg src p en) s = .next t ∧ t.rd p HDR.PAGE_CTL = w ∧ t.role.mode = s.role.mode ∧
        (∀ n, p = .port n → n < 4 → en = false → t.linkOf n = false ∧ t.nsOf n = []) ∧
        (p = .mgmt → en = false → t.linkOf 4 = false ∧ t.nsOf 4 = []) ∧
        (p = .hinge → en = false → t.hinge.link = false) ∧
        (p = .adc → en = false → ∀ k, k < 6 → (t.stream k).on = false) ∧
        (p = .filt → en = false → ∀ n, n < 16 → (t.fch n).state = 0) ∧
        (p = .acq → en = false → ∀ u, u < 4 → (t.unit u).state = 0) ∧
        (p = .check → en = false → ∀ c, c < 4 → (t.scan c).busy = false) ∧
        (p = .ledger → en = false → t.ledger.running = false) ∧
        ((p ∉ [Page.mgmt, .hinge, .adc, .filt, .acq, .check, .ledger] ∧ ∀ n, p ≠ .port n) →
          sameState { s with ledger := note w } t ∧ keepsRegs s t [key p HDR.PAGE_CTL])))

/-- SOFT_RESET_DONE (R47, R497): with a soft reset running on a block, it ends: SRST_BUSY goes; registers of the page return to their reset
values but those that R47 and R497 keep (`keptReg`), those of other pages stay, and the state that the block holds outside its
registers returns to its reset condition but for what the table of R497 keeps; the unit's mode and role and its guests stay. On a
page with no soft reset running nothing happens. SOFT_RESET_DONE completes here. The model's choices in it: log 22, 24, 117. -/
def Obligations.SoftResetEnds : Prop :=
  (∀ (s : State) (p : Page), Tbl.get false (Page.base p) s.srst = false → exec (.softResetDone p) s = .next s) ∧
  (∀ (s : State) (p : Page), Page.isBlock p = true → Tbl.get false (Page.base p) s.srst = true →
    ∃ t, exec (.softResetDone p) s = .next t ∧ Tbl.get false (Page.base p) t.srst = false ∧
      (∀ k, k ≠ Page.base p → Tbl.get false k t.srst = Tbl.get false k s.srst) ∧ t.role = s.role ∧ t.guests = s.guests ∧
      t.time.clock = s.time.clock ∧ t.time.elapsed = s.time.elapsed ∧ t.time.stepGen = s.time.stepGen ∧
      -- registers
      ((p ∈ [Page.pwrmon, .boot, .role, .redun, .porter, .align, .egress, .point, .hinge, .check, .clkrst, .crypto, .ledger, .hostif,
          .debug, .fuse, .filt, .acq] ∨ ∃ n, p = .exb n ∨ p = .pcache n ∨ p = .dramc n) →
        (∀ o, o < 0x1000 → t.rd p o = if keptReg p o = true then s.rd p o else resetWord (key p o)) ∧
        ∀ k, ¬ guestSts k → ¬ (Page.base p ≤ k ∧ k < Page.base p + 0x1000) → Tbl.get 0 k t.regs = Tbl.get 0 k s.regs) ∧
      (p = .courier ∨ p = .keyring → ∀ o, o < 0x1000 → o ≠ KEYRING.KR_CTL →
        t.rd p o = if keptReg p o = true then s.rd p o else resetWord (key p o)) ∧
      (p = .keyring → t.rd .keyring KEYRING.KR_CTL = (if bit (s.rd .keyring KEYRING.KR_CTL) 8 = true
        then setBit (resetWord (key .keyring KEYRING.KR_CTL)) 8 true else resetWord (key .keyring KEYRING.KR_CTL))) ∧
      (∀ n, n < 4 → p = .port n → t.rd p PORT.PORT_CTL = resetWord (key p PORT.PORT_CTL) ∧ t.nsOf n = [] ∧
        (s.rdf p PORT.PORT_CTL 3 0 = bits (resetWord (key p PORT.PORT_CTL)) 3 0 → t.link = s.link)) ∧
      -- state outside the registers
      (p = .timeu → t.time.slewPend = 0 ∧ t.time.sync = .free ∧ t.time.pps = false ∧ t.time.capFifo = [] ∧ t.time.capSeq = 0 ∧
        t.time.txts = [] ∧ t.time.tio = [] ∧ t.time.tcTable = []) ∧
      (p = .redun → t.dd = [] ∧ t.unitSeq = s.unitSeq ∧ t.addrCount = s.addrCount) ∧
      (p = .porter → t.porter.ctxs = [] ∧ t.porter.mt = [] ∧ t.porter.cache = [] ∧ t.porter.disc = [] ∧ t.porter.held = [] ∧
        t.porter.sdtSet = false ∧ t.porter.jobs = s.porter.jobs) ∧
      (p = .align → t.align = {}) ∧
      (p = .egress → t.pubs = [] ∧ t.due = [] ∧ t.addrCount = [] ∧ t.pubJob = none ∧ t.pubAccept = []) ∧
      (∀ n, p = .exb n → Tbl.look n t.gcmds = none ∧ Tbl.look n t.patchJobs = none ∧ Tbl.look n t.patchPend = none ∧
        ∀ c, c < 16 → t.cell (16 * n + c) = {}) ∧
      (p = .point → t.pointJob = none) ∧
      (p = .courier → t.courier.queues = [] ∧ t.courier.engines = [] ∧ t.courier.fns = s.courier.fns) ∧
      (p = .hinge → t.hinge.queue = [] ∧ t.hinge.wait = [] ∧ t.hinge.link = s.hinge.link ∧ t.hinge.lock = s.hinge.lock) ∧
      (p = .keyring → t.keyring.slots = s.keyring.slots ∧ t.keyring.data = []) ∧
      (p = .ledger → t.ledger.running = false ∧ t.ledger.idx = s.ledger.idx ∧ t.ledger.headSeq = s.ledger.headSeq ∧
        t.ledger.pendingCnt = s.ledger.pendingCnt ∧ t.ledger.hists = s.ledger.hists ∧ t.ledger.codeCfg = [] ∧ t.ledger.clr = none) ∧
      (p = .check → t.scans = []) ∧ (p = .filt → t.analog.filt = []) ∧
      (p = .acq → ∀ u, (t.unit u).state = 0 ∧ (Tbl.sortedAbove none s.analog.acq = true → (t.unit u).seq = (s.unit u).seq)) ∧
      (p = .adc → t.analog.cal = {}) ∧ (p = .flash → t.ckpt = {}) ∧
      (p ∈ [Page.pwrmon, .boot, .role, .redun, .porter, .align, .egress, .point, .hinge, .check, .clkrst, .crypto, .courier, .hostif,
          .keyring, .ledger, .filt, .acq] → t.dram = s.dram ∧ t.flash = s.flash))

/-- IRQ_SET, IRQ_STS, PAGE_ERR and LEDGER_CTL (R49, R51, R55, R68): sources are set or cleared, PAGE_ERR returns to 0, LEDGER_CTL is
stored and its change recorded. COUNTER_CLEAR (R125, R126, R164, R167, R217, R288, R338, R387 and the other blocks' register
tables): an accepted write of CLR sets the block's counters to 0 and leaves every other register and everything else. IRQ_SET_WRITE, IRQ_STS_CLEAR,
PAGE_ERR_CLEAR, LEDGER_CTL_WRITE and COUNTER_CLEAR complete here. The model's choices in it: log 20, 144. -/
def Obligations.HeaderAndCounters : Prop :=
  (∀ (s : State) (src : Src) (p : Page) (w : Word),
    (s.accepts src p HDR.IRQ_SET w → Ends (.irqSetWrite src p w) s s [key p HDR.IRQ_STS] (fun t =>
      ¬ guestSts (key p HDR.IRQ_STS) → t.rd p HDR.IRQ_STS = s.rd p HDR.IRQ_STS ||| w)) ∧
    (s.reaches src p = true → Ends (.pageErrClear src p) s s [key p HDR.PAGE_ERR] (fun t => t.rd p HDR.PAGE_ERR = 0)) ∧
    (∀ flds, regFields p HDR.IRQ_STS = some flds →
      let v := setBits w 15 0 (bits (s.view p HDR.IRQ_STS) 15 0)
      s.accepts src p HDR.IRQ_STS v → Ends (.irqStsClear src p w) s s [key p HDR.IRQ_STS] (fun t =>
        ¬ guestSts (key p HDR.IRQ_STS) → t.rd p HDR.IRQ_STS = stored flds (s.rd p HDR.IRQ_STS) v)) ∧
    (∀ flds, regFields p HDR.LEDGER_CTL = some flds → Page.isGuest p = false → s.accepts src p HDR.LEDGER_CTL w →
      Ends (.ledgerCtlWrite src p w) s (if w = s.rd p HDR.LEDGER_CTL then s else
        { s with ledger := (s.emit p 0x013 0 (leBytes 4 (Page.base p) ++ leBytes 4 (s.rd p HDR.LEDGER_CTL).toNat ++ leBytes 4 w.toNat)).ledger })
        [key p HDR.LEDGER_CTL] (fun t => t.rd p HDR.LEDGER_CTL = stored flds (s.rd p HDR.LEDGER_CTL) w))) ∧
  (∀ (s : State) (src : Src) (c : Fin 2),
    let clears := fun (p : Page) (o : Nat) (os : List Nat) => s.accepts src p o 1 → cntClr p c.val = some o →
      Ends (.counterClear src p c) s s (os.map (key p)) (fun t => ∀ a ∈ os, t.rd p a = 0)
    (∀ n, n < 4 → clears (.port n) PORT.CNT_CLR portCounters) ∧
    clears .porter PORTER.CNT_CLR porterCounters ∧
    clears .point POINT.CNT_CLR [POINT.INGRESS_WRITES, POINT.COMMIT_WRITES, POINT.MGR_WRITES, win 0 POINTW.QUEUE_PEAK, win 1 POINTW.QUEUE_PEAK] ∧
    clears .role ROLE.CNT_CLR [ROLE.TAKEOVERS, ROLE.ISOLATIONS, ROLE.HINGE_LOSSES, ROLE.NET_LOSSES] ∧
    clears .keyring KEYRING.CNT_CLR [KEYRING.CMDS_OK, KEYRING.CMDS_REFUSED, KEYRING.REMASKS, KEYRING.USES_REFUSED,
      win 0 KEYRINGW.ENG_OPS, win 1 KEYRINGW.ENG_OPS] ∧
    clears .mgmt PORT.CNT_CLR portCounters ∧ clears .redun (win c.val REDUNW.CNT_CLR) (pairCounters.map (win c.val)) ∧
    clears .align ALIGN.CNT_CLR ([ALIGN.LATE, ALIGN.EARLY, ALIGN.DUP, ALIGN.TIMING, ALIGN.SUBST, ALIGN.RELOCKS, ALIGN.DISABLED_DROP] ++
      (List.range 4).flatMap (fun l => [win l ALIGNW.LANE_PEAK, win l ALIGNW.LANE_FULL])) ∧
    (∀ n, n < 16 → clears (.exb n) EXB.CNT_CLR ([EXB.OVERRUNS, EXB.PROG_FAULTS, EXB.LOCAL_LATE] ++
        (List.range 16).map (fun k => win k EXBW.CELL_EXEC_MAX)) ∧
      clears (.pcache n) PCACHE.CNT_CLR ([PCACHE.MOVE_PEAK, PCACHE.UPDATES] ++
        (List.range 8).map (fun k => win k PCACHEW.BANK_ECC_CORR))) ∧
    clears .hinge HINGE.CNT_CLR ([HINGE.IMG_ABSENT, HINGE.LINES_LATE, HINGE.DIVERGE, HINGE.FRAME_ERR, HINGE.CTL_RETRY, HINGE.NET_FOREIGN,
      HINGE.HB_LOSSES] ++ (List.range 4).flatMap (fun l => [win l HINGEW.LANE_SYNC_ERR, win l HINGEW.LANE_DOWNS])) ∧
    clears .check CHECK.CNT_CLR [CHECK.SCANS, CHECK.SCAN_ERRS] ∧
    clears .ledger LEDGER.CNT_CLR [LEDGER.RECORDS, LEDGER.SUPPRESSED, LEDGER.INGEST_FULL] ∧
    (∀ n, n < 4 → clears (.dramc n) DRAMC.CNT_CLR ([DRAMC.CE_TOTAL, DRAMC.UE_TOTAL, DRAMC.SCRUB_FIX] ++
      (List.range 8).flatMap (fun k => [win k DRAMCW.CH_CE, win k DRAMCW.CH_UE]))) ∧
    clears .hostif HOSTIF.HI_CNT_CLR [HOSTIF.CORR_ERRS, HOSTIF.UNCORR_ERRS, HOSTIF.POISON_RX, HOSTIF.CPL_TIMEOUTS] ∧
    clears .clkrst CLKRST.CNT_CLR (CLKRST.REF_LOSSES :: (List.range 3).map (fun k => win k CLKRSTW.LOCK_LOSSES)) ∧
    clears .adc ADC.CNT_CLR ([ADC.CONV_OVERRUNS, ADC.REF_BAD_EVENTS] ++
      (List.range 4).flatMap (fun k => [win k ADCW.CONV_OVERRUN, win k ADCW.CORE_CONVS])) ∧
    clears .filt 0x040 ((List.range 16).flatMap (fun k => [win k FILTW.FC_OUTS, win k FILTW.FC_THR_EVENTS])) ∧
    clears .acq ACQ.CNT_CLR ((List.range 4).flatMap (fun u => [ACQW.AU_RECORDS, ACQW.AU_REARM_TRIGS, ACQW.AU_RETRIGS,
      ACQW.AU_FIFO_DROP, ACQW.AU_LOST, ACQW.AU_AVG_DROP, ACQW.AU_FIFO_PEAK].map (auWin u))) ∧
    (s.accepts src .pwrmon PWRMON.CNT_CLR 1 →
      Ends (.counterClear src .pwrmon c) s s (key .pwrmon PWRMON.DIPS ::
          (List.range 9).flatMap (fun k => [key .pwrmon (win k PWRMONW.RAIL_MIN), key .pwrmon (win k PWRMONW.RAIL_DIPS)])) (fun t =>
        t.rd .pwrmon PWRMON.DIPS = 0 ∧ ∀ k, k < 9 → t.rd .pwrmon (win k PWRMONW.RAIL_MIN) = 4095 ∧
          t.rd .pwrmon (win k PWRMONW.RAIL_DIPS) = 0)) ∧
    (s.accepts src .crypto CRYPTO.CNT_CLR 1 →
      Ends (.counterClear src .crypto c) s s (key .crypto CRYPTO.HMAC_Q :: cryptoCounters.map (key .crypto)) (fun t =>
        (∀ a ∈ cryptoCounters, t.rd .crypto a = 0) ∧ t.rdf .crypto CRYPTO.HMAC_Q 24 16 = 0)) ∧
    (s.accepts src .courier COURIER.CNT_CLR 1 →
      let os := [COURIER.SEGMENTS, COURIER.BYTES_H2D, COURIER.BYTES_D2H, COURIER.HOSTFAULTS, COURIER.DATAERRS, COURIER.FN_RESETS,
        0x100 + GQ.Q_DONE, 0x100 + GQ.Q_ERRS] ++ (List.range 8).map (fun e => win e COURIERW.ENG_SEGS)
      Ends (.counterClear src .courier c) s { s with courier := { s.courier with h2d := 0, d2h := 0 } } (os.map (key .courier))
        (fun t => ∀ a ∈ os, t.rd .courier a = 0)))

/-! ### Messages and containment -/

/-- MSI-X (R66): a masked vector sends nothing and keeps its pending bit; when it is unmasked a message that waits is sent if its
summary still is 1, and the bit clears. A vector that the function does not have does nothing. MSIX_MASK and MSIX_UNMASK complete here.
The model's choices in it: log 30. -/
def Obligations.VectorMasks : Prop :=
  (∀ (s : State) (fn vec : Nat), msixOk fn vec = false →
    exec (.msixMask fn vec) s = .next s ∧ exec (.msixUnmask fn vec) s = .next s) ∧
  ∀ (s : State) (fn vec : Nat), msixOk fn vec = true →
    (∃ t, exec (.msixMask fn vec) s = .next t ∧ t = { s with msixMask := t.msixMask } ∧
      (∀ k, Tbl.get false k t.msixMask = (decide (k = vecKey fn vec) || Tbl.get false k s.msixMask)) ∧
      t.fire fn vec = { t with msixPend := Tbl.set false (vecKey fn vec) true t.msixPend }) ∧
    (∃ t, exec (.msixUnmask fn vec) s = .next t ∧ t = { s with msixMask := t.msixMask, msixPend := t.msixPend, sent := t.sent } ∧
      Tbl.get false (vecKey fn vec) t.msixMask = false ∧ Tbl.get false (vecKey fn vec) t.msixPend = false ∧
      (∀ k, k ≠ vecKey fn vec → Tbl.get false k t.msixMask = Tbl.get false k s.msixMask ∧
        Tbl.get false k t.msixPend = Tbl.get false k s.msixPend) ∧
      (s.padsTaken = false → t.sent = if Tbl.get false (vecKey fn vec) s.msixPend = true ∧ s.vecLevel fn vec = true
        then .msix fn vec :: s.sent else s.sent))

/-- A cell leaves service (R26, R52): by an uncorrectable error (cause 1), a stuck state (2), or its block, which it does not answer
(3). FAULT_STS shows the cell, and IRQ_STS.FAULT is set; a block that cannot work without the cell is isolated with it. Stated whole
of the blocks that lose nothing else with a cell, where FAULT_STS shows the cause and a kept CONTAIN record names the level, cause,
unit and guests halted; of an execution cell with no guest, the cell stops too. A cell out of service, or that the block does not
have, does nothing. ECC_CORRECTED and the injection of such an error (R26, R54, R215, R438): the cell's counter advances and the sample
of metric ECC counts it; an injected error of KIND 1 or 2 quarantines the cell. ECC_CORRECTED, ECC_UNCORRECTABLE, STUCK_STATE,
NO_RETIRE_TIMEOUT, CELL_NO_RESPONSE and FAULT_INJECT complete here. The model's choices in it: log 25, 26, 27, 28, 29, 59. -/
def Obligations.CellFaults : Prop :=
  (∀ (s : State) (p : Page) (c : Fin 16), s.isolated p = false →
    let note := fun (level cause : Nat) => (s.emitAt p c.val 0x014 0
      ([BitVec.ofNat 8 level, BitVec.ofNat 8 cause] ++ leBytes 2 (sourceOf p c.val) ++ leBytes 2 0)).ledger
    let facts := fun (cause : Nat) (t : State) => t.quarantined p c.val = true ∧
      t.rdf p HDR.FAULT_STS 31 28 = cause ∧ bit (t.rd p HDR.IRQ_STS) 24 = true
    let regs := [key p HDR.FAULT_STS, key p HDR.IRQ_STS]
    let lost := fun (i : Instr) => ∃ t, exec i s = .next t ∧ t.quarantined p c.val = true ∧ bit (t.rd p HDR.IRQ_STS) 24 = true ∧
      (Page.needsCells p = true → t.isolated p = true)
    (Page.real p = true → c.val < Page.cells p → s.quarantined p c.val = false →
      ((∀ n, p ≠ .dramc n) → lost (.eccUncorrectable p c)) ∧ lost (.stuckState p c) ∧ lost (.cellNoResponse p c)) ∧
    (c.val < Page.cells p → s.quarantined p c.val = false → p ∈ [Page.porter, .align, .egress, .timeu, .redun, .courier] →
      Ends (.eccUncorrectable p c) s { s with ledger := note 0 1 } regs (facts 1) ∧
      Ends (.stuckState p c) s { s with ledger := note 0 2 } regs (facts 2) ∧
      Ends (.cellNoResponse p c) s { s with ledger := note 1 3 } regs (facts 3)) ∧
    (∀ n : Fin 16, p = .exb n.val → s.quarantined p c.val = false → s.guests = [] →
      let u := s.setCell (16 * n.val + c.val) { s.cell (16 * n.val + c.val) with run := .stopped }
      Ends (.eccUncorrectable p c) s { u with ledger := note 0 1 } regs (facts 1) ∧
      ((s.cell (16 * n.val + c.val)).run = .running → Ends (.noRetireTimeout n c) s { u with ledger := note 0 2 } regs (facts 2)) ∧
      ((s.cell (16 * n.val + c.val)).run ≠ .running → exec (.noRetireTimeout n c) s = .next s)) ∧
    (Page.cells p ≤ c.val ∨ s.quarantined p c.val = true →
      exec (.eccUncorrectable p c) s = .next s ∧ exec (.stuckState p c) s = .next s ∧ exec (.cellNoResponse p c) s = .next s ∧
        exec (.eccCorrected p c) s = .next s)) ∧
  (∀ (s : State) (n : Nat) (c : Fin 16), n < 16 → s.isolated (.exb n) = false → s.quarantined (.exb n) c.val = false →
    let count := fun (t : State) => t.rd (.exb n) (win c.val EXBW.CELL_ECC_CORR) =
      oneMore (s.rd (.exb n) (win c.val EXBW.CELL_ECC_CORR))
    let u := { s with ecc := Tbl.put (sourceOf (.exb n) c.val) (Tbl.get 0 (sourceOf (.exb n) c.val) s.ecc + 1) s.ecc }
    Ends (.eccCorrected (.exb n) c) s u [key (.exb n) (win c.val EXBW.CELL_ECC_CORR)] count ∧
    (∀ src, s.accepts src (.exb n) HDR.FAULT_CTL (BitVec.ofNat 32 (256 + c.val)) →
      Ends (.faultInject src (.exb n) 0 (BitVec.ofNat 4 c.val)) s
        { u with ledger := (s.emit (.exb n) 0x012 0 (leBytes 4 (Page.base (.exb n)) ++ leBytes 4 (256 + c.val))).ledger }
        [key (.exb n) HDR.FAULT_CTL, key (.exb n) (win c.val EXBW.CELL_ECC_CORR)] (fun t => count t ∧
          t.rdf (.exb n) HDR.FAULT_CTL 3 0 = c.val ∧ t.rdf (.exb n) HDR.FAULT_CTL 5 4 = 0))) ∧
  (∀ (s : State) (src : Src) (p : Page) (kind : BitVec 2) (c : BitVec 4), kind ≠ 0 → Page.isRegion p = false → Page.isGuest p = false →
    s.accepts src p HDR.FAULT_CTL (BitVec.ofNat 32 (256 + 16 * kind.toNat + c.toNat)) → s.quarantined p c.toNat = false →
    ∃ t, exec (.faultInject src p kind c) s = .next t ∧ t.quarantined p c.toNat = true)

/-- A block leaves service (R26, R27, R52, R53): by itself (cause 4) or by its region (cause 3), once; its page and its region's page show
it, and raise FAULT. An isolated essential block, or one that isolates itself with CONTAIN at 1, is a chip-level fault: outside BOOT
the unit enters SAFE. Stated whole of COURIER with CONTAIN 0: a soft reset that runs and words latched in its page end, a kept
CONTAIN record is written, nothing else changes. A fault of a segment or of the fabric during BOOT (R26, R31, R305): the chip page
shows a chip-level fault of cause 5, BOOT ends with stage 7 and code 0x55, and a kept CONTAIN record of level 4 is written; outside
BOOT the unit enters SAFE. SHARED_RESOURCE_FAULT, BLOCK_NO_RESPONSE and SEGMENT_FAULT complete here. The model's choices in it:
log 26, 28, 119. -/
def Obligations.BlockFaults : Prop :=
  (∀ (s : State) (p : Page), Page.isBlock p = true → p ≠ .chip → s.isolated p = false →
    let r := Page.ofRegion (Page.region p)
    (∃ t, exec (.sharedResourceFault p) s = .next t ∧ t.isolated p = true ∧ t.rdf p HDR.FAULT_STS 31 28 = 4 ∧
      bit (t.rd r HDR.FAULT_STS) (Page.block p) = true ∧ bit (t.rd p HDR.IRQ_STS) 24 = true ∧ bit (t.rd r HDR.IRQ_STS) 24 = true ∧
      (s.role.mode ≠ .boot → Page.essential p = true ∨ bits (s.rd p HDR.PAGE_CTL) 5 4 = 1 → t.role.mode = .safe)) ∧
    (∃ t, exec (.blockNoResponse p) s = .next t ∧ t.isolated p = true ∧ t.rdf p HDR.FAULT_STS 31 28 = 3 ∧
      bit (t.rd r HDR.FAULT_STS) (Page.block p) = true ∧ bit (t.rd p HDR.IRQ_STS) 24 = true ∧ bit (t.rd r HDR.IRQ_STS) 24 = true ∧
      (s.role.mode ≠ .boot → Page.essential p = true → t.role.mode = .safe))) ∧
  (∀ s : State, s.chipLost = false → s.role.mode ≠ .boot →
    (∃ t, exec (.sharedResourceFault .chip) s = .next t ∧ t.isolated .chip = true ∧ t.role.mode = .safe) ∧
    (∃ t, exec (.blockNoResponse .chip) s = .next t ∧ t.isolated .chip = true ∧ t.role.mode = .safe)) ∧
  (∀ (s : State) (p : Page), s.isolated p = true → (∀ n, p ≠ .pcache n) →
    exec (.sharedResourceFault p) s = .next s ∧ exec (.blockNoResponse p) s = .next s) ∧
  (∀ s : State, s.isolated .courier = false → bits (s.rd .courier HDR.PAGE_CTL) 5 4 = 0 →
    let note := fun (level cause : Nat) => (s.emitAt .courier 0 0x014 0
      ([BitVec.ofNat 8 level, BitVec.ofNat 8 cause] ++ leBytes 2 (sourceOf .courier 0) ++ leBytes 2 0)).ledger
    let regs := [key .courier HDR.FAULT_STS, key .courier HDR.IRQ_STS, key (.region 7) HDR.FAULT_STS, key (.region 7) HDR.IRQ_STS]
    let u := { s with
      srst := Tbl.del (Page.base .courier) s.srst
      latch := Tbl.keep (fun k => decide (k % 2 ^ 33 < Page.base .courier) || decide (Page.base .courier + 0x1000 ≤ k % 2 ^ 33)) s.latch }
    Ends (.sharedResourceFault .courier) s { u with ledger := note 2 4 } regs (fun t => t.rdf .courier HDR.FAULT_STS 31 28 = 4) ∧
    Ends (.blockNoResponse .courier) s { u with ledger := note 3 3 } regs (fun t => t.rdf .courier HDR.FAULT_STS 31 28 = 3)) ∧
  (∀ (s : State) (r : Option (Fin 10)),
    let unit := match r with | some r => 4096 * r.val | none => 0
    (s.role.mode = .boot → Ends (.segmentFault r) s
      { s with ledger := (s.emitAt .chip 0 0x014 0 ([4, 5] ++ leBytes 2 unit ++ leBytes 2 0)).ledger }
      [key .chip HDR.FAULT_STS, key .chip HDR.IRQ_STS, key .boot BOOT.BOOT_STS]
      (fun t => bit (t.rd .chip HDR.FAULT_STS) 16 = true ∧ t.rdf .chip HDR.FAULT_STS 31 28 = 5 ∧
        bit (t.rd .chip HDR.IRQ_STS) 24 = true ∧
        t.rdf .boot BOOT.BOOT_STS 31 28 = 7 ∧ t.rdf .boot BOOT.BOOT_STS 7 0 = 0x55)) ∧
    (s.role.mode ≠ .boot → ∃ t, exec (.segmentFault r) s = .next t ∧ t.role.mode = .safe ∧
      bit (t.rd .chip HDR.FAULT_STS) 16 = true ∧ t.rdf .chip HDR.FAULT_STS 31 28 = 5))

/-! ### The Time Unit -/

/-- SLEW_WRITE, SLEW_DONE, SNAP_CMD (R76, R99): an accepted slew joins the pending one; the edge that takes the last of it ends it
with SLEW_DONE; a snapshot holds the local time. STEP_CMD, STEP_APPLY (R77, R78): an accepted command waits for its edge. There, in
CONFIGURE or with FORCE, the clock is set, the pending slew is discarded and STEP_GEN advances; elsewhere a jump within JUMP_LIMIT is
slewed and changes nothing else, and a longer one is refused with STEP_REFUSED, its interrupt and E_JUMP, and slewed where the policy
bit says so. Stated of an edge that meets nothing else (`State.quiet`); of a step, with nothing to slew, no output queued and no
stream in use, it gives the clock, the pending slew, STEP_GEN, the job and STEP_STS. SLEW_WRITE, SLEW_DONE, SNAP_CMD, STEP_CMD and
STEP_APPLY complete here. The model's choices in it: log 34, 35. -/
def Obligations.SlewsAndSteps : Prop :=
  (∀ (s : State) (src : Src),
    (∀ v : BitVec 64,
      let lo := BitVec.ofNat 32 v.toNat
      let hi := BitVec.ofNat 32 (v.toNat / 2 ^ 32)
      s.accepts src .timeu TIMEU.SLEW_LO lo →
      ({ s with shadow := Tbl.put (key .timeu TIMEU.SLEW_LO) lo s.shadow } : State).accepts src .timeu TIMEU.SLEW_HI hi →
      Ends (.slewWrite src v) s { s with time := { s.time with slewPend := s.time.slewPend + v.toInt * 2 ^ 24 } } [] (fun _ => True)) ∧
    (s.time.slewPend = 0 ∨ s.slewStep < s.time.slewPend.natAbs → exec .slewDone s = .next s) ∧
    (∀ g : Nat, (g : Int) = s.incr + s.time.slewPend → s.time.slewPend ≠ 0 → s.time.slewPend.natAbs ≤ s.slewStep →
      s.time.job = none → s.quiet g →
      Ends .slewDone s { s with time := { s.afterEdge g with slewPend := 0 } } [key .timeu HDR.IRQ_STS]
        (fun t => bit (t.rd .timeu HDR.IRQ_STS) 21 = true)) ∧
    (s.accepts src .timeu TIMEU.SNAP_CMD 1 →
      Ends (.snapCmd src) s s [key .timeu TIMEU.SNAP_NS, key .timeu TIMEU.SNAP_S_LO, key .timeu TIMEU.SNAP_S_HI]
        (fun t => t.rd .timeu TIMEU.SNAP_NS = BitVec.ofNat 32 (qWord s.now) ∧ t.rd2 .timeu TIMEU.SNAP_S_LO = s.nowS % 2 ^ 64))) ∧
  (∀ (s : State),
    (∀ (src : Src) (w : Word), s.accepts src .timeu TIMEU.STEP_CMD w →
      Ends (.stepCmd src w) s (if bit w 0 = true then { s with time := { s.time with
        job := some ⟨bit w 2, bit w 1, s.rd2 .timeu TIMEU.STEP_S_LO % 2 ^ 48, signed 32 (s.rd .timeu TIMEU.STEP_NS).toNat⟩ } } else s)
        [] (fun _ => True)) ∧
    (s.time.job = none → exec .stepApply s = .next s) ∧
    (∀ j : StepJob, s.time.job = some j → s.time.slewPend = 0 → s.quiet s.incr → s.time.sched = [] → s.porter.ctxs = [] →
      let now := s.time.clock + s.incr
      let target := j.secs % 2 ^ 48 * secU + j.ns.toNat * nsU
      let ofs := signed 48 j.secs * 1000000000 + j.ns
      let d : Int := if j.abs then sDiff (target / secU) (now / secU) * secU + ((target % secU : Nat) : Int) - ((now % secU : Nat) : Int)
        else ofs * nsU
      let new := if j.abs then target else clockPlus now ofs
      let limit := s.rdf .timeu TIMEU.JUMP_LIMIT 19 0 * nsU
      let ends := fun (clock : Nat) (slew : Int) (gen sts : Nat) (more : State → Prop) =>
        ∃ t, exec .stepApply s = .next t ∧ t.time.clock = clock ∧ t.time.slewPend = slew ∧ t.time.stepGen = gen ∧ t.time.job = none ∧
          t.rd .timeu TIMEU.STEP_STS = BitVec.ofNat 32 sts ∧ more t
      let refused := fun (t : State) => bit (t.rd .timeu TIMEU.TIME_STS) 8 = true ∧ bit (t.rd .timeu HDR.IRQ_STS) 16 = true
      (s.role.mode = .configure ∨ j.force = true → ends new 0 ((s.time.stepGen + 1) % 4) 2 (fun _ => True)) ∧
      (s.role.mode ≠ .configure → j.force = false →
        (d.natAbs ≤ limit → d.natAbs ≤ secU → Ends .stepApply s
          { s with time := { s.afterEdge s.incr with job := none, slewPend := d } } [key .timeu TIMEU.STEP_STS]
          (fun t => t.rd .timeu TIMEU.STEP_STS = BitVec.ofNat 32 4)) ∧
        (limit < d.natAbs → bit (s.rd .timeu TIMEU.TIME_CTL) 0 = false → ends now 0 s.time.stepGen 0x1008 refused) ∧
        (limit < d.natAbs → bit (s.rd .timeu TIMEU.TIME_CTL) 0 = true → d.natAbs ≤ secU → ends now d s.time.stepGen 0x1006 refused) ∧
        (limit < d.natAbs → bit (s.rd .timeu TIMEU.TIME_CTL) 0 = true → secU < d.natAbs → ends now 0 s.time.stepGen 0x1008 refused))))

/-- TOP_OF_SECOND, GRID_TICK (R71, R74): the block goes on, edge by edge, to the first edge at or after the second or the tick; every
edge on the way adds INCR to the clock and to the local time elapsed. Stated with nothing to slew, free of synchronisation, in
CONFIGURE with nothing set for the pair, the checkpoint or the acquisition, and as many scheduled outputs as R95 admits. A step
that waits for its edge takes it first. TOP_OF_SECOND and GRID_TICK complete here. The model's choices in it: log 34. -/
def Obligations.SecondsAndTicks : Prop :=
  (∀ s : State, s.time.job = none → s.time.slewPend = 0 → s.time.sync = .free → s.role.mode = .configure → s.role.demote = none →
    s.ckpt.state = 0 → s.hinge.later = [] → s.leapAt = 0 → s.incr ≠ 0 → (∀ u, u < 4 → bit (s.au u ACQW.AU_CFG) 0 = false) →
    s.time.sched.length ≤ 64 →
    let reaches := fun (i : Instr) (target : Nat) => s.time.clock < target → target + s.incr ≤ clockU →
      ∃ t, exec i s = .next t ∧ target ≤ t.time.clock ∧ t.time.clock < target + s.incr ∧
        t.time.elapsed - s.time.elapsed = t.time.clock - s.time.clock ∧ (t.time.clock - s.time.clock) % s.incr = 0 ∧
        t.role = s.role ∧ t.guests = s.guests ∧ t.dram = s.dram
    reaches .topOfSecond ((secOf s.time.clock + 1) * secU) ∧ reaches .gridTick (clockOfTick (absTick s.time.clock + 1))) ∧
  (∀ s : State, s.time.job.isSome = true →
    exec .topOfSecond s = exec .stepApply s ∧ exec .gridTick s = exec .stepApply s)

/-- SYNC_REPORT, SYNC_TIMEOUT, HOLDOVER_EXPIRY (R82, R96, R98): a report of lock leads to LOCKED, its loss and the timeout to HOLDOVER
(and on to FREE where HOLDOVER_S is 0), the expiry to FREE; each change raises SYNC_CHANGE and is recorded, and PPS_OUT goes low
where it may not be high. A limit that is not reached, or a report in the same CLK_REG cycle, leaves everything. The three commands
complete here. The model's choices in it: log 3, 33. -/
def Obligations.Synchronisation : Prop :=
  ∀ s : State,
    let into := fun (n : Sync) => { s with
      time := { s.time with sync := n, syncSince := s.time.elapsed, pps := s.time.pps && bit (s.rd .timeu TIMEU.PPS_CTL) 0 &&
        !(bit (s.rd .timeu TIMEU.PPS_CTL) 1 && decide (n = .free)) },
      ledger := (s.emit .timeu 0x021 0 [BitVec.ofNat 8 (syncCode s.time.sync), BitVec.ofNat 8 (syncCode n)]).ledger }
    let said := fun (u : State) => { u with time := { u.time with reported := true } }
    let fact := fun (t : State) => bit (t.rd .timeu HDR.IRQ_STS) 20 = true
    let hold := s.rdf .timeu TIMEU.SYNC_CFG 27 16 ≠ 0
    let irq := key .timeu HDR.IRQ_STS
    (∀ src, s.accepts src .timeu TIMEU.SYNC_REPORT 1 →
      (s.time.sync = .locked →
        Ends (.syncReport src true) s (said { s with time := { s.time with syncSince := s.time.elapsed } }) [] (fun _ => True)) ∧
      (s.time.sync ≠ .locked → Ends (.syncReport src true) s (said (into .locked)) [irq] fact)) ∧
    (∀ src, s.accepts src .timeu TIMEU.SYNC_REPORT 0 →
      (s.time.sync = .locked → hold → Ends (.syncReport src false) s (said (into .holdover)) [irq] fact) ∧
      (s.time.sync = .locked → ¬ hold → ∃ t, exec (.syncReport src false) s = .next t ∧ t.time.sync = .free ∧ fact t) ∧
      (s.time.sync ≠ .locked → Ends (.syncReport src false) s (said s) [] (fun _ => True))) ∧
    (s.time.sync = .locked → s.time.reported = false → s.timeoutDue = true →
      (hold → Ends .syncTimeout s (into .holdover) [irq] fact) ∧
      (¬ hold → ∃ t, exec .syncTimeout s = .next t ∧ t.time.sync = .free ∧ fact t)) ∧
    (s.time.sync = .holdover → s.time.reported = false → s.holdoverDue = true → Ends .holdoverExpiry s (into .free) [irq] fact) ∧
    (s.time.sync ≠ .locked ∨ s.time.reported = true ∨ s.timeoutDue = false → exec .syncTimeout s = .next s) ∧
    (s.time.sync ≠ .holdover ∨ s.time.reported = true ∨ s.holdoverDue = false → exec .holdoverExpiry s = .next s)

/-- Captures and transmit timestamps (R91, R93, R94, R101, R102): an edge that the pin's configuration of its instant accepts, after the
filter's edges, is numbered, stamped with the local time and STEP_GEN of the transition and queued in time order, or counted lost
when the FIFO is full; any other edge leaves everything. Where no acquisition unit and no core waits for the pin, nothing else
changes. Pops take the first entry, the clears take the lost counts. TIO_EDGE, CAP_POP, CAP_CLR_LOST, TXTS_POP and TXTS_CLR_LOST
complete here. The model's choices in it: log 5, 126. -/
def Obligations.CapturesAndTimestamps : Prop :=
  ∀ s : State,
    (∀ (pin back : Nat) (rise : Bool),
      let w := s.pinAt pin (s.time.elapsed - back * 2 ^ 30)
      (captures pin w rise = false ∨ back + 9 < 10 * bits w 11 8 → exec (.tioEdge pin rise back) s = .next s) ∧
      (captures pin w rise = true → 10 * bits w 11 8 ≤ back + 9 →
        let c := s.clockAt (s.time.elapsed - back * 2 ^ 30)
        let e : CapEntry := ⟨stampOf c.1, s.time.capLoss, c.2, rise, pin, s.time.capSeq⟩
        let seq := (s.time.capSeq + 1) % 2 ^ 32
        let alone := pin = 32 ∨ ((∀ u, u < 4 → bit (s.au u ACQW.AU_CFG) 0 = false) ∧ ∀ k, k < 4 → s.coreTrig k ≠ 3)
        (s.time.capFifo.length < 256 →
          let x := { s.time with capSeq := seq, capFifo := capInsert e s.time.capFifo, capLoss := false }
          (∃ t, exec (.tioEdge pin rise back) s = .next t ∧ t.time = x ∧ bit (t.rd .timeu HDR.IRQ_STS) 17 = true) ∧
          (alone → Ends (.tioEdge pin rise back) s { s with time := x } [key .timeu HDR.IRQ_STS] (fun _ => True))) ∧
        (256 ≤ s.time.capFifo.length →
          let x := { s.time with capSeq := seq, capLoss := true }
          (∃ t, exec (.tioEdge pin rise back) s = .next t ∧ t.time = x ∧ bit (t.rd .timeu HDR.IRQ_STS) 18 = true ∧
            t.rdf .timeu TIMEU.CAP_STS 31 16 = min 0xFFFF (s.rdf .timeu TIMEU.CAP_STS 31 16 + 1)) ∧
          (alone → Ends (.tioEdge pin rise back) s { s with time := x } [key .timeu HDR.IRQ_STS, key .timeu TIMEU.CAP_STS]
            (fun _ => True))))) ∧
    (∀ src, s.accepts src .timeu TIMEU.CAP_POP 1 → Ends (.capPop src) s
      { s with time := { s.time with capFifo := s.time.capFifo.drop 1 } } [] (fun _ => True)) ∧
    (∀ src, s.accepts src .timeu TIMEU.CAP_POP 2 → Ends (.capClrLost src) s s [key .timeu TIMEU.CAP_STS]
      (fun t => t.rdf .timeu TIMEU.CAP_STS 31 16 = 0)) ∧
    (∀ src (n : Fin 4), s.accepts src .timeu (tsWin n.val TIMEUW.TXTS_POP) 1 → ∃ t, exec (.txtsPop src n) s = .next t ∧
      t.txts n.val = (s.txts n.val).drop 1 ∧ (∀ m, m ≠ n.val → t.txts m = s.txts m) ∧
      sameState { s with time := { s.time with txts := t.time.txts } } t ∧ keepsRegs s t []) ∧
    (∀ src (n : Fin 4), s.accepts src .timeu (tsWin n.val TIMEUW.TXTS_POP) 2 → Ends (.txtsClrLost src n) s s
      [key .timeu (tsWin n.val TIMEUW.TXTS_STS)]
      (fun t => t.rdf .timeu (tsWin n.val TIMEUW.TXTS_STS) 31 16 = 0))

/-- Scheduled outputs and PPS_OUT (R93, R95, R96): a pin's configuration is stored and takes effect at the next CLK_TIME edge, where a pin
that enters output mode drives INIT and one that leaves it drives nothing; an entry is queued in time order, a flush removes its
pin's entries. SCH_FIRE, PPS_OUT_RISE and PPS_OUT_FALL are the edge that reaches the instant, and nothing while the next edge does
not: the first entry then drives its pin, PPS_OUT rises where it may and has fallen after PPS_WIDTH. The six commands and
TIO_CFG_WRITE complete here. The model's choices in it: log 3, 6, 126, 127. -/
def Obligations.ScheduledOutputs : Prop :=
  ∀ s : State,
    (∀ src (n : BitVec 5) (w : Word) flds, s.accepts src .timeu (TIMEU.TIO_CFG n.toNat) w →
      regFields .timeu (TIMEU.TIO_CFG n.toNat) = some flds →
      Ends (.tioCfgWrite src n w) s { s with time := { s.time with cfgWait := addNew s.time.cfgWait n.toNat } }
        [key .timeu (TIMEU.TIO_CFG n.toNat)]
        (fun t => t.rd .timeu (TIMEU.TIO_CFG n.toNat) = stored flds (s.rd .timeu (TIMEU.TIO_CFG n.toNat)) w)) ∧
    (∀ n, n < 32 →
      let w := s.rd .timeu (TIMEU.TIO_CFG n)
      (bits w 2 0 = 2 → Tbl.get 0 n s.time.tio = 0 → Tbl.get 0 n (s.pinTakes n).time.tio = if bit w 12 = true then 2 else 1) ∧
      (bits w 2 0 = 2 → Tbl.get 0 n s.time.tio ≠ 0 → (s.pinTakes n).time.tio = s.time.tio) ∧
      (bits w 2 0 ≠ 2 → (s.pinTakes n).time.tio = Tbl.del n s.time.tio) ∧ (s.pinTakes n).pinAt n s.time.elapsed = w) ∧
    (∀ src (pin : BitVec 5) (level : Bool),
      s.accepts src .timeu TIMEU.SCH_CMD (BitVec.ofNat 32 (2 ^ 15 + b2n level * 256 + pin.toNat)) →
      Ends (.schEnq src pin level) s { s with time := { s.time with sched := schInsert ⟨pin.toNat, s.schTime, level⟩ s.time.sched } }
        [] (fun _ => True)) ∧
    (∀ src (pin : BitVec 5), s.accepts src .timeu TIMEU.SCH_CMD (BitVec.ofNat 32 (2 ^ 16 + pin.toNat)) →
      Ends (.schFlush src pin) s { s with time := { s.time with sched := s.time.sched.filter (fun e => e.pin != pin.toNat) } }
        [] (fun _ => True)) ∧
    (let c := s.time.clock + s.incr
     let x := s.afterEdge s.incr
     s.time.slewPend = 0 →
      (s.time.sched = [] ∨ (∃ e ∈ s.time.sched.head?, qDiff (stampOf c) e.time < 0) → exec .schFire s = .next s) ∧
      (secOf (s.ppsLine (c % clockU)) = secOf (s.ppsLine s.time.clock) → exec .ppsOutRise s = .next s) ∧
      (s.time.pps = false ∨ s.time.elapsed + s.incr < s.time.ppsAt + s.ppsWidth → exec .ppsOutFall s = .next s) ∧
      (∀ e r, s.time.sched = e :: r → 0 ≤ qDiff (stampOf c) e.time → s.time.job = none →
        ({ s with time := { s.time with sched := r } } : State).quiet s.incr →
        Ends .schFire s { s with time := { x with sched := r, tio := Tbl.put e.pin (if e.level then 2 else 1) s.time.tio } } []
          (fun t => s.padsTaken = false → t.sent = .tio e.pin e.level e.time :: s.sent)) ∧
      (secOf (s.ppsLine c) ≠ secOf (s.ppsLine s.time.clock) → s.ppsOpen = true → s.time.pps = false → s.time.job = none →
        c < clockU → secOf c = secOf s.time.clock → absTick c = absTick s.time.clock → s.time.sync = .free → s.time.cfgWait = [] →
        s.time.sched = [] → (s.time.elapsed + s.incr) / (1000000 * nsU) = s.time.elapsed / (1000000 * nsU) →
        s.ppsLine c % secU ≤ s.time.elapsed + s.incr → s.ppsLine c % secU < s.ppsWidth →
        Ends .ppsOutRise s { s with time := { x with pps := true, ppsAt := s.time.elapsed + s.incr - s.ppsLine c % secU } } []
          (fun t => s.padsTaken = false → ∃ q, t.sent = .pps true q :: s.sent)) ∧
      (s.time.pps = true → s.time.ppsAt + s.ppsWidth ≤ s.time.elapsed + s.incr → s.time.job = none →
        ({ s with time := { s.time with pps := false } } : State).quiet s.incr →
        Ends .ppsOutFall s { s with time := { x with pps := false } } [] (fun t => s.padsTaken = false → ∃ q, t.sent = .pps false q :: s.sent)))

/-! ### Ports, publications -/

/-- PORT_CTL_WRITE, LINK_DOWN, LINK_UP (R87, R104, R123, R125, R150): a write that keeps SPEED, FEC and AN only stores; one that changes
them, like the loss of lock, takes the link down: its waiting frames, and the one it is sending, are dropped and counted in TX_DROP,
scheduled frames that were to follow count in TX_SKIP and not in TX_FRAMES, LINK_CHG is set, and CI of queue 3 follows. A link
that comes up, while the port works and its clock's PLL is locked, loads the port's latencies. PORT_CTL_WRITE, LINK_DOWN and LINK_UP
complete here. The model's choices in it: log 38, 40. -/
def Obligations.PortLinks : Prop :=
  ∀ (s : State) (n : Fin 5),
    let p := portPage n.val
    let lost := { s with link := Tbl.del n.val s.link, nsq := Tbl.del n.val s.nsq, wire := Tbl.del n.val s.wire }
    let regs := [key p PORT.PORT_STS, key p HDR.IRQ_STS, key p PORT.LINK_DOWNS, key p PORT.TX_DROP, key p PORT.TX_FRAMES,
      key p PORT.TX_SKIP, key .redun HDR.IRQ_STS, key .porter (PORTER.Q_CI 3)]
    let cut := (s.onWire n.val).1.length
    let skip := (s.onWire n.val).2.length
    let fact := fun (t : State) => t.linkOf n.val = false ∧ t.nsOf n.val = [] ∧ bit (t.rd p HDR.IRQ_STS) 16 = true ∧
      bit (t.rd p PORT.PORT_STS) 3 = true ∧ t.rd p PORT.LINK_DOWNS = oneMore (s.rd p PORT.LINK_DOWNS) ∧
      t.rd p PORT.TX_DROP = BitVec.ofNat 32 (min 0xFFFF_FFFF ((s.rd p PORT.TX_DROP).toNat + ((s.nsOf n.val).length + cut))) ∧
      t.rd p PORT.TX_SKIP = BitVec.ofNat 32 (min 0xFFFF_FFFF ((s.rd p PORT.TX_SKIP).toNat + skip)) ∧
      t.rd p PORT.TX_FRAMES = BitVec.ofNat 32 ((s.rd p PORT.TX_FRAMES).toNat - skip) ∧
      t.rd .porter (PORTER.Q_CI 3) = BitVec.ofNat 32 (t.txNext (s.rd .porter (PORTER.Q_CI 3)).toNat) ∧
      (s.padsTaken = false → cut + skip ≠ 0 → Emission.cut n.val skip ∈ t.sent)
    (∀ src w flds, s.accepts src p PORT.PORT_CTL w → regFields p PORT.PORT_CTL = some flds →
      let word := fun (t : State) => t.rd p PORT.PORT_CTL = stored flds (s.rd p PORT.PORT_CTL) w
      let ctl := [key p PORT.PORT_CTL, key .porter HDR.IRQ_STS]
      (w.toNat % 16 = s.rdf p PORT.PORT_CTL 3 0 ∨ s.linkOf n.val = false → Ends (.portCtlWrite src n w) s s ctl word) ∧
      (w.toNat % 16 ≠ s.rdf p PORT.PORT_CTL 3 0 → s.linkOf n.val = true →
        Ends (.portCtlWrite src n w) s lost (ctl ++ regs) (fun t => fact t ∧ word t))) ∧
    (s.linkOf n.val = true → Ends (.linkDown n) s lost regs fact) ∧
    (s.linkOf n.val = false → exec (.linkDown n) s = .next s) ∧
    (s.linkOf n.val = false → s.portOn n.val = true → s.sdLocked 0 = true →
      let fec := bit (s.rd p PORT.PORT_CTL) 2
      Ends (.linkUp n) s { s with link := Tbl.put n.val true s.link }
        [key p PORT.PORT_STS, key p HDR.IRQ_STS, key .redun HDR.IRQ_STS, key .timeu (tsWin n.val TIMEUW.ING_LAT),
          key .timeu (tsWin n.val TIMEUW.EGR_LAT)] (fun t => t.linkOf n.val = true ∧ bit (t.rd p HDR.IRQ_STS) 16 = true ∧
          bit (t.rd p PORT.PORT_STS) 3 = true ∧
          (n.val < 4 →
            t.rd .timeu (tsWin n.val TIMEUW.ING_LAT) = BitVec.ofNat 32 (Config.ingLat n.val (s.speed n.val) fec).toNat ∧
            t.rd .timeu (tsWin n.val TIMEUW.EGR_LAT) = BitVec.ofNat 32 (Config.egrLat n.val (s.speed n.val) fec).toNat))) ∧
    (s.linkOf n.val = true ∨ s.portOn n.val = false ∨ s.sdLocked 0 = false → exec (.linkUp n) s = .next s)

/-- FRAME_RX (R104, R106, R108, R125, R148): a port that is down or not receiving takes nothing; a frame whose FCS is bad, whose length
is outside 64 to PORT_MTU, or that is a MAC control frame of PFC or PAUSE, is counted and goes no further; a good frame of MGMT
becomes an entry of queue 1 with its length, port and reason, or is counted where the queue is off or its ring full. What RS-FEC
corrected is counted, an uncorrectable codeword raises its source. FRAME_RX completes here. The model's choices in it: log 5, 37, 53,
134. -/
def Obligations.FrameReception : Prop :=
  ∀ (s : State) (n : Fin 5) (ph : Fin 10) (f : RxFrame),
    let p := portPage n.val
    let up := s.portOn n.val = true ∧ bit (s.rd p PORT.PORT_CTL) 5 = true ∧ s.linkOf n.val = true
    let fec := [key p PORT.FEC_CORR, key p HDR.IRQ_STS]
    let heard := fun (t : State) =>
      if s.portOn n.val = true ∧ s.linkOf n.val = true ∧ bit (s.rd p PORT.PORT_CTL) 2 = true then
        t.rd p PORT.FEC_CORR = BitVec.ofNat 32 (min 0xFFFF_FFFF ((s.rd p PORT.FEC_CORR).toNat + f.fecCorr)) ∧
          (f.fecBad = true → bit (t.rd p HDR.IRQ_STS) 17 = true)
      else t.rd p PORT.FEC_CORR = s.rd p PORT.FEC_CORR ∧ t.rd p HDR.IRQ_STS = s.rd p HDR.IRQ_STS
    let counts := fun (o : Nat) => Ends (.frameRx n ph f) s s (key p PORT.RX_FRAMES :: key p o :: fec) (fun t => heard t ∧
      t.rd p PORT.RX_FRAMES = oneMore (s.rd p PORT.RX_FRAMES) ∧ t.rd p o = oneMore (s.rd p o))
    (¬ up → Ends (.frameRx n ph f) s s fec heard) ∧
    (up → f.fcsOk = false → counts PORT.RX_FCS_ERR) ∧
    (up → f.fcsOk = true → s.pairMode n.val = 0 →
      let b := f.unstripped
      (f.len < 64 ∨ s.rdf p PORT.PORT_MTU 13 0 < f.len → counts PORT.RX_LEN_DROP) ∧
      (64 ≤ f.len → f.len ≤ s.rdf p PORT.PORT_MTU 13 0 →
        let ctrl := etherType b = 0x8808 ∧ (ofBe ((b.drop 2).take 2) = 0x0001 ∨ ofBe ((b.drop 2).take 2) = 0x0101)
        (ctrl → counts PORT.RX_CTRL_DROP) ∧
        (¬ ctrl → f.vlan = none → etherType b = 0x88A8 → counts PORT.RX_VLAN_DROP) ∧
        (¬ ctrl → n.val = 4 → (f.vlan = none → etherType b ≠ 0x88A8) → bit (s.rd p PORT.PORT_CTL) 6 = false →
          let pi := (s.rd .porter (PORTER.Q_PI 1)).toNat
          let full := s.qOn 1 = false ∨ (pi + 1) % s.qRing 1 = (s.rd .porter (PORTER.Q_CI 1)).toNat % s.qRing 1
          let one := fun (t : State) => heard t ∧ t.rd p PORT.RX_FRAMES = oneMore (s.rd p PORT.RX_FRAMES)
          (full → Ends (.frameRx n ph f) s s ([key p PORT.RX_FRAMES, key .porter (PORTER.Q_DROP 1), key .porter HDR.IRQ_STS] ++ fec)
            (fun t => one t ∧ t.rd .porter (PORTER.Q_DROP 1) = oneMore (s.rd .porter (PORTER.Q_DROP 1)) ∧
              bit (t.rd .porter HDR.IRQ_STS) 19 = true)) ∧
          (¬ full → s.ringInDram 1 = true → s.poison = [] → ∃ head : List Byte,
            let bytes := beBytes 6 f.dst ++ beBytes 6 f.src ++ b
            let room := s.qEntry 1 - 32
            let a := s.rd2 .porter (PORTER.Q_BASE_LO 1) + pi % s.qRing 1 * s.qEntry 1
            head.length = 32 ∧ ofLe (head.take 2) = min room bytes.length % 2 ^ 16 ∧ ofLe ((head.drop 2).take 1) = 4 ∧
            Ends (.frameRx n ph f) s { s with
                dram := putBytes s.dram a (head ++ bytes.take room),
                porter := { s.porter with qseq := Tbl.put 1 ((Tbl.get 0 1 s.porter.qseq + 1) % 2 ^ 32) s.porter.qseq } }
              ([key p PORT.RX_FRAMES, key .porter (PORTER.Q_PI 1), key .porter HDR.IRQ_STS] ++ fec) (fun t => one t ∧
                t.rd .porter (PORTER.Q_PI 1) = BitVec.ofNat 32 ((pi + 1) % s.qRing 1) ∧ bit (t.rd .porter HDR.IRQ_STS) 18 = true)))))

/-- DD_AGE_EXPIRY, NONSCHED_TX, NET_HB_SEND (R92, R116, R122, R123, R150, R263): a source with no frame for DD_AGE_MS leaves the table, and
no other does; the waiting frame of the best class leaves a port that sends nothing else where its wire time ends before the next
launch, with what it was given to send where PTP adds nothing to it, and is held and counted once where it does not; a network
heartbeat is queued, padded, on every port that transmits, or dropped and counted where the link is down. LAUNCH (R116, R118): at the
earliest launch instant of a port, and not before, the frames of that instant leave its list; a lone unsigned frame is sent at once
on an idle port with its address, number and payload, or skipped and counted where it must be. DD_AGE_EXPIRY, NONSCHED_TX, LAUNCH
and NET_HB_SEND complete here. The model's choices in it: log 3, 6, 40, 41, 123, 133. -/
def Obligations.Transmission : Prop :=
  (∀ (s : State) (pair : Fin 2) (src : Nat),
    (Tbl.look src (s.ddTab pair.val) = none → exec (.ddAgeExpiry pair src) s = .next s) ∧
    (∀ e, Tbl.look src (s.ddTab pair.val) = some e →
      let due := e.seen + s.rdf .redun REDUN.DD_AGE 15 0 * 1000000 * nsU
      (s.time.elapsed < due → exec (.ddAgeExpiry pair src) s = .next s) ∧
      (due ≤ s.time.elapsed →
        Ends (.ddAgeExpiry pair src) s { s with dd := Tbl.set [] pair.val (Tbl.del src (s.ddTab pair.val)) s.dd } []
          (fun t => Tbl.look src (t.ddTab pair.val) = none ∧ ∀ k, k ≠ src → Tbl.look k (t.ddTab pair.val) = Tbl.look k (s.ddTab pair.val))))) ∧
  (∀ (s : State) (n : Fin 5) (ph : Fin 10),
    (nextNs (s.nsOf n.val) = none ∨ s.canSend n.val = false ∨ s.time.elapsed < s.wireFree n.val →
      exec (.nonschedTx n ph) s = .next s) ∧
    (∀ f : NsFrame, nextNs (s.nsOf n.val) = some f → s.canSend n.val = true → s.wireFree n.val ≤ s.time.elapsed →
      let wire := wireTime (s.speed n.val) f.frame.len * nsU / 100
      let fits := ∀ l, s.nextLaunch n.val = some l → cDiff (s.time.clock + wire) l < 0
      let left := Tbl.set [] n.val ((s.nsOf n.val).erase f) s.nsq
      (fits → ∃ t, exec (.nonschedTx n ph) s = .next t ∧ t.nsq = left) ∧
      (fits → f.ingress = none → s.ptpOf n.val f.frame.body = none →
        Ends (.nonschedTx n ph) s { s with
            nsq := left, wire := Tbl.put n.val ((Tbl.get [] n.val s.wire).filter (fun e => decide (s.time.elapsed < e.2)) ++
              [(s.time.elapsed, s.time.elapsed + wire)]) s.wire }
          [key (portPage n.val) PORT.TX_FRAMES, key .porter (PORTER.Q_CI 3)]
          (fun t => (s.padsTaken = false → t.sent = .frame n.val f.frame false :: s.sent) ∧
            t.rd (portPage n.val) PORT.TX_FRAMES = oneMore (s.rd (portPage n.val) PORT.TX_FRAMES) ∧
            t.rd .porter (PORTER.Q_CI 3) = if f.entry.isSome = true
              then BitVec.ofNat 32 (t.txNext (s.rd .porter (PORTER.Q_CI 3)).toNat) else s.rd .porter (PORTER.Q_CI 3))) ∧
      (¬ fits → f.held = true ∨ 4 ≤ n.val → exec (.nonschedTx n ph) s = .next s) ∧
      (¬ fits → f.held = false → n.val < 4 →
        Ends (.nonschedTx n ph) s
          { s with nsq := Tbl.put n.val ((s.nsOf n.val).map (fun x => if x = f then { x with held := true } else x)) s.nsq }
          [key .egress (win n.val EGRESSW.GUARD_HOLDS)] (fun t => t.rd .egress (win n.val EGRESSW.GUARD_HOLDS) =
            oneMore (s.rd .egress (win n.val EGRESSW.GUARD_HOLDS)))))) ∧
  (∀ s : State,
    (s.role.mode = .boot ∨ bit (s.rd .hinge HINGE.HINGE_CTL) 1 = false → exec .netHbSend s = .next s) ∧
    (s.role.mode ≠ .boot → bit (s.rd .hinge HINGE.HINGE_CTL) 1 = true →
      let sent := { s.hinge with netSeq := (s.hinge.netSeq + 1) % 2 ^ 32 }
      (∃ t, exec .netHbSend s = .next t ∧ t.hinge = sent) ∧
      (s.pairMode 0 = 0 → s.pairMode 2 = 0 → ∃ (t : State) (f : TxFrame), exec .netHbSend s = .next t ∧ t.hinge = sent ∧
        f.body = beBytes 2 0x88B5 ++ s.netHbBytes ∧ f.src = s.unitAddr ∧ f.dst = s.macBase + (if s.unitB then 0xFE else 0xFF) ∧
        (∀ n, n < 4 → t.nsOf n = if bit (s.rd (.port n) PORT.PORT_CTL) 4 = true ∧ s.linkOf n = true
          then s.nsOf n ++ [⟨2, f.fit, none, none, false⟩] else s.nsOf n) ∧
        (∀ n, n < 4 → t.rd (.port n) PORT.TX_DROP = if bit (s.rd (.port n) PORT.PORT_CTL) 4 = true ∧ s.linkOf n = false
          then oneMore (s.rd (.port n) PORT.TX_DROP) else s.rd (.port n) PORT.TX_DROP) ∧
        keepsRegs s t ((List.range 4).map (fun n => key (.port n) PORT.TX_DROP))))) ∧
  (∀ (s : State) (n : Fin 4),
    let first := ((s.due.filter (fun d => d.ports.contains n.val)).map (fun d => d.at_)).foldl sooner none
    let p := Page.port n.val
    (first = none → exec (.launch n) s = .next s) ∧
    (∀ a, first = some a →
      let left := (s.due.map (fun d => if d.at_ = a then { d with ports := d.ports.filter (fun q => q != n.val) } else d)).filter
        (fun d => !d.ports.isEmpty)
      (cDiff s.time.clock a < 0 → exec (.launch n) s = .next s) ∧
      (0 ≤ cDiff s.time.clock a → ∃ t, exec (.launch n) s = .next t ∧ t.due = left) ∧
      (∀ d, 0 ≤ cDiff s.time.clock a → dueAt (s.due.filter (fun d => d.at_ == a)) n.val = [d] →
        let f : TxFrame := TxFrame.fit ⟨d.dst, s.macBase + d.srcIdx, d.vlan.map (fun v => v.2 * 8192 + v.1), s.ownTag n.val d.seq,
          d.body, none, 0⟩
        (d.skip = false → s.canSend n.val = true → d.sign = none → s.wireFree n.val = s.time.elapsed →
          Ends (.launch n) s { s with
              due := left, wire := Tbl.put n.val ((Tbl.get [] n.val s.wire).filter (fun e => decide (s.time.elapsed < e.2)) ++
                [(s.time.elapsed, s.time.elapsed + wireTime (s.speed n.val) f.len * nsU / 100)]) s.wire }
            [key p PORT.TX_FRAMES] (fun t => (s.padsTaken = false → t.sent = .frame n.val f true :: s.sent) ∧
              t.rd p PORT.TX_FRAMES = oneMore (s.rd p PORT.TX_FRAMES))) ∧
        (d.skip = true ∨ s.canSend n.val = false →
          Ends (.launch n) s { s with due := left } [key p PORT.TX_SKIP, key p HDR.IRQ_STS] (fun t =>
            t.rd p PORT.TX_SKIP = oneMore (s.rd p PORT.TX_SKIP) ∧ bit (t.rd p HDR.IRQ_STS) 18 = true)))))

/-- PUB_DOORBELL, PUB_DONE, GOOSE_REPEAT (R110, R111, R113, R118, R124, R274, R301): a check runs and reports; a refused entry changes
nothing, an accepted one waits for its guest's commit point, a removed index with no loaded guest is freed at once, and in SAFE the
check ends with E_MODE; a repeat, once its launch's commit point has come, sends the frame of the latest commit again with sqNum
advanced, its interval doubled up to T0_MS (the first publication after a hold is a change: R286), takes the address's number, and
is put among the frames due unless it is suppressed. Before that, and without a publication that repeats, nothing happens.
PUB_DOORBELL, PUB_DONE and GOOSE_REPEAT complete here. The model's choices in it: log 42, 43, 45, 116, 129, 130, 131, 132. -/
def Obligations.Publications : Prop :=
  ∀ s : State,
    (∀ src w, s.accepts src .egress EGRESS.PUB_DOORBELL w → Ends (.pubDoorbell src w) s { s with pubJob := some (w.toNat % 4096) }
      [key .egress EGRESS.PUB_RESULT] (fun t =>
        t.rd .egress EGRESS.PUB_RESULT = BitVec.ofNat 32 (2 ^ 31 + w.toNat % 4096 * 65536))) ∧
    (s.pubJob = none → exec .pubDone s = .next s) ∧
    (∀ i, s.pubJob = some i →
      let regs := [key .egress EGRESS.PUB_RESULT, key .egress HDR.IRQ_STS]
      let shows := fun (c : Nat) (t : State) => t.rd .egress EGRESS.PUB_RESULT = BitVec.ofNat 32 (i * 65536 + c) ∧
        bit (t.rd .egress HDR.IRQ_STS) 16 = true
      let gone := { s with pubJob := none }
      (s.role.mode = .safe → Ends .pubDone s gone regs (shows E_MODE)) ∧
      (s.role.mode ≠ .safe → s.rd2 .egress EGRESS.PUB_BASE_LO + 64 * i + 64 ≤ dramSize →
        let b := s.readMem (s.rd2 .egress EGRESS.PUB_BASE_LO + 64 * i) 64
        let e := pubOfBytes b
        let others := s.pubAccept.filter (fun a => a.1 != i)
        (pubReserved b = true → Ends .pubDone s gone regs (shows E_RESERVED)) ∧
        (pubReserved b = false → b.headD 0 &&& 1 = 0 →
          let g := match Tbl.look i s.pubs with | some u => u.entry.guest | none => 0
          (s.guest g = none → Ends .pubDone s { gone with pubs := Tbl.del i s.pubs, pubAccept := others } regs (shows 0)) ∧
          ((s.guest g).isSome = true → s.mirrored = false → Ends .pubDone s { gone with pubAccept := others ++ [(i, none)] } regs (shows 0)) ∧
          ((s.guest g).isSome = true → s.mirrored = true → ∃ t, exec .pubDone s = .next t ∧ shows 0 t ∧ t.pubJob = none)) ∧
        (pubReserved b = false → b.headD 0 &&& 1 ≠ 0 → e.mapAddr + 8 * e.mapCount ≤ dramSize → e.tmplAddr + e.tmplLen ≤ dramSize →
          (∀ c, s.pubCheck i b = some c → Ends .pubDone s gone regs (shows c)) ∧
          (s.pubCheck i b = none → s.mirrored = false → Ends .pubDone s { gone with pubAccept := others ++ [(i, some e)] } regs (shows 0)) ∧
          (s.pubCheck i b = none → s.mirrored = true → ∃ t, exec .pubDone s = .next t ∧ shows 0 t ∧ t.pubJob = none)))) ∧
    (∀ i, Tbl.look i s.pubs = none → exec (.gooseRepeat i) s = .next s) ∧
    (∀ i u x, Tbl.look i s.pubs = some u → s.guest u.entry.guest = some x →
      (u.repeatAt = none → exec (.gooseRepeat i) s = .next s) ∧
      (∀ grid, u.repeatAt = some grid →
        let e := u.entry
        let cp := s.instantOf x.img.n grid
        (u.stopped = true ∨ e.typ ≠ 0 ∨ cDiff s.time.clock cp < 0 ∨ s.sendState x = none → exec (.gooseRepeat i) s = .next s) ∧
        (∀ send, u.stopped = false → e.typ = 0 → 0 ≤ cDiff s.time.clock cp → s.sendState x = some send → s.poison = [] →
          let iv := if u.force then e.t1 else min (2 * u.interval) e.t0
          let map := u.last.getD []
          let seq := Tbl.get 0 e.srcIdx s.addrCount
          let v : Pub := { u with
            stNum := if u.force then wrapNext u.stNum else u.stNum, sqNum := if u.force then 0 else wrapNext u.sqNum
            tField := if u.force then s.timeStamp grid (s.pubSync x) else u.tField, force := false, interval := iv
            repeatAt := some (grid + 288 * iv), last := some map, count := u.count + 1 }
          let body := overlay (overlay (overlay (overlay (layMap (s.template e) map) e.ofsT v.tField) e.ofsA (beBytes 4 v.stNum))
            e.ofsB (beBytes 4 v.sqNum)) e.ofsTal (beBytes 4 (2 * iv))
          let d : DueFrame := ⟨i, e.guest, e.urgent, e.srcIdx, seq % 65536, if e.tagged then some (e.vid, e.pcp) else none, e.dst, body,
            if e.sign then some e.keySlot else none, false, e.ports, cp + (s.rd .egress EGRESS.LAUNCH_OFS).toNat * nsU⟩
          Ends (.gooseRepeat i) s { s with
            addrCount := Tbl.set 0 e.srcIdx (seq + 1) s.addrCount, due := if send then s.due ++ [d] else s.due,
            pubs := Tbl.put i v s.pubs } [] (fun _ => True))))

/-! ### Porter: descriptors, rules, verification -/

/-- Descriptors (R130, R132 to R136): an accepted SDT_BASE is stored and sets the table to zero, with DESC_RESULT.BUSY until that ends;
a doorbell starts a check; its end, which waits for the zeroing, reports the outcome: a refused descriptor changes nothing, an
accepted one takes its context's place, or leaves it empty where VALID is 0, and no other context's; a cached context's state half
is written back. SDT_BASE_WRITE, SDT_ZERO_DONE, DESC_DOORBELL, DESC_DONE and SDT_STATE_WRITEBACK complete here. The model's choices in
it: log 50, 51. -/
def Obligations.Descriptors : Prop :=
  ∀ s : State,
    (∀ src (a : BitVec 64),
      let lo := BitVec.ofNat 32 a.toNat
      let hi := BitVec.ofNat 32 (a.toNat / 2 ^ 32)
      s.accepts src .porter PORTER.SDT_BASE_LO lo →
      ({ s with shadow := Tbl.put (key .porter PORTER.SDT_BASE_LO) lo s.shadow } : State).accepts src .porter PORTER.SDT_BASE_HI hi →
      Ends (.sdtBaseWrite src a) s { s with porter := { s.porter with zeroing := true, sdtSet := true } }
        [key .porter PORTER.SDT_BASE_LO, key .porter PORTER.SDT_BASE_HI, key .porter PORTER.DESC_RESULT]
        (fun t => bit (t.rd .porter PORTER.DESC_RESULT) 31 = true ∧ t.rd .porter PORTER.SDT_BASE_LO = lo ∧
          t.rd .porter PORTER.SDT_BASE_HI = hi)) ∧
    (s.porter.zeroing = false → exec .sdtZeroDone s = .next s) ∧
    (s.porter.zeroing = true → s.sdtEntry 0 + 0x10_0000 ≤ dramSize → s.poison = [] → ∃ t, exec .sdtZeroDone s = .next t ∧
      (∀ a, t.byte a = if s.sdtEntry 0 ≤ a ∧ a < s.sdtEntry 0 + 0x10_0000 then 0 else s.byte a) ∧
      sameState { s with dram := t.dram, porter := { s.porter with zeroing := false } } t ∧
      keepsRegs s t [key .porter PORTER.DESC_RESULT] ∧ (s.porter.descJob = none → bit (t.rd .porter PORTER.DESC_RESULT) 31 = false)) ∧
    (∀ src w, s.accepts src .porter PORTER.DESC_DOORBELL w → Ends (.descDoorbell src w) s
      { s with porter := { s.porter with descJob := some (w.toNat % 4096) } }
      [key .porter PORTER.DESC_RESULT]
      (fun t => t.rd .porter PORTER.DESC_RESULT = BitVec.ofNat 32 (2 ^ 31 + w.toNat % 4096 * 65536))) ∧
    (s.porter.descJob = none ∨ s.porter.zeroing = true → exec .descDone s = .next s) ∧
    (∀ i, s.porter.descJob = some i → s.porter.zeroing = false → s.rd2 .porter PORTER.DESC_STAGE_LO + 128 ≤ dramSize → s.sdtEntry 0 + 0x10_0000 ≤ dramSize →
      let b := s.readMem (s.rd2 .porter PORTER.DESC_STAGE_LO) 128
      let verdict := s.descCheck i (s.leMem (s.sdtEntry i + 4) 2) b
      let shows := fun (c : Nat) (t : State) => t.rd .porter PORTER.DESC_RESULT = BitVec.ofNat 32 (i * 65536 + c) ∧
        bit (t.rd .porter HDR.IRQ_STS) 16 = true
      (∀ c, verdict = some c → Ends .descDone s { s with porter := { s.porter with descJob := none } }
        [key .porter PORTER.DESC_RESULT, key .porter HDR.IRQ_STS] (shows c)) ∧
      (verdict = none → ∃ t, exec .descDone s = .next t ∧ shows 0 t ∧ t.porter.descJob = none ∧
        (Tbl.look i t.porter.ctxs).map (fun e => e.d) = (if (descOf b).valid then some (descOf b) else none) ∧
        ∀ k, k ≠ i → (Tbl.look k t.porter.ctxs).map (fun e => e.d) = (Tbl.look k s.porter.ctxs).map (fun e => e.d))) ∧
    (∀ i, (s.cacheSet i).contains i = false → exec (.sdtStateWriteback i) s = .next s) ∧
    (∀ i e, (s.cacheSet i).contains i = true → Tbl.look i s.porter.ctxs = some e → s.sdtEntry i + 256 ≤ dramSize → s.poison = [] →
      Ends (.sdtStateWriteback i) s { s with dram := putBytes s.dram (s.sdtEntry i + 128) e.st.toBytes } [] (fun _ => True))

/-- Manager rules, discovery sources and the transmit queue (R142, R150, R151): an accepted rule command holds its key and reads BUSY,
and ends with its outcome: an add enters the rule or reports that its key is there or does not fit, a remove takes the rule away or
reports that there is none; a source idle for 10 s is freed, and no other; entries posted to the queue while it is off wait; a posted
entry of one port is taken and its frame, padded, waits at its port, and Q_CI shows it as the oldest that waits. RULE_ADD, RULE_REMOVE,
RULE_DONE, DISC_SOURCE_AGE and TXQ_PI_WRITE complete here. The model's choices in it: log 48, 49, 51, 142. -/
def Obligations.ManagerRulesAndQueue : Prop :=
  ∀ s : State,
    let keyNow := (List.range 4).flatMap (fun k => leBytes 4 (s.rd .porter (PORTER.RULE_KEY k)).toNat)
    let starts := fun (i : Instr) (op action : Nat) => Ends i s { s with porter := { s.porter with ruleJob := some (op, action, keyNow) } }
      [key .porter PORTER.RULE_RESULT] (fun t => t.rd .porter PORTER.RULE_RESULT = BitVec.ofNat 32 (2 ^ 31))
    (∀ src (action : BitVec 2), s.accepts src .porter PORTER.RULE_CMD (BitVec.ofNat 32 (1 + 16 * action.toNat)) →
      starts (.ruleAdd src action) 1 action.toNat) ∧
    (∀ src, s.accepts src .porter PORTER.RULE_CMD 2 → starts (.ruleRemove src) 2 0) ∧
    (s.porter.ruleJob = none → exec .ruleDone s = .next s) ∧
    (∀ op action k, s.porter.ruleJob = some (op, action, k) →
      let ends := fun (mt : Tbl MtEnt) (c : Nat) => Ends .ruleDone s { s with porter := { s.porter with ruleJob := none, mt := mt } }
        [key .porter PORTER.RULE_RESULT, key .porter HDR.IRQ_STS] (fun t =>
          t.rd .porter PORTER.RULE_RESULT = BitVec.ofNat 32 c ∧ bit (t.rd .porter HDR.IRQ_STS) 17 = true)
      let held := s.porter.mt.any (fun e => e.2.key == k)
      let ruled := s.porter.mt.any (fun e => e.2.key == k && e.2.ctx.isNone)
      (op = 1 → held = true → ends s.porter.mt E_CONFLICT) ∧
      (op = 1 → held = false → s.mtInsert s.porter.mt ⟨k, none, action⟩ = none → ends s.porter.mt E_STASH) ∧
      (∀ m, op = 1 → held = false → s.mtInsert s.porter.mt ⟨k, none, action⟩ = some m → ends m 0) ∧
      (op = 2 → ruled = true → ends (s.mtRemove s.porter.mt k) 0) ∧ (op = 2 → ruled = false → ends s.porter.mt E_ORPHAN)) ∧
    (∀ src, let due := (Tbl.look src s.porter.disc).any (fun e => decide (e.at_ + 10 * secU ≤ s.time.elapsed))
      (due = false → exec (.discSourceAge src) s = .next s) ∧
      (due = true → Ends (.discSourceAge src) s { s with porter := { s.porter with disc := Tbl.del src s.porter.disc } } []
        (fun t => Tbl.look src t.porter.disc = none ∧ ∀ k, k ≠ src → Tbl.look k t.porter.disc = Tbl.look k s.porter.disc))) ∧
    (∀ src w, s.ringInDram 3 = true → s.accepts src .porter (PORTER.Q_PI 3) w → s.qOn 3 = false →
      Ends (.txqPiWrite src w) s s [key .porter (PORTER.Q_PI 3)] (fun t => t.rdf .porter (PORTER.Q_PI 3) 11 0 = w.toNat % 4096)) ∧
    (∀ src (w : Word) n, s.ringInDram 3 = true → s.accepts src .porter (PORTER.Q_PI 3) w → s.qOn 3 = true → n < 5 →
      let k := s.porter.txTaken
      let a := s.rd2 .porter (PORTER.Q_BASE_LO 3) + k * s.qEntry 3
      let len := s.leMem a 2
      let b := s.readMem (a + 32) len
      w.toNat < 4096 → k < 4096 → s.rd .porter (PORTER.Q_PI 3) = BitVec.ofNat 32 k → w.toNat = (k + 1) % s.qRing 3 → w.toNat ≠ k →
      len ≤ s.qEntry 3 - 32 → len ≤ s.rdf (portPage n) PORT.PORT_MTU 13 0 →
      (List.range 5).filter (fun m => (s.leMem (a + 2) 1).testBit m) = [n] → (s.leMem (a + 3) 1).testBit 0 = false →
      s.linkOf n = true → s.ptpOf n (b.drop 12) = none →
      Ends (.txqPiWrite src w) s { s with
          nsq := Tbl.put n (s.nsOf n ++ [⟨2,
            TxFrame.fit ⟨ofBe (b.take 6), ofBe ((b.drop 6).take 6), none, none, b.drop 12, none, 0⟩, none, some k, false⟩]) s.nsq,
          porter := { s.porter with txTaken := w.toNat } }
        [key .porter (PORTER.Q_PI 3), key .porter (PORTER.Q_CI 3)] (fun t => t.rd .porter (PORTER.Q_PI 3) = w ∧
          ((∀ e ∈ s.nsq, ∀ f ∈ e.2, f.entry = none) → t.rd .porter (PORTER.Q_CI 3) = BitVec.ofNat 32 k)))

/-- Verification (R146, R153, R155 to R157, R185): a free HMAC engine of a block in service takes the job, or a clear's tag job, whose
deadline comes first, and nothing else starts; the end of a job counts it, drops and counts a failed frame under policy 1, and delivers
one that passes; a deadline that has passed without a result drops the frame under policy 1 and counts it, withdraws a job that has
not started and lets one that has started run on, and before the deadline nothing happens; a GOOSE context whose time to live has
passed says so in its status point, and before that nothing happens. HMAC_JOB_START, VERIFY_DONE, VERIFY_DEADLINE and TAL_EXPIRED
complete here. The model's choices in it: log 3, 5, 52, 54, 92. -/
def Obligations.Verification : Prop :=
  ∀ s : State,
    let gone := fun (id : Nat) => s.porter.jobs.filter (fun x => x.id != id)
    (∀ e : Fin 8,
      let w := e.val + 4
      let free := s.porter.jobs.all (fun j => j.engine != some w) && s.ledger.clr.all (fun c => c.engine != some w) &&
        !s.quarantined .crypto w && s.working .crypto
      let tagFirst := s.tagQueued && s.ledger.clr.any (fun c => c.before s.hmacNext)
      (free = false → exec (.hmacJobStart e) s = .next s) ∧
      (s.hmacNext = none → s.tagQueued = false → exec (.hmacJobStart e) s = .next s) ∧
      (∀ j, s.hmacNext = some j → j ∈ s.hmacQueue ∧ ∀ x ∈ s.hmacQueue, j.deadline ≤ x.deadline) ∧
      (∀ j, free = true → tagFirst = false → s.hmacNext = some j → s.keyUse j.slot j.d.guest j.d.alg false = none →
        Ends (.hmacJobStart e) s { s with porter := { s.porter with
          jobs := s.porter.jobs.map (fun x => if x.id = j.id then { x with engine := some w } else x) } } [] (fun _ => True)) ∧
      (∀ c k, free = true → tagFirst = true → s.ledger.clr = some c → s.keyUse (leAt c.token 6 2) 0 2 true = none →
        s.kslot (leAt c.token 6 2) = some k →
        Ends (.hmacJobStart e) s { s with ledger := { s.ledger with
          clr := some { c with engine := some w, pass := tagPasses k.key c.token } } } [] (fun _ => True))) ∧
    (∀ id pass, s.porter.jobs.find? (fun j => j.id == id) = none →
      exec (.verifyDone id pass) s = .next s ∧ exec (.verifyDeadline id) s = .next s) ∧
    (∀ id j e c, s.porter.jobs.find? (fun j => j.id == id) = some j → j.engine = some e → j.lost = false → j.revoked = false →
      j.removed = false → s.porter.held = [] → j.fr.red = none → Tbl.look j.ctx s.porter.ctxs = some c →
      let octets := (j.fr.f.ext.map (fun (x : AuthExt) => x.octets)).getD 0
      let busy := Tbl.set 0 e (Tbl.get 0 e s.porter.busyNow + (if j.hmac then hmacNs octets else gmacNs octets)) s.porter.busyNow
      let counter := fun (pass : Bool) => match j.hmac, pass with
        | true, true => CRYPTO.HMAC_PASS | true, false => CRYPTO.HMAC_FAIL
        | false, true => CRYPTO.GMAC_PASS | false, false => CRYPTO.GMAC_FAIL
      let fact := fun (pass : Bool) (t : State) => t.rd .crypto (counter pass) = oneMore (s.rd .crypto (counter pass)) ∧
        t.rd .crypto (win e CRYPTOW.ENG_JOBS) = oneMore (s.rd .crypto (win e CRYPTOW.ENG_JOBS))
      e < 12 →
      (j.late = false → s.role.mode ≠ .safe → j.d.policy = 1 → Ends (.verifyDone id false) s
        { s with porter := { s.porter with
          jobs := gone id, busyNow := busy, ctxs := Tbl.put j.ctx { c with st := { c.st with authFail := inc32 c.st.authFail } } s.porter.ctxs } }
        [key .crypto (counter false), key .crypto (win e CRYPTOW.ENG_JOBS)] (fact false)) ∧
      (j.late = true → Ends (.verifyDone id true) s { s with porter := { s.porter with jobs := gone id, busyNow := busy } }
        [key .crypto (counter true), key .crypto (win e CRYPTOW.ENG_JOBS)] (fact true)) ∧
      (∀ ref rev st sq tal data ext, j.late = false → s.role.mode ≠ .safe → j.fr.f.app = .goose ref rev st sq tal data ext → goNewer c.st st sq = true →
        ∃ t, exec (.verifyDone id true) s = .next t ∧ t.porter.jobs = gone id ∧ fact true t ∧
          (Tbl.look j.ctx t.porter.ctxs).map (fun x => (x.st.rxOk, x.st.lastStNum, x.st.lastSqNum)) =
            some (min (2 ^ 64 - 1) (c.st.rxOk + 1), st, sq))) ∧
    (∀ id j, s.porter.jobs.find? (fun j => j.id == id) = some j → (j.late = true ∨ s.now < j.deadline →
      exec (.verifyDeadline id) s = .next s) ∧ (j.engine = none ∨ j.lost = true → ∀ pass, exec (.verifyDone id pass) s = .next s)) ∧
    (∀ id j c, s.porter.jobs.find? (fun j => j.id == id) = some j → j.late = false → j.deadline ≤ s.now → j.lost = false →
      j.removed = false → s.role.mode ≠ .safe →
      s.porter.held = [] → j.fr.red = none → j.d.policy = 1 → Tbl.look j.ctx s.porter.ctxs = some c →
      let after := Tbl.put j.ctx { c with st := { c.st with lateDrop := inc32 c.st.lateDrop } } s.porter.ctxs
      (j.engine.isSome = true → Ends (.verifyDeadline id) s { s with porter := { s.porter with
        ctxs := after, jobs := s.porter.jobs.map (fun x => if x.id = id then { x with late := true } else x) } } [] (fun _ => True)) ∧
      (j.engine = none → j.hmac = true → Ends (.verifyDeadline id) s { s with porter := { s.porter with ctxs := after, jobs := gone id } }
        [key .crypto CRYPTO.WITHDRAWN] (fun t => t.rd .crypto CRYPTO.WITHDRAWN = oneMore (s.rd .crypto CRYPTO.WITHDRAWN)))) ∧
    (∀ i e, Tbl.look i s.porter.ctxs = some e → e.d.cls = 1 → e.st.rxOk ≠ 0 → e.st.talEnd ≤ s.time.elapsed → s.poison = [] → s.unpinned (s.statusPoint i) →
      let v := (s.point (s.statusPoint i)).toNat
      let q := v / 2 ^ 32
      Ends (.talExpired i) s { s with
          dram := putBytes s.dram (s.pointAddr (s.statusPoint i))
            (leBytes 8 (qPoint v (qualityWord 0 (fld q 14 13) 4 false false (q.testBit 22))).toNat),
          ptNow := (s.ptNow.1 + 1, s.ptNow.2),
          porter := { s.porter with ctxs := Tbl.put i { e with st := { e.st with talExpired := true } } s.porter.ctxs } }
        [key .point POINT.INGRESS_WRITES]
        (fun t => t.rd .point POINT.INGRESS_WRITES = oneMore (s.rd .point POINT.INGRESS_WRITES))) ∧
    (∀ i, (∀ e, Tbl.look i s.porter.ctxs = some e → e.d.cls ≠ 1 ∨ e.st.rxOk = 0 ∨ s.time.elapsed < e.st.talEnd) → exec (.talExpired i) s = .next s)

/-! ### Alignment -/

/-- ASDU_PLACE, CUT_OFF, CTX_SEL (R136, R174, R176, R178, R180, R181, R186, R191, R192): the oldest sample of a lane in service, where its
context is filling or held, counts seconds and awaits no relock, is written to its position under the descriptor its frame met, or
counted as late, early or duplicate; one of a context that has restarted since is discarded and counted. A cut-off whose instant is
reached publishes a position that was filled, or counts a substitute and moves the context to its held or lost state; before its
instant nothing happens. A write of CTX_SEL latches the selected context's state. ASDU_PLACE, CUT_OFF and CTX_SEL complete here.
The model's choices in it: log 56, 57. -/
def Obligations.Alignment : Prop :=
  ∀ s : State,
    (∀ l, s.quarantined .align l = true ∨ Tbl.get [] l s.align.lanes = [] → exec (.asduPlace l) s = .next s) ∧
    (∀ l x rest, s.quarantined .align l = false → Tbl.get [] l s.align.lanes = x :: rest →
      let u := { s with align := { s.align with lanes := Tbl.set [] l rest s.align.lanes } }
      (Tbl.look x.ctx s.porter.ctxs = none → Ends (.asduPlace l) s u [] (fun _ => True)) ∧
      (∀ e, Tbl.look x.ctx s.porter.ctxs = some e → e.d.cls ≠ 0 ∨ x.d.restarts e.d = true →
        Ends (.asduPlace l) s u [key .porter PORTER.REMOVED_INFLIGHT]
          (fun t => t.rd .porter PORTER.REMOVED_INFLIGHT = oneMore (s.rd .porter PORTER.REMOVED_INFLIGHT))) ∧
      (∀ e, Tbl.look x.ctx s.porter.ctxs = some e → e.d.cls = 0 → x.d.restarts e.d = false → x.asdu.smpSynch ≠ 0 →
        (s.actx x.ctx).free = false →
        ((s.actx x.ctx).state = 1 ∨ (s.actx x.ctx).state = 2) → (s.actx x.ctx).relockPend = false →
        let a := s.actx x.ctx
        let r := s.locate x.d a x false
        let g := r.1
        let heard := { a with lastCnt := x.asdu.smpCnt }
        let half := a.next + x.d.depth / 2
        let dup := a.ahead.any (fun p => p.g == g)
        let counts := fun (o : Nat) (b : AlignCtx) => ∃ t, exec (.asduPlace l) s = .next t ∧ t.actx x.ctx = b ∧
          t.rd .align o = oneMore (s.rd .align o) ∧ t.dram = s.dram ∧ Tbl.get [] l t.align.lanes = rest
        (g < a.next → counts ALIGN.LATE { heard with late := satAdd 0xFFFF_FFFF a.late 1 }) ∧
        (a.next ≤ g → half ≤ g → counts ALIGN.EARLY { heard with early := satAdd 0xFFFF_FFFF a.early 1 }) ∧
        (a.next ≤ g → g < half → dup = true → counts ALIGN.DUP { heard with dup := satAdd 0xFFFF_FFFF a.dup 1 }) ∧
        (a.next ≤ g → g < half → dup = false → s.poison = [] →
          let timing := x.gen == s.time.stepGen && decide (s.rdf .align ALIGN.LOCK_TOL 19 0 * 256 < r.2.1.natAbs)
          let word := fun (c : Nat) => qPoint (x.asdu.chans.getD c (0, 0)).1
            (qualityWord (x.asdu.chans.getD c (0, 0)).2 x.auth (if 0 < a.relockLeft then 3 else 0) false timing (s.simSeen x.ctx))
          ∃ t, exec (.asduPlace l) s = .next t ∧ (t.actx x.ctx).ahead = a.ahead ++ [⟨g, x.auth, x.asdu.chans⟩] ∧
            (t.actx x.ctx).state = 1 ∧ (t.actx x.ctx).hold = 0 ∧ (t.actx x.ctx).next = a.next ∧ Tbl.get [] l t.align.lanes = rest ∧
            t.dram = (List.range x.d.chanN).foldl (fun m c => putBytes m (s.pointAddr (x.d.slot g + c)) (leBytes 8 (word c).toNat))
              s.dram))) ∧
    let due := fun (i : Nat) (d : StreamDesc) => (s.lastCut d s.time.clock).any (fun g => decide ((s.actx i).next ≤ g))
    (∀ i, Tbl.look i s.porter.ctxs = none ∨ (s.actx i).state = 0 → exec (.cutOff i) s = .next s) ∧
    (∀ i e, Tbl.look i s.porter.ctxs = some e → due i e.d = false → exec (.cutOff i) s = .next s) ∧
    (∀ i e, Tbl.look i s.porter.ctxs = some e → e.d.cls = 0 → (s.actx i).state ≠ 0 → due i e.d = true →
      let a := s.actx i
      let found := a.ahead.find? (fun p => p.g == a.next)
      (∀ p, found = some p → s.poison = [] → s.unpinned (s.statusPoint i) → Ends (.cutOff i) s { s with
          align := { s.align with
            ctxs := Tbl.put i { a with next := a.next + 1, last := some p, ahead := a.ahead.filter (fun q => q.g != a.next) } s.align.ctxs },
          ptNow := (s.ptNow.1 + 1, s.ptNow.2),
          dram := putBytes s.dram (s.pointAddr (s.statusPoint i)) (leBytes 8 (BitVec.ofNat 64 (a.next % 2 ^ 32 +
            (s.point (e.d.slot a.next)).toNat / 2 ^ 32 * 2 ^ 32) : DWord).toNat) }
        [key .point POINT.INGRESS_WRITES]
        (fun t => t.rd .point POINT.INGRESS_WRITES = oneMore (s.rd .point POINT.INGRESS_WRITES))) ∧
      (found = none →
        let held := e.d.subst ≠ 3 ∧ a.hold + 1 ≤ e.d.holdMax ∧ a.state ≠ 3
        ∃ t, exec (.cutOff i) s = .next t ∧ (t.actx i).next = a.next + 1 ∧ (t.actx i).hold = a.hold + 1 ∧
          (held → (t.actx i).state = 2) ∧ (¬ held → (t.actx i).state = 3) ∧
          t.rd .align ALIGN.SUBST = oneMore (s.rd .align ALIGN.SUBST) ∧
          (¬ held → a.state ≠ 3 → bit (t.rd .align HDR.IRQ_STS) 16 = true))) ∧
    (∀ src w, s.accepts src .align ALIGN.CTX_SEL w →
      let i := w.toNat % 4096
      let a := s.actx i
      Ends (.ctxSel src w) s s ([ALIGN.CTX_SEL, ALIGN.CTX_STATE, ALIGN.CTX_FILLED_LO, ALIGN.CTX_FILLED_LO + 4, ALIGN.CTX_RESID,
          ALIGN.CTX_LATE, ALIGN.CTX_EARLY, ALIGN.CTX_DUP, ALIGN.CTX_TIMING, ALIGN.CTX_SUBST, ALIGN.CTX_RELOCKS].map (key .align))
        (fun t => t.rd .align ALIGN.CTX_SEL = w ∧
          (∀ e, Tbl.look i s.porter.ctxs = some e → t.rd .align ALIGN.CTX_STATE = BitVec.ofNat 32 (2 ^ 16 * a.relockLeft +
            256 * min a.hold 255 + 16 * b2n a.relockPend + 8 * b2n (a.free && decide (a.state ≠ 0)) +
            (if e.d.cls = 1 then 4 else a.state))) ∧ t.rd .align ALIGN.CTX_LATE = BitVec.ofNat 32 a.late ∧ t.rd .align ALIGN.CTX_EARLY = BitVec.ofNat 32 a.early ∧
          t.rd .align ALIGN.CTX_DUP = BitVec.ofNat 32 a.dup ∧ t.rd .align ALIGN.CTX_SUBST = BitVec.ofNat 32 a.subst ∧
          t.rd .align ALIGN.CTX_TIMING = BitVec.ofNat 32 a.timing ∧ t.rd .align ALIGN.CTX_RELOCKS = BitVec.ofNat 32 a.relocks ∧
          t.rd .align ALIGN.CTX_RESID = BitVec.ofNat 32 (unsigned 32 a.resid) ∧
          t.rd2 .align ALIGN.CTX_FILLED_LO = if a.state = 0 then 0 else (a.next + 2 ^ 64 - 1) % 2 ^ 64))

/-! ### Guests -/

/-- CYCLE_START, FREEZE_CLOSE, COMMIT_DEADLINE, COMMIT_POINT (R202, R203, R207, R208, R211, R212, R214, R229): at its start tick a
running guest freezes its inputs; when the freeze window closes its cells start at word 0 with registers, flags and counter clear; at
the commit deadline the watchdog stages the outputs of a cycle within budget, or stops the cells; at the commit point the staged
outputs, or a halted guest's safe values, stand in the points, and the commit sequence advances. Before the instant of each, and of a
guest that is not loaded, nothing happens. A cell that has not done its share when one of the three windows closes is quarantined and
halts its guest. The first four are stated of a unit that neither mirrors nor follows nor leaves its role, with nothing waiting for
the cycle. CYCLE_START, FREEZE_CLOSE, COMMIT_DEADLINE and COMMIT_POINT complete here. The model's choices in it: log 3, 135. -/
def Obligations.GuestCycles : Prop :=
  ∀ (s : State) (g : Nat), s.hinge.later = [] → s.poison = [] → s.follows = false → s.mirrored = false →
    s.role.leaving = false →
    let points := fun (l : List (Nat × DWord)) => l.foldl (fun m e => putBytes m (s.pointAddr e.1) (leBytes 8 e.2.toNat)) s.dram
    let nothing := fun (i : Instr) => Ends i s s [] (fun _ => True)
    (s.guest g = none → nothing (.cycleStart g) ∧ nothing (.freezeClose g []) ∧ nothing (.commitDeadline g []) ∧
      nothing (.commitPoint [g] [])) ∧
    (∀ x, s.guest g = some x → x.st = .running →
      let i := cycleAt x.img.n (s.classTick x.img.n)
      let start := cycleTick x.img.n i.1 i.2
      (s.classTick x.img.n ≠ start → nothing (.cycleStart g)) ∧
      (s.classTick x.img.n = start → x.phase = .idle → s.runs = true → (cycLt (x.lastS, x.lastC) i = true ∨ x.first = true) → s.patchPend = [] →
        ∃ t y, exec (.cycleStart g) s = .next t ∧ t.guest g = some y ∧ y.phase = .freeze ∧ (y.cycS, y.cycC) = i ∧
          y.cycLen = cycleLen x.img.n i.2 ∧ y.frozen = s.freeze x s.tickF ∧ y.cpTick = start + y.cycLen ∧ y.st = .running ∧ y.staged = [] ∧ y.fail = 0 ∧
          y.linesMax = (s.allow g).map (fun a => a.2.1) ∧ t.dram = s.dram ∧ t.cells = s.cells) ∧
      (x.phase ≠ .freeze ∨ s.time.elapsed < x.began + windowU → nothing (.freezeClose g [])) ∧
      (x.phase = .freeze → x.began + windowU ≤ s.time.elapsed → x.rxOf x.lastS x.lastC = none → x.patched = [] →
        bit (s.rd (.exb x.exb) HDR.PAGE_CTL) 0 = true →
        ∃ t, exec (.freezeClose g []) s = .next t ∧ (t.guest g).map (fun y => (y.phase, y.st, y.frozen)) = some (.execute, .running, x.frozen) ∧
          (∀ c ∈ x.cellList, (t.cell c).run = .running ∧ (t.cell c).pc = 0 ∧ (t.cell c).g = [] ∧ (t.cell c).v = [] ∧
            (t.cell c).fps = 0 ∧ (t.cell c).cyc = 0 ∧ (t.cell c).isram = (s.cell c).isram) ∧
          (x.img.inputs = [] → ∀ c, (t.cell c).dsram = (s.cell c).dsram) ∧ t.dram = s.dram) ∧
      let deadline := cDiff (s.time.clock + windowU) (s.instantOf x.img.n x.cpTick)
      (x.phase ≠ .execute ∨ deadline < 0 → nothing (.commitDeadline g [])) ∧
      (x.phase = .execute → 0 ≤ deadline → x.rxOf x.cycS x.cycC = none →
        (s.watchdog x = 0 → ∃ t y, exec (.commitDeadline g []) s = .next t ∧ t.guest g = some y ∧ y.phase = .commit ∧ y.fail = 0 ∧
          y.staged = s.outputs x ∧ y.st = .running ∧ t.cells = s.cells ∧ t.dram = s.dram) ∧
        (s.watchdog x ≠ 0 → ∃ t y, exec (.commitDeadline g []) s = .next t ∧ t.guest g = some y ∧ y.phase = .commit ∧
          y.fail = s.watchdog x ∧ y.staged = [] ∧ (∀ c ∈ x.cellList, (t.cell c).run = .stopped) ∧ t.dram = s.dram)) ∧
      (s.cpOf x = none → nothing (.commitPoint [g] [])) ∧
      (∀ k, s.cpOf x = some k → x.phase = .commit → x.late = false → x.stopReq = false → x.storeFresh = false → x.storeRets = [] → s.pubs = [] →
        s.pubAccept = [] → s.role.merge = none → s.ckpt.state = 0 →
        (x.fail = 0 → ∃ t y, exec (.commitPoint [g] []) s = .next t ∧ t.guest g = some y ∧ y.st = .running ∧ y.phase = .idle ∧
          (y.lastS, y.lastC) = (x.cycS, x.cycC) ∧ y.first = false ∧ y.lastCp = some k ∧ t.dram = points x.staged ∧ t.hinge.cseq = s.hinge.cseq + 1) ∧
        (x.fail ≠ 0 → ∃ t y, exec (.commitPoint [g] []) s = .next t ∧ t.guest g = some y ∧ y.st = .halted ∧ y.haltCause = x.fail ∧
          y.haltC = x.cycC ∧ y.phase = .idle ∧ t.dram = points (s.safes x) ∧ t.hinge.cseq = s.hinge.cseq + 1)) ∧
      (∀ c ∈ x.cellList, x.exb < 16 → s.isolated (.exb x.exb) = false → s.quarantined (.exb x.exb) (c % 16) = false →
        let lost := fun (i : Instr) => ∃ t, exec i s = .next t ∧ t.quarantined (.exb x.exb) (c % 16) = true ∧
          (t.guest g).map (fun y => (y.st, y.haltCause, (t.cell c).run)) = some (.halted, 4, .stopped)
        (x.phase = .freeze → lost (.freezeClose g [c])) ∧ (x.phase = .execute → lost (.commitDeadline g [c])) ∧
          (x.phase = .commit → lost (.commitPoint [g] [c]))))

/-- Guest commands and patch sets (R242, R243, R245, R247, R249, R253, R254): an accepted command is in progress until it ends; a failed
check is reported and changes nothing else, but that an uncorrectable error is also noted; on a unit that is not mirrored a stop, a
start or restart, in CONFIGURE or where guests run, an unload, a load and an exchange have their effect; a checked set waits for its
cycle. Point commands of the manager (R221, R222): a write stands in the point unless a loaded guest outputs it, a read gives the
point's value, an uncorrectable line reports its code; each ends with PT_DONE. GCMD_LOAD, GCMD_START, GCMD_STOP, RESTART_WARM,
RESTART_COLD, GCMD_UNLOAD, GCMD_EXCHANGE, GCMD_DONE, PATCH_CMD, PATCH_CHECKED, PT_READ, PT_WRITE and PT_DONE complete here. The model's
choices in it: log 4, 60, 62, 66. -/
def Obligations.GuestAndPointCommands : Prop :=
  (∀ (s : State) (n : Nat), n < 16 →
    let result := key (.exb n) EXB.GCMD_RESULT
    let irq := key (.exb n) HDR.IRQ_STS
    (∀ src g, g < 256 →
      let starts := fun (i : Instr) (op : Nat) => s.accepts src (.exb n) EXB.GCMD (BitVec.ofNat 32 (g * 256 + op)) →
        Ends i s { s with gcmds := Tbl.put n ⟨op, g, (s.rd (.exb n) EXB.GCMD_CELLS).toNat, s.rd2 (.exb n) EXB.GCMD_IMG_LO⟩ s.gcmds }
          [result] (fun t => t.rd (.exb n) EXB.GCMD_RESULT = BitVec.ofNat 32 (2 ^ 31 + 256 * g))
      starts (.gcmdLoad src n g) 1 ∧ starts (.gcmdStart src n g) 2 ∧ starts (.gcmdStop src n g) 3 ∧ starts (.restartWarm src n g) 4 ∧
      starts (.restartCold src n g) 5 ∧ starts (.gcmdUnload src n g) 6 ∧ starts (.gcmdExchange src n g) 7 ∧
      (∀ count, count < 128 → s.accepts src (.exb n) EXB.PATCH_CMD (BitVec.ofNat 32 (g * 256 + count)) →
        Ends (.patchCmd src n g count) s
          { s with patchJobs := Tbl.put n ⟨g, [], none, s.rd2 (.exb n) EXB.PATCH_LIST_LO, count⟩ s.patchJobs }
          [] (fun _ => True))) ∧
    (Tbl.look n s.gcmds = none → exec (.gcmdDone n) s = .next s) ∧
    (∀ j, Tbl.look n s.gcmds = some j →
      let place := j.op = 1 ∨ j.op = 7
      let bytes := if place then s.imageAt j.img else []
      let shows := fun (c : Nat) (t : State) => t.rd (.exb n) EXB.GCMD_RESULT = BitVec.ofNat 32 (256 * j.guest + c) ∧
        bit (t.rd (.exb n) HDR.IRQ_STS) 19 = true
      let gone := { s with gcmds := Tbl.del n s.gcmds }
      (place → j.img + bytes.length ≤ dramSize) →
      (s.gcmdCheck j.op j.guest n j.mask bytes = some E_DRAMUE → ∃ t, exec (.gcmdDone n) s = .next t ∧ shows E_DRAMUE t ∧
        t.gcmds = gone.gcmds ∧ t.guests = s.guests) ∧
      (∀ c, s.gcmdCheck j.op j.guest n j.mask bytes = some c → c ≠ E_DRAMUE → Ends (.gcmdDone n) s gone [result, irq] (shows c)) ∧
      (s.gcmdCheck j.op j.guest n j.mask bytes = none → s.mirrored = false →
        (∀ x, s.guest j.guest = some x → j.op = 3 → x.st = .running → Ends (.gcmdDone n) s { gone with
            guests := Tbl.put j.guest { x with stopReq := true, runPend := none } s.guests,
            ledger := (s.cmdRecord 3 j.guest n (cycleAt x.img.n (s.classTick x.img.n)) x.img.build).ledger } [result, irq] (shows 0)) ∧
        (∀ x, s.guest j.guest = some x → j.op = 2 ∨ j.op = 4 ∨ j.op = 5 → s.role.mode = .configure → Ends (.gcmdDone n) s { gone with
            guests := Tbl.put j.guest { x with runPend := some (decide (j.op = 4)) } s.guests,
            ledger := (s.cmdRecord j.op j.guest n (cycleAt x.img.n (s.classTick x.img.n)) x.img.build).ledger }
          [result, irq] (shows 0)) ∧
        (∀ x, s.guest j.guest = some x → j.op = 2 ∨ j.op = 4 ∨ j.op = 5 → s.restartsRun = true →
          let at_ := cycleAt x.img.n (s.startAfter x.img.n 500000)
          Ends (.gcmdDone n) s { gone with
            guests := Tbl.put j.guest { x with restart := some ⟨decide (j.op = 4), cycleTick x.img.n at_.1 at_.2⟩ } s.guests,
            ledger := (s.cmdRecord j.op j.guest n at_ x.img.build).ledger } [result, irq] (shows 0)) ∧
        (∀ x, s.guest j.guest = some x → j.op = 3 → x.st ≠ .running → Ends (.gcmdDone n) s { gone with
            guests := Tbl.put j.guest { x with runPend := none, restart := none } s.guests,
            ledger := (s.cmdRecord 3 j.guest n (cycleAt x.img.n (s.classTick x.img.n)) x.img.build).ledger } [result, irq] (shows 0)) ∧
        (j.op = 6 → ∃ t, exec (.gcmdDone n) s = .next t ∧ shows 0 t ∧ t.guest j.guest = none ∧ t.dram = s.dram ∧
          ∀ h, h ≠ j.guest → t.guest h = s.guest h) ∧
        (place → s.poison = [] → ∃ t y, exec (.gcmdDone n) s = .next t ∧ shows 0 t ∧ t.guest j.guest = some y ∧ y.st = .loaded ∧
          y.exb = n ∧ y.mask = j.mask ∧ y.img = parse bytes ∧ y.exchanged = decide (j.op = 7) ∧
          t.dram = putBytes s.dram (s.imgStore j.guest) bytes))) ∧
    (Tbl.look n s.patchJobs = none → exec (.patchChecked n) s = .next s) ∧
    (∀ j, Tbl.look n s.patchJobs = some j → (s.patchCode n j.guest j.count = none → j.addr + 16 * j.count ≤ dramSize) →
      let gone := { s with patchJobs := Tbl.del n s.patchJobs }
      let regs := [key (.exb n) EXB.PATCH_STS, irq]
      (s.patchCheck n j.guest j.count j.addr = some E_BUSY → Ends (.patchChecked n) s gone regs
        (fun t => t.rdf (.exb n) EXB.PATCH_STS 7 0 = E_BUSY ∧ bit (t.rd (.exb n) HDR.IRQ_STS) 20 = true)) ∧
      (∀ c, s.patchCheck n j.guest j.count j.addr = some c → c ≠ E_BUSY → Ends (.patchChecked n) s gone regs
        (fun t => t.rd (.exb n) EXB.PATCH_STS = BitVec.ofNat 32 (256 * j.guest + c) ∧ bit (t.rd (.exb n) HDR.IRQ_STS) 20 = true)) ∧
      (∀ x, s.patchCheck n j.guest j.count j.addr = none → s.guest j.guest = some x → s.mirrored = false → Ends (.patchChecked n) s
        { gone with patchPend := Tbl.put n { j with
            entries := (s.patchWords j.addr j.count).map patchItem, tick := some (s.startAfter x.img.n 2000) } s.patchPend }
        regs (fun t => t.rd (.exb n) EXB.PATCH_STS = BitVec.ofNat 32 (2 ^ 31 + 256 * j.guest) ∧
          bit (t.rd (.exb n) HDR.IRQ_STS) 20 = true)))) ∧
  (∀ s : State,
    let regs := [key .point POINT.PT_STS, key .point HDR.IRQ_STS]
    let shows := fun (c : Nat) (t : State) => t.rd .point POINT.PT_STS = BitVec.ofNat 32 c ∧ bit (t.rd .point HDR.IRQ_STS) 16 = true
    let starts := fun (i : Instr) (w : Bool) => Ends i s
      { s with pointJob := some (w, (s.rd .point POINT.PT_INDEX).toNat, s.rd2 .point POINT.PT_DATA_LO) }
      [key .point POINT.PT_STS] (fun t => t.rd .point POINT.PT_STS = BitVec.ofNat 32 (2 ^ 31))
    (∀ src, s.accepts src .point POINT.PT_CMD 1 → starts (.ptRead src) false) ∧
    (∀ src, s.accepts src .point POINT.PT_CMD 2 → starts (.ptWrite src) true) ∧
    (s.pointJob = none → exec .ptDone s = .next s) ∧
    (∀ w p d, s.pointJob = some (w, p, d) → s.pointAddr p + 8 ≤ dramSize →
      (w = true → s.isOutput p = true → Ends .ptDone s { s with pointJob := none } regs (shows E_CONFLICT)) ∧
      (w = true → s.isOutput p = false → s.poison = [] → s.unpinned p → Ends .ptDone s { s with
          pointJob := none, ptNow := (s.ptNow.1, s.ptNow.2 + 1),
          dram := putBytes s.dram (s.pointAddr p) (leBytes 8 (BitVec.ofNat 64 d : DWord).toNat) }
        (key .point POINT.MGR_WRITES :: regs) (fun t => shows 0 t ∧
          t.rd .point POINT.MGR_WRITES = oneMore (s.rd .point POINT.MGR_WRITES))) ∧
      (w = false → s.poisoned (s.pointAddr p) 8 = false → Ends .ptDone s { s with pointJob := none }
        (key .point POINT.PT_DATA_LO :: key .point (POINT.PT_DATA_LO + 4) :: regs)
        (fun t => shows 0 t ∧ t.rd2 .point POINT.PT_DATA_LO = (s.point p).toNat)) ∧
      (w = false → s.poisoned (s.pointAddr p) 8 = true → ∃ t, exec .ptDone s = .next t ∧ shows E_DRAMUE t ∧ t.pointJob = none)))

/-! ### The Hinge -/

/-- HINGE_LANE_LOSS, HINGE_LINK_UP, HINGE_TX, HINGE_HB_SEND, FRAME_ERR (R256 to R259, R262, R281, R290): a lane that loses lock counts
its invalid sync headers and its loss and takes the link with its waiting frames; a link that comes up on a locked PLL counts its
frames from 0; the first waiting frame is sent with SEQ, UNIT and the active flag, and with none waiting the next 1,024 bytes of a bulk
range; outside BOOT a heartbeat is queued while the link is up, and HB_SEQ advances; a frame that is discarded is counted, with the
lanes on which it came wrong. HINGE_LANE_LOSS, HINGE_LINK_UP, HINGE_TX, HINGE_HB_SEND and FRAME_ERR complete here. The model's choices in
it: log 3, 39, 68. -/
def Obligations.HingeLink : Prop :=
  ∀ s : State,
    let links := [key .hinge HINGE.HINGE_STS, key .hinge HDR.IRQ_STS]
    let changed := fun (t : State) => bit (t.rd .hinge HDR.IRQ_STS) 16 = true
    (∀ n errs, n < 4 → s.hinge.lock.testBit n = true →
      let cell := [key .hinge (win n HINGEW.LANE_DOWNS), key .hinge (win n CELL.IRQ_STS), key .hinge (win n HINGEW.LANE_SYNC_ERR)]
      let downs := fun (t : State) => t.rd .hinge (win n HINGEW.LANE_DOWNS) = oneMore (s.rd .hinge (win n HINGEW.LANE_DOWNS)) ∧
        t.rd .hinge (win n HINGEW.LANE_SYNC_ERR) =
          BitVec.ofNat 32 (min 0xFFFF_FFFF ((s.rd .hinge (win n HINGEW.LANE_SYNC_ERR)).toNat + errs)) ∧
        bit (t.rd .hinge (win n CELL.IRQ_STS)) 0 = true
      (s.hinge.link = true → Ends (.hingeLaneLoss n errs) s
        { s.askLost with hinge := { s.hinge with lock := s.hinge.lock - 2 ^ n, link := false, queue := [] } } (cell ++ links)
        (fun t => downs t ∧ changed t)) ∧
      (s.hinge.link = false →
        Ends (.hingeLaneLoss n errs) s { s with hinge := { s.hinge with lock := s.hinge.lock - 2 ^ n } } cell downs)) ∧
    (∀ n errs, 4 ≤ n ∨ s.hinge.lock.testBit n = false → exec (.hingeLaneLoss n errs) s = .next s) ∧
    (s.hinge.link = true ∨ s.hingeOn = false ∨ s.sdLocked 0 = false → exec .hingeLinkUp s = .next s) ∧
    (s.hinge.link = false → s.hingeOn = true → s.sdLocked 0 = true → Ends .hingeLinkUp s
      { s with hinge := { s.hinge with link := true, lock := 15, seq := 0, hbSeq := 0, seen := [] } } links changed) ∧
    (s.hinge.link = false ∨ s.isolated .hinge = true → exec .hingeTx s = .next s ∧ ∀ l, exec (.frameErr l) s = .next s) ∧
    (s.hinge.link = true → s.isolated .hinge = false →
      (∀ f rest, s.hinge.queue = f :: rest → Ends .hingeTx s
        { s with hinge := { s.hinge with queue := rest, seq := (s.hinge.seq + 1) % 2 ^ 32 } } [] (fun t => s.padsTaken = false →
          t.sent = .hinge s.hinge.seq s.unitB (decide (s.role.mode = .active)) f :: s.sent)) ∧
      (s.hinge.queue = [] → s.hinge.bulk.state ≠ 1 → exec .hingeTx s = .next s) ∧
      (∀ e, s.hinge.queue = [] → s.hinge.bulk.state = 1 → s.bulkNext = some e → e.1 < 16 →
        let a := s.rd2 .hinge (HINGE.BULK_BASE_LO e.1) + e.2.2
        s.poisoned a 1024 = false → Ends .hingeTx s { s with hinge :=
            { (s.bulkSent e (s.rd2 .hinge (HINGE.BULK_LEN_LO e.1))).hinge with seq := (s.hinge.seq + 1) % 2 ^ 32 } } []
          (fun t => s.padsTaken = false → .hinge s.hinge.seq s.unitB (decide (s.role.mode = .active))
            ⟨6, s.hinge.cseq, .bulk e.1 s.hinge.bulk.chunk e.2.2 (s.readMem a 1024)⟩ ∈ t.sent)) ∧
      ∀ lanes : BitVec 4, Ends (.frameErr lanes) s s
        (key .hinge HINGE.FRAME_ERR :: (List.range 4).map (fun n => key .hinge (win n HINGEW.LANE_SYNC_ERR))) (fun t =>
          t.rd .hinge HINGE.FRAME_ERR = oneMore (s.rd .hinge HINGE.FRAME_ERR) ∧
          ∀ n, n < 4 → t.rd .hinge (win n HINGEW.LANE_SYNC_ERR) = if lanes.getLsbD n = true
            then oneMore (s.rd .hinge (win n HINGEW.LANE_SYNC_ERR)) else s.rd .hinge (win n HINGEW.LANE_SYNC_ERR))) ∧
    (s.role.mode = .boot → exec .hingeHbSend s = .next s) ∧
    (s.role.mode ≠ .boot →
      let hb : HBody := .heartbeat s.nowS s.nowNs s.hinge.hbSeq (modeCode s.role.mode) s.role.flags s.macBase (syncCode s.time.sync)
        s.cfgDigest s.role.f s.role.k
      let next := (s.hinge.hbSeq + 1) % 2 ^ 32
      (s.hinge.link = true → s.isolated .hinge = false → Ends .hingeHbSend s
        { s with hinge := { s.hinge with queue := enqueue ⟨1, 0, hb⟩ s.hinge.queue, hbSeq := next } } [] (fun _ => True)) ∧
      (s.hinge.link = false → Ends .hingeHbSend s { s with hinge := { s.hinge with hbSeq := next } } [] (fun _ => True)))

/-- VERDICT, IMAGE, LINES, COMMIT, BULK (R213, R257, R272, R273, R282): outside BOOT a frame that is not whole is counted and discarded;
what a cycle's frames bring is held for the guest and cycle they name, where the unit still listens for that cycle; in RESYNC the lines
of a guest whose state has not come wait for it, and a COMMIT is noted; a bulk chunk of a range stands in DRAM, and one that ends a
guest's state installs it. VERDICT, IMAGE, LINES, COMMIT and BULK complete here. The model's choices in it: log 68, 69. -/
def Obligations.MirrorFrames : Prop :=
  ∀ (s : State) (h : HHead),
    (s.hinge.link = true → s.isolated .hinge = false → h.ok = false → s.role.mode ≠ .boot →
      let drops := fun (i : Instr) => Ends i s s [key .hinge HINGE.FRAME_ERR]
        (fun t => t.rd .hinge HINGE.FRAME_ERR = oneMore (s.rd .hinge HINGE.FRAME_ERR))
      (∀ g cause c sec, drops (.verdict h g cause c sec)) ∧ (∀ g pos index c sec pts, drops (.image h g pos index c sec pts)) ∧
      (∀ g c sec l, drops (.lines h g c sec l)) ∧ (∀ g sync n c sec dig, drops (.commit h g sync n c sec dig)) ∧
      (∀ body last, drops (.bulk h body last)) ∧ (∀ n bulk, drops (.ack h n bulk)) ∧ drops (.resyncReq h) ∧
      (∀ code held, drops (.resyncGo h code held)) ∧ (∀ sec, drops (.enter h sec) ∧ drops (.demote h sec))) ∧
    (s.takes h false = true →
      (∀ g x c sec, s.guest g = some x → s.hears x (sec, c) = true →
        let old := (x.rxOf sec c).getD { s := sec, c := c }
        let holds := fun (i : Instr) (r : MirrorRx) (sync : Option Nat) => ∃ t y, exec i s = .next t ∧ t.guest g = some y ∧
          y.rxOf sec c = some r ∧ y.mirSync = sync ∧ y.st = x.st ∧ sameState { s with guests := t.guests } t ∧ keepsRegs s t []
        (∀ cause, x.pastDeadline (sec, c) = false → holds (.verdict h g cause c sec) { old with verdict := some cause } x.mirSync) ∧
        (∀ cause, x.pastDeadline (sec, c) = true → exec (.verdict h g cause c sec) s = .next s) ∧
        (∀ pos index pts, holds (.image h g pos index c sec pts) { old with
          image := (pts.zip (List.range pts.length)).foldl (fun m e => Tbl.put (inKey pos (index + e.2)) e.1 m) old.image } x.mirSync) ∧
        (∀ l, s.catching g c sec = false → holds (.lines h g c sec l) { old with lines := old.lines ++ l, frames := old.frames + 1 } x.mirSync) ∧
        (∀ sync n dig, s.catching g c sec = false → x.ownDigest = none → holds (.commit h g sync n c sec dig)
          { old with linesDone := old.frames == n, digest := some dig } (some sync))) ∧
      (∀ g, s.guest g = none → s.role.mode ≠ .resync → ∀ cause c sec l sync n dig, exec (.verdict h g cause c sec) s = .next s ∧
        exec (.lines h g c sec l) s = .next s ∧ exec (.commit h g sync n c sec dig) s = .next s) ∧
      (∀ range n ofs data, s.role.mode = .resync → s.hinge.bulk.state = 2 → s.hinge.bulk.held = [] → s.poison = [] →
        range < 16 → ofs % 64 = 0 → ofs + data.length ≤ s.rd2 .hinge (HINGE.BULK_LEN_LO range) → (n + 1) % 64 ≠ 0 →
        let a := s.rd2 .hinge (HINGE.BULK_BASE_LO range) + ofs
        ∃ t, exec (.bulk h (.bulk range n ofs data) false) s = .next t ∧
          t.dram = (List.range (ceilDiv data.length 64)).foldl (fun m k => putBytes m (a + 64 * k) ((data.drop (64 * k)).take 64)) s.dram ∧
          t.hinge.bulk.bytes = s.hinge.bulk.bytes + data.length ∧ t.hinge.bulk.state = 2 ∧ keepsRegs s t [] ∧
          sameState { s with dram := t.dram, hinge := t.hinge } t) ∧
      (s.role.mode = .resync →
        let b := s.hinge.bulk
        let held := fun (k : BulkSt) => { s with hinge := { s.hinge with bulk := k } }
        (∀ g c sec m, Tbl.look g b.guestSeq = none → Ends (.lines h g c sec [m]) s (held { b with early := b.early ++ [(g, h.cseq, m)] }) []
          (fun _ => True)) ∧
        (∀ g sync n c sec dig, s.guest g = none → Tbl.look g b.guestSeq = none → b.state = 2 →
          Ends (.commit h g sync n c sec dig) s (held { b with lastCommit := max b.lastCommit h.cseq }) [] (fun _ => True)) ∧
        (∀ g n ofs, n ≠ 0 → (n + 1) % 64 ≠ 0 → b.state = 2 → Ends (.bulk h (.guestBulk g n ofs none) false) s
          (held { b with bytes := b.bytes + 1024 }) [] (fun _ => True)) ∧
        (∀ g n ofs k, n ≠ 0 → (n + 1) % 64 ≠ 0 → b.state = 2 → b.early = [] →
          ∃ t, exec (.bulk h (.guestBulk g n ofs (some k)) false) s = .next t ∧
            t.guest k.g = some { k.guest with phase := .idle, rx := [] } ∧ Tbl.look k.g t.hinge.bulk.guestSeq = some h.cseq)))

/-- CONTROL frames, ACK, CONTROL_RETRY, ALLOW_WRITE (R12, R244, R268, R274, R281, R287, R289, R293): a CONTROL frame is acknowledged each
time it arrives, where the mode sends the ACK, and acted on once; what it asks waits for its cycle index on a unit that obeys, where
that index has not passed by the order of R12; where it has, the guest is degraded; an acknowledged frame is kept no longer; a retry is
counted and queued again, and after the third the Hinge path is lost; an accepted allowance entry is stored, low word and high word,
where nothing is mirrored. CTL_GUEST_COMMAND, CTL_PATCH_SET, CTL_PUBLICATION_ENTRY, CTL_IMAGE_CHUNK, CTL_ADDRESS_COUNTS,
CTL_ALLOWANCE_ENTRY, ACK, CONTROL_RETRY and ALLOW_WRITE complete here. The model's choices in it: log 46, 68, 75, 137, 138. -/
def Obligations.ControlFrames : Prop :=
  ∀ (s : State) (h : HHead) (seq : Nat),
    (s.takes h false = true →
      let queue := if (HBody.ack seq false).sendable s.role.mode then enqueue ⟨3, 0, .ack seq false⟩ s.hinge.queue else s.hinge.queue
      let acked := { s with hinge := { s.hinge with queue := queue, seen := Tbl.put seq true s.hinge.seen } }
      (Tbl.get false seq s.hinge.seen = true →
        let again := fun (i : Instr) => Ends i s { s with hinge := { s.hinge with queue := queue } } [] (fun _ => True)
        (∀ g op mask exb c sec, again (.ctlGuestCommand h seq g op mask exb c sec)) ∧ (∀ g l tick, again (.ctlPatchSet h seq g l tick)) ∧
        (∀ g index e c sec, again (.ctlPublicationEntry h seq g index e c sec)) ∧ (∀ g ofs b, again (.ctlImageChunk h seq g ofs b)) ∧
        (∀ counts, again (.ctlAddressCounts h seq counts)) ∧ (∀ g lo hi c sec, again (.ctlAllowanceEntry h seq g lo hi c sec))) ∧
      (Tbl.get false seq s.hinge.seen = false →
        let waits := fun (i : Instr) (g c sec : Nat) (b : CtlBody) =>
          (s.role.mode = .resync ∨ (s.follows = true ∧ s.passed (s.classOf ⟨g, c, sec, b⟩) (sec, c) = false) →
            Ends i s { acked with hinge := { acked.hinge with later := s.hinge.later ++ [⟨g, c, sec, b⟩] } } [] (fun _ => True)) ∧
          (s.follows = true → s.passed (s.classOf ⟨g, c, sec, b⟩) (sec, c) = true → ∃ t, exec i s = .next t ∧
            t.guest g = (s.guest g).map (fun x => { x with degraded := true }) ∧ t.role.degraded = true ∧
            t.hinge.later = s.hinge.later ∧ t.hinge.queue = queue) ∧
          (s.obeys = false → Ends i s acked [] (fun _ => True))
        (∀ g op mask exb c sec, waits (.ctlGuestCommand h seq g op mask exb c sec) g c sec (.cmd op mask exb)) ∧
        (∀ g index e c sec, waits (.ctlPublicationEntry h seq g index e c sec) g c sec (.pub index e)) ∧
        (∀ g lo hi c sec, waits (.ctlAllowanceEntry h seq g lo hi c sec) g c sec (.allow lo hi)) ∧
        (∀ g x l tick, s.guest g = some x → s.role.mode = .resync ∨
            (s.follows = true ∧ cycLt (cycleAt x.img.n (s.classTick x.img.n)) (cycleAt x.img.n tick) = true) →
          Ends (.ctlPatchSet h seq g l tick) s
            { acked with patchPend := Tbl.put x.exb ⟨g, l, some tick, 0, l.length⟩ s.patchPend } [] (fun _ => True)) ∧
        (∀ g ofs b, s.obeys = true → Ends (.ctlImageChunk h seq g ofs b) s { acked with hinge := { acked.hinge with
          img := Tbl.put g (Tbl.get [] g s.hinge.img ++ [(ofs, b)]) s.hinge.img } } [] (fun _ => True)) ∧
        (∀ counts, s.role.mode = .active → s.role.isolated = true → s.unitB = false → Ends (.ctlAddressCounts h seq counts) s
          { acked with role := { s.role with merge := some (some counts) } } [] (fun _ => True)) ∧
        (∀ counts, s.role.mode ≠ .active → Ends (.ctlAddressCounts h seq counts) s acked [] (fun _ => True))) ∧
      Ends (.ack h seq false) s { s with hinge := { s.hinge with wait := s.hinge.wait.filter (fun w => w.seq != seq) } } []
        (fun _ => True) ∧
      (s.hinge.bulk.state = 1 → s.hinge.bulk.todo = [] → seq + 1 = s.hinge.bulk.chunk → Ends (.ack h seq true) s
        { s with hinge := { s.hinge with bulk := { s.hinge.bulk with state := 4 } } } [key .hinge HDR.IRQ_STS]
        (fun t => bit (t.rd .hinge HDR.IRQ_STS) 20 = true))) ∧
    (s.hinge.wait.find? (fun w => w.seq == seq) = none → exec (.controlRetry seq) s = .next s) ∧
    (∀ w, s.hinge.wait.find? (fun w => w.seq == seq) = some w → w.tries < 4 →
      let sends := s.hinge.link && !s.isolated .hinge && w.frame.body.sendable s.role.mode
      Ends (.controlRetry seq) s { s with hinge := { s.hinge with
        wait := s.hinge.wait.map (fun x => if x.seq == seq then { x with tries := x.tries + 1 } else x),
        queue := if sends then enqueue ⟨w.frame.prio, w.frame.cseq, w.frame.body⟩ s.hinge.queue else s.hinge.queue } }
        [key .hinge HINGE.CTL_RETRY] (fun t => t.rd .hinge HINGE.CTL_RETRY = oneMore (s.rd .hinge HINGE.CTL_RETRY))) ∧
    (∀ w, s.hinge.wait.find? (fun w => w.seq == seq) = some w → 4 ≤ w.tries → s.role.hbUp = true → s.role.mode = .hotStandby →
      s.role.netUp = true → Ends (.controlRetry seq) s { s with
        role := { s.role with
          hbUp := false, hbGood := 0, hingeLost := true, judge := some ⟨slotAfter (!s.unitB) (s.role.lastHb + 4000), false⟩ },
        hinge := { s.hinge with wait := [] } }
        [key .role ROLE.HINGE_LOSSES, key .hinge HINGE.HB_LOSSES, key .role HDR.IRQ_STS] (fun t =>
          t.rd .role ROLE.HINGE_LOSSES = oneMore (s.rd .role ROLE.HINGE_LOSSES) ∧
          t.rd .hinge HINGE.HB_LOSSES = oneMore (s.rd .hinge HINGE.HB_LOSSES) ∧ bit (t.rd .role HDR.IRQ_STS) 17 = true)) ∧
    (∀ src g w flds, allowHeld g = true → s.accepts src .hinge (HINGE.ALLOW_HI g) w → s.mirrored = false →
      regFields .hinge (HINGE.ALLOW_HI g) = some flds → Ends (.allowWrite src g w) s s
        [key .hinge (HINGE.ALLOW_LO g), key .hinge (HINGE.ALLOW_HI g)]
        (fun t => t.rd .hinge (HINGE.ALLOW_HI g) = stored flds (s.rd .hinge (HINGE.ALLOW_HI g)) w ∧
          t.rd .hinge (HINGE.ALLOW_LO g) = stored ((regFields .hinge (HINGE.ALLOW_LO g)).getD []) (s.rd .hinge (HINGE.ALLOW_LO g))
            (Tbl.get (s.rd .hinge (HINGE.ALLOW_LO g)) (key .hinge (HINGE.ALLOW_LO g)) s.shadow)))

/-! ### Roles and modes -/

/-- Heartbeats and roles (R257, R259, R262, R264 to R266, R269, R280, R281, R283, R286, R291): in CONFIGURE what a heartbeat reports is
taken; outside BOOT one with the own UNIT sets PAIR_CONFLICT; a miss counts, and the fourth loses the path; slots of the network count in
the same way; a judgement ends with the flags it names; the active answers a request of RESYNC and starts its copy; the answer moves the
asking unit to RESYNC with the guests the active holds, or sets the time of its next request; ENTER and DEMOTE set the second at which
the role moves; the commands of ROLE_CMD ask and announce; the publication hold ends 500 ms after the entry and the partner's latest
publication. HEARTBEAT, HB_MISS, NET_SLOT_END, JUDGE_DEADLINE, RESYNC_REQ, RESYNC_GO, ENTER, DEMOTE, RESYNC_RETRY, ROLE_CMD_RESYNC,
ROLE_CMD_DEMOTE and PUB_HOLD_END complete here. The model's choices in it: log 3, 47, 70, 71, 73, 74, 139, 140. -/
def Obligations.HeartbeatsAndRoles : Prop :=
  ∀ (s : State) (h : HHead),
    let role := fun (r : RoleSt) => { s with role := r }
    (∀ b, s.takes h true = true → s.role.mode = .configure → (s.role.hbUp = true ∨ s.role.hbGood + 1 < 100) →
      Ends (.heartbeat h b) s (role { s.role with
        hbGood := s.role.hbGood + 1, hbMiss := 0, lastHb := b.time, partnerDigest := b.digest, partnerF := b.phaseF,
        partnerSeen := true, partnerMode := modeOf b.mode }) [] (fun _ => True)) ∧
    (∀ b, s.hinge.link = true → s.isolated .hinge = false → h.ok = true → h.unitB = s.unitB → s.role.mode ≠ .boot → Ends (.heartbeat h b) s s
      [key .hinge HINGE.FRAME_ERR, key .role ROLE.ROLE_STS, key .role HDR.IRQ_STS] (fun t =>
        t.pairConflict = true ∧ t.rd .hinge HINGE.FRAME_ERR = oneMore (s.rd .hinge HINGE.FRAME_ERR) ∧ bit (t.rd .role HDR.IRQ_STS) 21 = true)) ∧
    (s.role.hbMiss < 3 → Ends .hbMiss s (role { s.role with hbMiss := s.role.hbMiss + 1, hbGood := 0 }) [] (fun _ => True)) ∧
    (3 ≤ s.role.hbMiss → s.role.hbUp = true → s.role.mode = .configure → Ends .hbMiss s { s with
      role := { s.role with hbMiss := s.role.hbMiss + 1, hbGood := 0, hbUp := false, hingeLost := true },
      hinge := { s.hinge with wait := [] } }
      [key .role ROLE.HINGE_LOSSES, key .hinge HINGE.HB_LOSSES, key .role HDR.IRQ_STS]
      (fun t => bit (t.rd .role HDR.IRQ_STS) 17 = true ∧ t.rd .role ROLE.HINGE_LOSSES = oneMore (s.rd .role ROLE.HINGE_LOSSES) ∧
        t.rd .hinge HINGE.HB_LOSSES = oneMore (s.rd .hinge HINGE.HB_LOSSES))) ∧
    (let n := if s.role.slotSeen then 0 else s.role.netMiss + 1
     (n < s.rdf .hinge HINGE.NET_CFG 19 16 →
        Ends .netSlotEnd s (role { s.role with netMiss := n, slotSeen := false }) [] (fun _ => True)) ∧
      (s.rdf .hinge HINGE.NET_CFG 19 16 ≤ n → s.role.netUp = true → s.role.mode = .active → s.role.hingeFailed = false →
        ∃ t, exec .netSlotEnd s = .next t ∧ t.role = { s.role with netMiss := n, slotSeen := false, netUp := false, netLost := true })) ∧
    (s.role.judge = none → exec .judgeDeadline s = .next s) ∧
    (∀ j, s.role.judge = some j → s.role.mode = .hotStandby → j.alive = true → ∃ t, exec .judgeDeadline s = .next t ∧
      t.role = { s.role with judge := none, unmirrored := true }) ∧
    (∀ j, s.role.judge = some j → s.role.mode = .active → j.alive = false → ∃ t, exec .judgeDeadline s = .next t ∧
      t.role = { s.role with judge := none, hingeFailed := true, isolated := true }) ∧
    (s.takes h false = true →
      let sends := fun (b : HBody) => enqueue ⟨3, 0, b⟩ s.hinge.queue
      let todo := ((List.range 16).filter (fun k => decide (0 < s.rd2 .hinge (HINGE.BULK_LEN_LO k)))).map (fun k => (k, 0, 0)) ++
        s.loaded.map (fun g => (16, g, 0))
      (s.role.mode ≠ .active → exec (.resyncReq h) s = .next s) ∧
      (s.role.mode = .active → s.cfgDigest ≠ s.role.partnerDigest → Ends (.resyncReq h) s
        { s with hinge := { s.hinge with queue := sends (.role 2 E_CFGDIFF 0) } } [] (fun _ => True)) ∧
      (s.role.mode = .active → s.cfgDigest = s.role.partnerDigest → s.allMirrorOk = true → s.role.demote = none → s.role.judge = none →
        let answered := fun (n : Nat) => { s with
          hinge := { s.hinge with queue := sends (.role 2 0 0), bulk := { state := n, todo := todo } },
          role := { s.role with hingeFailed := false } }
        (todo ≠ [] → Ends (.resyncReq h) s (answered 1) [] (fun _ => True)) ∧
        (todo = [] → Ends (.resyncReq h) s (answered 4) [key .hinge HDR.IRQ_STS] (fun t => bit (t.rd .hinge HDR.IRQ_STS) 20 = true))) ∧
      (s.role.mode ≠ .coldStandby ∨ s.role.resyncAsked = false → ∀ code held, exec (.resyncGo h code held) s = .next s) ∧
      (∀ code held, s.role.mode = .coldStandby → s.role.resyncAsked = true →
        let none := held = [] ∧ ∀ k, k < 16 → s.rd2 .hinge (HINGE.BULK_LEN_LO k) = 0
        (code ≠ 0 → Ends (.resyncGo h code held) s (role { s.role with
          rsCode := code, resyncAsked := false,
          retryAt := if bit (s.rd .role ROLE.ROLE_CTL) 0 then some (s.time.elapsed + secU) else .none }) [] (fun _ => True)) ∧
        (code = 0 → ∃ t, exec (.resyncGo h code held) s = .next t ∧ t.role.mode = .resync ∧ t.role.rsCode = 0 ∧
          t.role.resyncAsked = false ∧ (∀ g, t.guest g = if g ∈ held then s.guest g else .none) ∧ t.hinge.later = [] ∧
          (none → t.hinge.bulk.state = 3 ∧ t.role.enterAsked = true) ∧ (¬ none → t.hinge.bulk.state = 2))) ∧
      (∀ sec, (s.role.mode = .active → Ends (.enter h sec) s
          { s with role := { s.role with enterAt := some s.enterTime }, hinge := { s.hinge with queue := sends (.role 3 0 s.enterTime) } } [] (fun _ => True)) ∧
        (s.role.mode = .resync → s.role.enterAsked = true →
          Ends (.enter h sec) s (role { s.role with enterAt := some sec }) [] (fun _ => True)) ∧
        (s.role.mode = .hotStandby → Ends (.demote h sec) s (role { s.role with demote := some sec }) [] (fun _ => True)) ∧
        (s.role.mode ≠ .hotStandby → exec (.demote h sec) s = .next s))) ∧
    (let asks := s.role.mode = .coldStandby ∧ s.partner = some .active ∧ s.hingePath = true ∧ s.hinge.link = true ∧
        s.isolated .hinge = false
      let due := s.role.retryAt.any (fun t => decide (t ≤ s.time.elapsed))
      let auto := bit (s.rd .role ROLE.ROLE_CTL) 0
      let asked := { s with
        role := { s.role with retryAt := some (s.time.elapsed + secU), resyncAsked := true, enterAsked := false, pwRunning := false },
        hinge := { s.hinge with queue := enqueue ⟨3, 0, .role 1 0 0⟩ s.hinge.queue } }
     (asks → due = true → auto = true → Ends .resyncRetry s asked [] (fun _ => True)) ∧
      (s.role.mode = .coldStandby → due = true → auto = false → s.role.enterAsked = false →
        Ends .resyncRetry s (role { s.role with retryAt := none, resyncAsked := false }) [] (fun _ => True)) ∧
      (s.role.mode ≠ .coldStandby ∨ due = false → exec .resyncRetry s = .next s) ∧
      (∀ src, s.accepts src .role ROLE.ROLE_CMD 1 → asks → Ends (.roleCmdResync src) s asked [] (fun _ => True)) ∧
      (∀ src, s.accepts src .role ROLE.ROLE_CMD 1 → s.partner ≠ some .active ∨ s.hingePath = false →
        Ends (.roleCmdResync src) s (role { s.role with enterAsked := true, retryAt := none }) [] (fun _ => True))) ∧
    (∀ src, s.accepts src .role ROLE.ROLE_CMD 2 → s.hinge.link = true → s.isolated .hinge = false → Ends (.roleCmdDemote src) s { s with
      role := { s.role with demote := some (s.topAfter 1000000) },
      hinge := { s.hinge with queue := enqueue ⟨3, 0, .role 4 0 (s.topAfter 1000000)⟩ s.hinge.queue } }
      [] (fun _ => True)) ∧
    (s.role.holdFrom = none → exec .pubHoldEnd s = .next s) ∧
    (∀ a b, s.role.holdFrom = some a → s.role.lastPubRx = some b →
      s.time.elapsed < a + 500000000 * nsU ∨ s.time.elapsed < b + 500000000 * nsU → exec .pubHoldEnd s = .next s) ∧
    (∀ a, s.role.holdFrom = some a → a + 500000000 * nsU ≤ s.time.elapsed →
      (∀ b, s.role.lastPubRx = some b → b + 500000000 * nsU ≤ s.time.elapsed) → Ends .pubHoldEnd s { s with
      role := { s.role with holdFrom := none },
      pubs := s.pubs.map (fun e => if e.2.entry.typ = 0 then (e.1, { e.2 with force := true }) else e) } [] (fun _ => True))

/-- MODE_CMD, MODE_DONE, PW_EXPIRY (R294 to R301, R305, R306): an accepted command is in progress until it ends; it ends with E_MODE and
no change where the mode does not take it, with the code of what stands against it, and otherwise in the mode it names. PARTNER_WAIT ends
where it has run out, and chooses ACTIVE where no partner is there and the unit may run alone; before that nothing happens.
MODE_CMD_RUN, MODE_CMD_CONFIGURE, MODE_CMD_TEST, MODE_CMD_END_TEST, MODE_CMD_GO_ACTIVE, MODE_CMD_SAFE, MODE_CMD_COLD, MODE_DONE and
PW_EXPIRY complete here. The model's choices in it: log 64, 72. -/
def Obligations.ModeCommands : Prop :=
  ∀ s : State,
    let regs := [key .chip CHIP.MODE_RESULT]
    let placing := s.gcmds.any (fun e => e.2.op == 1 || e.2.op == 7)
    let starts := fun (i : Instr) (src : Src) (op force : Nat) =>
      s.accepts src .chip CHIP.MODE_CMD (BitVec.ofNat 32 (256 * force + op)) →
      Ends i s { s with role := { s.role with modeJob := some (op, b2n placing) } } regs
        (fun t => t.rd .chip CHIP.MODE_RESULT = BitVec.ofNat 32 (2 ^ 31 + op * 65536))
    (∀ src, starts (.modeCmdRun src) src 1 0 ∧ starts (.modeCmdConfigure src) src 2 0 ∧ starts (.modeCmdTest src) src 3 0 ∧
      starts (.modeCmdEndTest src) src 4 0 ∧ starts (.modeCmdGoActive src) src 5 0 ∧ starts (.modeCmdSafe src) src 6 0 ∧
      starts (.modeCmdCold src) src 7 1) ∧
    (s.role.modeJob = none → exec .modeDone s = .next s) ∧
    (∀ op busy, s.role.modeJob = some (op, busy) →
      let m := s.role.mode
      let shows := fun (c : Nat) (t : State) => t.rd .chip CHIP.MODE_RESULT = BitVec.ofNat 32 (op * 65536 + c) ∧
        bit (t.rd .chip HDR.IRQ_STS) 17 = true ∧ t.role.modeJob = none
      let refused := (op = 1 ∧ m ≠ .configure) ∨ (op = 2 ∧ m ≠ .coldStandby ∧ m ≠ .test) ∨
        (op = 3 ∧ m ≠ .configure ∧ m ≠ .coldStandby) ∨ (op = 4 ∧ m ≠ .test) ∨ (op = 5 ∧ m ≠ .coldStandby) ∨ (op = 6 ∧ m = .boot) ∨
        (op = 7 ∧ m ≠ .active)
      let into := fun (n : Mode) => ∃ t, exec .modeDone s = .next t ∧ t.role.mode = n ∧ shows 0 t
      (refused → Ends .modeDone s { s with role := { s.role with modeJob := none } }
        [key .chip CHIP.MODE_RESULT, key .chip HDR.IRQ_STS] (shows E_MODE)) ∧
      let stays := fun (c : Nat) => Ends .modeDone s { s with role := { s.role with modeJob := none } }
        [key .chip CHIP.MODE_RESULT, key .chip HDR.IRQ_STS] (shows c)
      let load := bit (s.rd .chip CHIP.CHIP_CTL) 1
      (op = 1 → m = .configure →
        (busy = 1 → stays E_BUSY) ∧ (busy ≠ 1 → load = false → into .coldStandby) ∧
        (busy ≠ 1 → load = true → s.guests ≠ [] → stays E_CONFLICT) ∧
        (busy ≠ 1 → load = true → s.guests = [] → s.restore = none → stays E_NOCKPT) ∧
        (busy ≠ 1 → load = true → s.guests = [] → s.restore.isSome = true → into .coldStandby)) ∧
      (op = 2 → m = .coldStandby ∨ m = .test → ∃ t, exec .modeDone s = .next t ∧ t.role.mode = .configure ∧ t.guests = [] ∧
        shows 0 t) ∧
      (op = 3 → m = .configure ∨ m = .coldStandby → into .test) ∧
      (op = 5 → m = .coldStandby → s.partnerRuns = false → into .active) ∧
      (op = 4 → m = .test → into .coldStandby) ∧ (op = 7 → m = .active → into .coldStandby) ∧
      (op = 5 → m = .coldStandby → s.partnerRuns = true → stays E_PARTNER) ∧
      (op = 6 → m ≠ .boot → into .safe)) ∧
    (s.role.mode ≠ .coldStandby ∨ s.role.pwRunning = false ∨ s.time.elapsed < s.role.pwEnd → exec .pwExpiry s = .next s) ∧
    (s.role.mode = .coldStandby → s.role.pwRunning = true → s.role.pwEnd ≤ s.time.elapsed →
      s.pairConflict = true ∨ s.partner = some .hotStandby ∨ s.partner = some .resync ∨
        (s.partner = none ∧ bit (s.rd .chip CHIP.CHIP_CTL) 0 = false) →
      Ends .pwExpiry s { s with role := { s.role with pwRunning := false } } [] (fun _ => True)) ∧
    (s.role.mode = .coldStandby → s.role.pwRunning = true → s.role.pwEnd ≤ s.time.elapsed → s.pairConflict = false → s.partner = none →
      bit (s.rd .chip CHIP.CHIP_CTL) 0 = true →
      Ends .pwExpiry s { s with role := { s.role with pwRunning := false, activeAt := some (s.topAfter 1000000) } } [] (fun _ => True))

/-! ### Clocks, resets, supplies, the debug port and the TAP -/

/-- Chip resets, reset release and the end of boot (R302, R304, R307, R308, R310, R459 to R462, R464, R468, R470, R482): a chip reset leaves
every register at its reset value but RST_CAUSE, which gains its cause, and RST_COUNT, which counts it; the flash survives and the TAP
keeps its instruction, save at power-on; a monitor or a port out of service resets nothing. Reset release samples UNIT_SEL and the fuses
and starts the boot. Where a slot can be used the boot ends in CONFIGURE at STAGE 6, with DRAM all zeros and the flash as it was where
the slot tried first has no writes; where none can, or a fuse cannot be read, BOOT stays at STAGE 7 with the code. POWER_ON, PORST,
ROOT_PLL_LOCK_LOSS, DEBUG_RESET_REQ, THERMAL_TRIP, RAIL_BELOW_RESET, RST_GO, RESET_RELEASE, BOOT_DONE and BOOT_FAIL complete here. The
model's choices in it: log 4, 11, 12, 76, 77, 78, 121, 148, 149. -/
def Obligations.ChipResets : Prop :=
  ∀ s : State,
    let after := { State.reset with
      pending := s.pending, flash := s.flash, dram := s.dram, poison := s.poison, freeCtr := s.freeCtr, sent := s.sent }
    let resets := fun (i : Instr) (cause : Word) => ∃ t, exec i s = .next t ∧
      t = { after with tap := s.tap, padsTaken := s.padsTaken, regs := t.regs } ∧ t.rd .clkrst CLKRST.RST_CAUSE = cause ∧
      t.rd .clkrst CLKRST.RST_COUNT = BitVec.ofNat 32 (min 0xFFFF ((s.rd .clkrst CLKRST.RST_COUNT).toNat + 1)) ∧
      ∀ p o, key p o ≠ key .clkrst CLKRST.RST_CAUSE → key p o ≠ key .clkrst CLKRST.RST_COUNT → t.rd p o = resetWord (key p o)
    let was := s.rd .clkrst CLKRST.RST_CAUSE
    exec .powerOn s = .next after ∧ resets .porst (setBit was 1 true) ∧
    (bit (s.rd .clkrst CLKRST.CLK_STS) 2 = false → resets .rootPllLockLoss (setBit was 3 true)) ∧
    (bit (s.rd .clkrst CLKRST.CLK_STS) 2 = true → exec .rootPllLockLoss s = .next s) ∧
    (s.working .debug = true → bit (s.rd .debug DEBUG.DBG_STS) 0 = true → resets .debugResetReq (setBit was 5 true)) ∧
    (s.working .debug = false ∨ bit (s.rd .debug DEBUG.DBG_STS) 0 = false → exec .debugResetReq s = .next s) ∧
    (∀ code : BitVec 10, (s.working .pwrmon = true → s.rdf .pwrmon PWRMON.TEMP_STS 25 16 ≤ code.toNat →
        resets (.thermalTrip code) (setBit was 6 true)) ∧
      (s.working .pwrmon = false ∨ code.toNat < s.rdf .pwrmon PWRMON.TEMP_STS 25 16 → exec (.thermalTrip code) s = .next s)) ∧
    (∀ (c : Fin 9) (mv : BitVec 12), (s.watches c.val = true → mv.toNat < s.rail c.val PWRMONW.RAIL_RST →
        resets (.railBelowReset c mv) (setBits (setBit was 2 true) 19 16 c.val)) ∧
      (s.watches c.val = false ∨ s.rail c.val PWRMONW.RAIL_RST ≤ mv.toNat → exec (.railBelowReset c mv) s = .next s)) ∧
    (∀ src, s.accepts src .clkrst CLKRST.RST_GO 1 → resets (.rstGo src) (setBit was 4 true)) ∧
    (∀ unitB slots, (s.clk.released = true → exec (.resetRelease unitB slots) s = .next s) ∧
      (s.clk.released = false → Ends (.resetRelease unitB slots) s
        { s.bootSlots slots with clk := { s.clk with released := true, releasedAt := s.time.elapsed }, unitB := unitB }
        ([key .clkrst CLKRST.CLK_STS, key .fuse FUSE.FUSE_STS, key .fuse FUSE.DSN_LO, key .fuse (FUSE.DSN_LO + 4), key .fuse FUSE.FUSE_IDS] ++
          (List.range 12).map (fun k => key .fuse (FUSE.KEYHASH k)))
        (fun t => bit (t.rd .clkrst CLKRST.CLK_STS) 1 = true ∧ t.rd .fuse FUSE.FUSE_STS = BitVec.ofNat 32
            (b2n Config.debugDisable * 8 + b2n (decide (Config.bootKeyHash ≠ 0)) * 4 + b2n (decide (Config.prodRoot ≠ 0)) * 2 + 1) ∧
          t.rd2 .fuse FUSE.DSN_LO = Config.serial.toNat ∧
          t.rd .fuse FUSE.FUSE_IDS = BitVec.ofNat 32 (Config.mfrId.toNat * 65536 + Config.vendor.toNat) ∧
          ∀ k, k < 12 → t.rd .fuse (FUSE.KEYHASH k) = BitVec.ofNat 32 (Config.bootKeyHash.toNat / 2 ^ (32 * k))))) ∧
    (∀ trained trained2,
      let x := s.bootTries trained trained2
      (s.booting = false → (∀ fuse, exec (.bootFail trained trained2 fuse) s = .next s) ∧
        ∀ log2, exec (.bootDone trained trained2 log2) s = .next s) ∧
      (s.booting = true → Ends (.bootFail trained trained2 true) s s [key .boot BOOT.BOOT_STS, key .fuse FUSE.FUSE_STS] (fun t =>
        t.rdf .boot BOOT.BOOT_STS 31 28 = 7 ∧ t.rdf .boot BOOT.BOOT_STS 7 0 = E_BOOTFAULT ∧ bit (t.rd .fuse FUSE.FUSE_STS) 4 = true)) ∧
      (s.booting = true → x.2.2.code = 0 → exec (.bootFail trained trained2 false) s = .next s ∧
        ∀ log2, (∃ t, exec (.bootDone trained trained2 log2) s = .next t ∧ t.role.mode = .configure ∧
            t.rdf .boot BOOT.BOOT_STS 31 28 = 6 ∧ t.rdf .boot BOOT.BOOT_STS 24 24 = x.1 ∧
            t.rd .boot BOOT.BOOT_WRITES = BitVec.ofNat 32 x.2.2.count) ∧
          (x.2.1.isNone = true → bootWrites (s.bootImage x.1) = [] → ∃ t, exec (.bootDone trained trained2 log2) s = .next t ∧
            t.dram = [] ∧ t.poison = [] ∧ t.flash = s.flash)) ∧
      (s.booting = true → x.2.2.code ≠ 0 → (∀ log2, exec (.bootDone trained trained2 log2) s = .next s) ∧
        ∃ t, exec (.bootFail trained trained2 false) s = .next t ∧ t.rdf .boot BOOT.BOOT_STS 31 28 = 7 ∧
          t.rdf .boot BOOT.BOOT_STS 7 0 = x.2.2.code ∧ t.rd .boot BOOT.BOOT_WRITES = BitVec.ofNat 32 x.2.2.count))

/-- The reference, the SerDes PLLs and the supplies (R455, R457, R458, R467 to R470, R474): a failed reference is shown, counted and
recorded, comes back after 10 ms without it, and is recorded again once its phase error has settled; the loss of a SerDes PLL's lock is
shown and counted, and while PLL 0 is out of lock no port and no Hinge link is up; a supply warning begins with the first rail below
warning, and ends 100 µs after the last rail was; a sensor's reading joins the hottest. A monitor out of service sees nothing. REF_FAIL,
REF_RETURN, REF_FAIL_CLEAR, SD_PLL_LOCK_LOSS, SD_PLL_LOCK, RAIL_BELOW_WARN, RAIL_ABOVE_WARN, PWR_WARN_CLEAR and TEMP_WARN complete here.
The model's choices in it: log 3, 108, 109, 114. -/
def Obligations.ClocksAndSupplies : Prop :=
  ∀ s : State,
    let sts := s.rd .clkrst CLKRST.CLK_STS
    let note := fun (failed : Nat) (ms : Nat) =>
      (s.emit .clkrst 0x0C2 0 ([BitVec.ofNat 8 failed, 0, 0, 0] ++ leBytes 4 (min 0xFFFF_FFFF ms))).ledger
    let irq := key .clkrst HDR.IRQ_STS
    (∀ edges, (bit sts 3 = true → exec (.refFail edges) s = .next s) ∧
      (bit sts 3 = false → Ends (.refFail edges) s
        { s with clk := { s.clk with refSince := s.time.elapsed, holdMs := 0 }, ledger := note 1 0 }
        [key .clkrst CLKRST.CLK_STS, key .clkrst CLKRST.REF_LOSSES, irq] (fun t =>
          t.rdf .clkrst CLKRST.CLK_STS 3 2 = 3 ∧ bit (t.rd .clkrst CLKRST.CLK_STS) 1 = edges ∧
          t.rd .clkrst CLKRST.REF_LOSSES = oneMore (s.rd .clkrst CLKRST.REF_LOSSES) ∧ bit (t.rd .clkrst HDR.IRQ_STS) 16 = true))) ∧
    let away := s.clk.refSince + 10000000 * nsU
    (bit sts 3 = false ∨ s.time.elapsed < away → exec .refReturn s = .next s) ∧
    (bit sts 3 = true → away ≤ s.time.elapsed → Ends .refReturn s
      { s with clk := { s.clk with holdMs := (s.time.elapsed - s.clk.refSince) / (1000000 * nsU) } } [key .clkrst CLKRST.CLK_STS]
      (fun t => bit (t.rd .clkrst CLKRST.CLK_STS) 3 = false ∧ bit (t.rd .clkrst CLKRST.CLK_STS) 2 = bit sts 2)) ∧
    (bits sts 3 2 = 1 → Ends .refFailClear s { s with ledger := note 0 s.clk.holdMs } [key .clkrst CLKRST.CLK_STS, irq]
      (fun t => t.rdf .clkrst CLKRST.CLK_STS 3 2 = 0 ∧ bit (t.rd .clkrst HDR.IRQ_STS) 16 = true)) ∧
    (bits sts 3 2 ≠ 1 → exec .refFailClear s = .next s) ∧
    (∀ n : Fin 2, let pll := win (1 + n.val) CLKRSTW.PLL_STS
      let losses := win (1 + n.val) CLKRSTW.LOCK_LOSSES
      (bit sts (4 + n.val) = false → exec (.sdPllLockLoss n) s = .next s ∧ ∃ t, exec (.sdPllLock n) s = .next t ∧
        bit (t.rd .clkrst CLKRST.CLK_STS) (4 + n.val) = true ∧ t.rd .clkrst pll = 1 ∧ bit (t.rd .clkrst HDR.IRQ_STS) 17 = true) ∧
      (bit sts (4 + n.val) = true → exec (.sdPllLock n) s = .next s ∧ ∃ t, exec (.sdPllLockLoss n) s = .next t ∧
        bit (t.rd .clkrst CLKRST.CLK_STS) (4 + n.val) = false ∧ t.rd .clkrst pll = 0 ∧
        t.rd .clkrst losses = oneMore (s.rd .clkrst losses) ∧
        (n.val = 0 → (∀ p, p < 5 → t.linkOf p = false) ∧ t.hinge.link = false))) ∧
    (∀ (c : Fin 9) (mv low : BitVec 12),
      (s.watches c.val = false → exec (.railBelowWarn c mv low) s = .next s ∧ exec (.railAboveWarn c mv low) s = .next s) ∧
      (s.watches c.val = true → s.railBelow c.val = false → mv.toNat < s.rail c.val PWRMONW.RAIL_WARN → s.pwrWarn = false →
        ∃ t, exec (.railBelowWarn c mv low) s = .next t ∧ t.railBelow c.val = true ∧ t.pwrWarn = true ∧
          t.rd .pwrmon PWRMON.DIPS = oneMore (s.rd .pwrmon PWRMON.DIPS) ∧ bit (t.rd .pwrmon HDR.IRQ_STS) 16 = true ∧
          t.clk = { s.clk with dipped := 2 ^ c.val, minRail := c.val, minMv := min mv.toNat low.toNat, dipAt := s.time.elapsed }) ∧
      (s.railBelow c.val = true ∨ s.rail c.val PWRMONW.RAIL_WARN ≤ mv.toNat → exec (.railBelowWarn c mv low) s = .next s) ∧
      (s.watches c.val = true → s.railBelow c.val = true → s.rail c.val PWRMONW.RAIL_WARN + s.rail c.val PWRMONW.RAIL_HYST ≤ mv.toNat →
        ∃ t, exec (.railAboveWarn c mv low) s = .next t ∧ t.railBelow c.val = false ∧ t.pwrWarn = s.pwrWarn ∧
          (∀ d, d < 9 → d ≠ c.val → t.railBelow d = s.railBelow d) ∧
          t.rd .pwrmon (win c.val PWRMONW.RAIL_MEAS) = BitVec.ofNat 32 mv.toNat ∧
          (bits (t.rd .pwrmon PWRMON.PWR_STS) 8 0 = 0 → bit (t.rd .pwrmon PWRMON.PWR_STS) 9 = true ∧ t.clk.recAt = s.time.elapsed)) ∧
      (s.railBelow c.val = false → exec (.railAboveWarn c mv low) s = .next s)) ∧
    let clear := s.clk.recAt + 100 * usU
    (s.working .pwrmon = true → s.pwrWarn = true → bits (s.rd .pwrmon PWRMON.PWR_STS) 8 0 = 0 → clear ≤ s.time.elapsed → ∃ t, exec .pwrWarnClear s = .next t ∧ t.pwrWarn = false ∧
      bit (t.rd .pwrmon HDR.IRQ_STS) 17 = true ∧ t.clk = { s.clk with dipped := 0 }) ∧
    (s.working .pwrmon = false ∨ s.pwrWarn = false ∨ bits (s.rd .pwrmon PWRMON.PWR_STS) 8 0 ≠ 0 ∨ s.time.elapsed < clear →
      exec .pwrWarnClear s = .next s) ∧
    (∀ (source : BitVec 16) (code : BitVec 10),
      let temps := Tbl.set 0 (source.toNat / 16) (code.toNat % 1024) s.clk.temps
      let hottest := fun (t : State) => t.clk = { s.clk with temps := temps } ∧
        t.rdf .pwrmon PWRMON.TEMP_STS 9 0 = temps.foldl (fun a e => max a e.2) 0 % 1024
      (s.working .pwrmon = false → exec (.tempWarn source code) s = .next s) ∧
      (s.working .pwrmon = true → (s.rd .pwrmon PWRMON.TEMP_CFG).toNat < code.toNat → ∃ t, exec (.tempWarn source code) s = .next t ∧
        hottest t ∧ bit (t.rd .pwrmon HDR.IRQ_STS) 18 = true) ∧
      (s.working .pwrmon = true → code.toNat ≤ (s.rd .pwrmon PWRMON.TEMP_CFG).toNat → Ends (.tempWarn source code) s
        { s with clk := { s.clk with temps := temps } } [key .pwrmon PWRMON.TEMP_STS] hottest))

/-- The TAP and the debug port (R27, R46, R310, R354, R490, R494): an instruction is loaded, and one that takes the pads holds them, so
that nothing is sent, until Test-Logic-Reset; a failed unlock is counted, the first that succeeds opens the port and empties the key
slots; one on a DEBUG out of service loads its instruction and does nothing else; an accepted LOCKOUT is set. BYPASS, IDCODE,
SAMPLE_PRELOAD, EXTEST, EXTEST_PULSE, EXTEST_TRAIN, CLAMP, HIGHZ, TAP_RESET, DEBUG_UNLOCK and DBG_LOCKOUT complete here. The model's
choices in it: log 8, 118, 121. -/
def Obligations.TapAndDebug : Prop :=
  ∀ s : State,
    let loads := fun (i : Instr) (tap : Tap) => exec i s = .next { s with tap := tap }
    let takes := fun (i : Instr) (tap : Tap) => exec i s = .next { s with tap := tap, padsTaken := true }
    (s.padsTaken = false → loads .bypass .bypass ∧ loads .idcode .idcode ∧ loads .samplePreload .samplePreload) ∧
    (s.padsTaken = true → takes .bypass .bypass ∧ takes .idcode .idcode ∧ takes .samplePreload .samplePreload ∧ ∀ e, s.out e = s) ∧
    takes .extest .extest ∧ takes .extestPulse .extestPulse ∧ takes .extestTrain .extestTrain ∧ takes .clamp .clamp ∧
    takes .highz .highz ∧ exec .tapReset s = .next { s with tap := .idcode, padsTaken := false } ∧
    (∀ ok, s.working .debug = false → exec (.debugUnlock ok) s = .next { s with tap := .debug }) ∧
    (∀ ok, s.working .debug = true → Config.debugDisable = true ∨ bit (s.rd .debug DEBUG.DBG_CTL) 0 = true ∨ ok = false →
      Ends (.debugUnlock ok) s { s with tap := .debug } [key .debug DEBUG.DBG_STS, key .debug HDR.IRQ_STS] (fun t =>
        t.rdf .debug DEBUG.DBG_STS 31 16 = min 0xFFFF (s.rdf .debug DEBUG.DBG_STS 31 16 + 1) ∧
        bit (t.rd .debug DEBUG.DBG_STS) 0 = bit (s.rd .debug DEBUG.DBG_STS) 0 ∧ bit (t.rd .debug HDR.IRQ_STS) 17 = true)) ∧
    (s.working .debug = true → bit (s.rd .debug DEBUG.DBG_CTL) 0 = false → ∃ t, exec (.debugUnlock true) s = .next t ∧ t.tap = .debug ∧
      (Config.debugDisable = false → bit (t.rd .debug DEBUG.DBG_STS) 0 = true ∧
        (bit (s.rd .debug DEBUG.DBG_STS) 0 = false → t.keyring.slots = [] ∧ bit (t.rd .debug HDR.IRQ_STS) 16 = true))) ∧
    (∀ src, s.accepts src .debug DEBUG.DBG_CTL 1 → Ends (.dbgLockout src) s s [key .debug DEBUG.DBG_CTL]
      (fun t => bit (t.rd .debug DEBUG.DBG_CTL) 0 = true))

/-! ### Guest functions and the Courier -/

/-- Queues and segments (R313, R319 to R321, R323, R325, R326, R329, R334): an accepted PI is stored; setting EN makes CI equal PI and
discards what was posted; a share takes its fields, and a round in progress keeps the old WEIGHT. A free engine of a COURIER in service
takes the next segment of the one queue that has one ready: of its started descriptor, or of its next one, which completes with its code
and DONE_LEN 0 where a check of R320 fails. A segment that ends has moved its bytes, and the last one of a descriptor leads to its
completion; one of a queue that was reset or restarted moves what had been issued. A host fault stops the queue, at a fetch, in a
segment or at the write of a completion, which is then held. A round ends once no queue can have a segment ready. SQ_PI_WRITE, SQ_EN,
Q_SHARE_WRITE, SEGMENT_START, SEGMENT_DONE and HOST_FAULT complete here. The model's choices in it: log 4, 79, 80, 81, 83. -/
def Obligations.CourierQueues : Prop :=
  ∀ (s : State) (q : Fin 256),
    let p := qPage q.val
    let x := s.queue q.val
    let at_ := fun (o : Nat) => key p (qOfs q.val o)
    let only := fun (t : State) (y : QueueSt) => t.queue q.val = y ∧ ∀ k, k ≠ q.val → t.queue k = s.queue k
    let round := fun (t : State) (y : QueueSt) =>
      let old := fun (k : Nat) => if k = q.val then y else s.queue k
      let goes := (List.range 256).any (fun k => t.posted k)
      ∀ k, t.queue k = if goes then old k else { old k with used := 0, weight := 0 }
    let size := s.qSize q.val
    let i := x.fetch % size
    let entry := fun (d : Desc) (index done code : Nat) => Emission.hostWrite q.val (s.rd2 p (qOfs q.val GQ.CQ_BASE_LO) + 16 * index)
      (leBytes 4 d.tag ++ leBytes 4 done ++ leBytes 1 code ++ leBytes 1 (b2n x.phase) ++ leBytes 2 index ++ [0, 0, 0, 0])
    (∀ src w, s.accepts src p (qOfs q.val GQ.SQ_PI) w → Ends (.sqPiWrite src q w) s s [at_ GQ.SQ_PI]
      (fun t => t.rdf p (qOfs q.val GQ.SQ_PI) 11 0 = bits w 11 0)) ∧
    (∀ src (log2 : BitVec 4), s.accepts src p (qOfs q.val GQ.SQ_CFG) (BitVec.ofNat 32 (2 ^ 16 + log2.toNat)) →
      (s.qEn q.val = true → Ends (.sqEn src q log2) s s [at_ GQ.SQ_CFG] (fun _ => True)) ∧
      (s.qEn q.val = false → Tbl.sortedAbove none s.courier.engines = true → ∃ t, exec (.sqEn src q log2) s = .next t ∧ keepsRegs s t [at_ GQ.SQ_CFG, at_ GQ.SQ_CI] ∧
        sameState { s with courier := t.courier, freeCtr := t.freeCtr } t ∧ t.qEn q.val = true ∧ t.qSize q.val = 2 ^ log2.toNat ∧
        t.qrd q.val GQ.SQ_CI = s.qrd q.val GQ.SQ_PI ∧
        only t { x with runs := [], fetch := s.qrd q.val GQ.SQ_PI, phase := true, stopped := false, cut := false } ∧
        ∀ e, (Tbl.look e t.courier.engines).map (fun g => { g with issued := false }) = (Tbl.look e s.courier.engines).map
          (fun g => { g with dropped := g.dropped || decide (g.queue = q.val), issued := false }))) ∧
    (∀ src w, s.accepts src .courier (COURIER.Q_SHARE q.val) w → ∃ t, exec (.qShareWrite src q w) s = .next t ∧
      keepsRegs s t [key .courier (COURIER.Q_SHARE q.val)] ∧ sameState { s with courier := t.courier } t ∧
      t.courier = { s.courier with queues := t.courier.queues } ∧ t.weight q.val = bits w 4 0 ∧ t.limit q.val = bits w 27 16 ∧
      only t { x with weight := if x.weight = 0 ∧ s.inRound = true then s.weight q.val else x.weight }) ∧
    (∀ (e : Fin 8) (l : List (Nat × BitVec 256)), s.courierOn = true → s.quarantined .courier e.val = false →
      Tbl.look e.val s.courier.engines = none → s.ready q.val (fetchedAt l q.val) = true →
      (∀ k, k < 256 → k ≠ q.val → s.ready k (fetchedAt l k) = false) → x.used < s.roundWeight q.val →
      let runs := fun (t : State) (g : Segment) => Tbl.look e.val t.courier.engines = some g ∧
        (∀ k, k ≠ e.val → Tbl.look k t.courier.engines = Tbl.look k s.courier.engines) ∧
        t.courier = { s.courier with queues := t.courier.queues, engines := t.courier.engines } ∧
        sameState { s with courier := t.courier } t ∧ keepsRegs s t []
      (∀ r, x.runs.find? DescRun.more = some r → ∃ t, exec (.segmentStart e l) s = .next t ∧
        runs t ⟨q.val, r.index, r.desc.op, r.desc.host + r.next, r.base + r.next, segLen r.desc r.next, false, false⟩ ∧
        round t { x with used := x.used + 1, runs := x.runs.map (fun y => if y.index = r.index then
          { y with next := y.next + segLen r.desc r.next, open_ := y.open_ + 1 } else y) }) ∧
      (∀ d, x.runs = [] → fetchedAt l q.val = some d → s.hostUp = true →
        (s.descCode q.val d = 0 → ∃ t, exec (.segmentStart e l) s = .next t ∧
          runs t ⟨q.val, i, d.op, d.host, s.descBase q.val d, segLen d 0, false, false⟩ ∧
          round t { x with runs := [⟨d, i, s.descBase q.val d, segLen d 0, 1, 0, 0⟩], fetch := (i + 1) % size, used := x.used + 1 }) ∧
        (s.descCode q.val d ≠ 0 → x.cut = false → ∃ t, exec (.segmentStart e l) s = .next t ∧ t.courier.engines = s.courier.engines ∧
          round t { x with fetch := (i + 1) % size, phase := if (i + 1) % size = 0 then !x.phase else x.phase } ∧
          t.qrd q.val GQ.SQ_CI = (i + 1) % size ∧ (s.padsTaken = false → entry d i 0 (s.descCode q.val d) ∈ t.sent) ∧
          t.rd p (qOfs q.val GQ.Q_DONE) = oneMore (s.rd p (qOfs q.val GQ.Q_DONE)) ∧
          t.rd p (qOfs q.val GQ.Q_ERRS) = oneMore (s.rd p (qOfs q.val GQ.Q_ERRS)) ∧
          keepsRegs s t [at_ GQ.SQ_CI, at_ GQ.Q_DONE, at_ GQ.Q_ERRS, key p HDR.IRQ_STS] ∧ sameState { s with courier := t.courier } t))) ∧
    (∀ (e : Fin 8) (g : Segment) (data : List Byte) (left : Bool), Tbl.look e.val s.courier.engines = some g → g.queue = q.val →
      g.addr + g.len ≤ dramSize → (g.op = 1 → g.len ≤ data.length) →
      let ends := fun (t : State) => Tbl.look e.val t.courier.engines = none ∧
        (∀ k, k ≠ e.val → Tbl.look k t.courier.engines = Tbl.look k s.courier.engines) ∧
        sameState { s with dram := t.dram, courier := t.courier } t
      let moves := fun (t : State) => ends t ∧ t.rd .courier COURIER.SEGMENTS = oneMore (s.rd .courier COURIER.SEGMENTS) ∧
        (∀ a, t.byte a = if g.op = 1 ∧ g.addr ≤ a ∧ a < g.addr + g.len then data.getD (a - g.addr) 0 else s.byte a) ∧
        (g.op ≠ 1 → s.padsTaken = false → Emission.hostWrite q.val g.host (s.readMem g.addr g.len) ∈ t.sent)
      let counts := [key .courier (win e.val COURIERW.ENG_QUEUE), key .courier (win e.val COURIERW.ENG_SEGS),
        key .courier COURIER.SEGMENTS, key .courier COURIER.BYTES_H2D, key .courier COURIER.BYTES_D2H]
      (g.dropped = true → s.poison = [] → ∃ t, exec (.segmentDone e data left) s = .next t ∧ ends t ∧
        (∀ a, t.byte a = if g.op = 1 ∧ g.issued = true ∧ g.addr ≤ a ∧ a < g.addr + g.len then data.getD (a - g.addr) 0 else s.byte a) ∧
        (g.op ≠ 1 → left = true → s.padsTaken = false → Emission.hostWrite q.val g.host (s.readMem g.addr g.len) ∈ t.sent) ∧
        only t x ∧ keepsRegs s t [key .courier (win e.val COURIERW.ENG_QUEUE)]) ∧
      (g.dropped = false → bit (s.rd .courier HDR.PAGE_CTL) 0 = false → exec (.segmentDone e data left) s = .next s) ∧
      (g.dropped = false → bit (s.rd .courier HDR.PAGE_CTL) 0 = true → s.hostUp = true → s.poison = [] → ∀ r, x.runs = [r] → r.index = g.index → r.code = 0 →
        (r.next < r.desc.len → ∃ t, exec (.segmentDone e data left) s = .next t ∧ moves t ∧ keepsRegs s t counts ∧
          round t { x with runs := [{ r with open_ := r.open_ - 1, done := r.done + g.len }] }) ∧
        (r.next = r.desc.len → r.open_ = 1 → s.isolated .courier = false → x.resetting = false → x.cut = false →
          let nxt := (r.index + 1) % size
          ∃ t, exec (.segmentDone e data left) s = .next t ∧ moves t ∧
            round t { x with runs := [], phase := if nxt = 0 then !x.phase else x.phase } ∧ t.qrd q.val GQ.SQ_CI = nxt ∧
            (s.padsTaken = false → entry r.desc r.index (r.done + g.len) 0 ∈ t.sent) ∧
            keepsRegs s t ([at_ GQ.SQ_CI, at_ GQ.Q_DONE, key p HDR.IRQ_STS] ++ counts)))) ∧
    (∀ cause data,
      let faults := [key .hostif HOSTIF.POISON_RX, key .hostif HOSTIF.CPL_TIMEOUTS, key .courier COURIER.HOSTFAULTS,
        key .courier HDR.IRQ_STS, key p HDR.IRQ_STS]
      let shows := fun (t : State) => t.rd .courier COURIER.HOSTFAULTS = oneMore (s.rd .courier COURIER.HOSTFAULTS) ∧
        bit (t.rd .courier HDR.IRQ_STS) 16 = true ∧ sameState { s with courier := t.courier } t ∧
        t.rd .hostif HOSTIF.POISON_RX = (if cause = 1 then oneMore (s.rd .hostif HOSTIF.POISON_RX) else s.rd .hostif HOSTIF.POISON_RX) ∧
        t.rd .hostif HOSTIF.CPL_TIMEOUTS =
          (if cause = 2 then oneMore (s.rd .hostif HOSTIF.CPL_TIMEOUTS) else s.rd .hostif HOSTIF.CPL_TIMEOUTS)
      (s.mayStart q.val (some (courierDesc 0)) = true → ∃ t, exec (.hostFault .fetch q.val cause data) s = .next t ∧ shows t ∧
        only t { x with stopped := true } ∧ keepsRegs s t faults) ∧
      (∀ (e : Fin 8) (g : Segment) r, Tbl.look e.val s.courier.engines = some g → g.queue = q.val → g.dropped = false →
        x.runs = [r] → r.index = g.index → 1 < r.open_ → ∃ t, exec (.hostFault .segment e.val cause data) s = .next t ∧ shows t ∧
          round t { x with stopped := true, runs := [{ r with open_ := r.open_ - 1, code := if r.code = 0 then E_HOSTFAULT else r.code }] } ∧
          Tbl.look e.val t.courier.engines = none ∧ keepsRegs s t (key .courier (win e.val COURIERW.ENG_QUEUE) :: faults)) ∧
      (∀ d, d = courierDesc (BitVec.ofNat 256 (ofLe (data.take 32))) →
        s.mayStart q.val (some d) = true → s.descCode q.val d ≠ 0 → x.runs = [] → s.isolated .courier = false → x.cut = false →
        ∃ t, exec (.hostFault .check q.val cause data) s = .next t ∧ shows t ∧ keepsRegs s t faults ∧
          only t { x with
            runs := [⟨d, i, s.descBase q.val d, 0, 0, 0, s.descCode q.val d⟩], fetch := (i + 1) % size, stopped := true, cut := true }) ∧
      (∀ (e : Fin 8) (g : Segment) r, Tbl.look e.val s.courier.engines = some g → g.queue = q.val → g.dropped = false →
        bit (s.rd .courier HDR.PAGE_CTL) 0 = true → s.isolated .courier = false → s.poison = [] → g.addr + g.len ≤ dramSize →
        g.op = 2 → x.runs = [r] → r.index = g.index → r.code = 0 → r.next = r.desc.len → r.open_ = 1 → x.cut = false →
        ∃ t, exec (.hostFault (.completion 0) e.val cause data) s = .next t ∧
          only t { x with runs := [{ r with open_ := 0, done := r.done + g.len }], stopped := true, cut := true } ∧
          Tbl.look e.val t.courier.engines = none ∧ bit (t.rd .courier HDR.IRQ_STS) 16 = true ∧ t.dram = s.dram))

/-- Functions (R313, R323, R328 to R330, R333, R335, R443, R444, R455, R463): a function reset, whatever asks for it, discards the
function's started descriptors and ends, once nothing of the function is left in an engine, with its queue and pages at their reset
values and a kept record. VF enable, bus master enable, D3hot and the link are as the event says; the link comes up on a locked PLL alone.
STR_SEL and LV_SEL copy what they select. FLR, G_FRESET, FN_RESET, FN_RESET_DONE, VF_ENABLE_SET, VF_ENABLE_CLEAR, BUS_MASTER_ENABLE_CHG,
D3HOT_TRANSITION, PCIE_LINK_UP, PCIE_LINK_DOWN, PCIE_RESET, STR_SEL and LV_SEL complete here. The model's choices in it: log 81, 83, 84,
110. -/
def Obligations.FunctionsAndPages : Prop :=
  ∀ (s : State) (g : Fin 256),
    let x := s.queue g.val
    let resets := fun (i : Instr) (n cause : Nat) (ks : List Nat) => (s.queue n).resetting = false → Tbl.sortedAbove none s.courier.engines = true →
      ∃ t d, exec i s = .next t ∧ ((s.queue n).runs = [] → d = 0) ∧
      (∀ k, let y := if k = n then { s.queue n with resetting := true, cause := cause, dropped := d, runs := [] } else s.queue k
        t.queue k = if (List.range 256).any (fun j => t.posted j) then y else { y with used := 0, weight := 0 }) ∧
      (∀ e, (Tbl.look e t.courier.engines).map (fun y => { y with issued := false }) = (Tbl.look e s.courier.engines).map
        (fun y => { y with dropped := y.dropped || decide (y.queue = n), issued := false })) ∧
      t.courier = { s.courier with queues := t.courier.queues, engines := t.courier.engines } ∧
      sameState { s with courier := t.courier, freeCtr := t.freeCtr } t ∧ keepsRegs s t ks
    resets (.flr g) g.val 0 [] ∧ (x.resetting = true → exec (.flr g) s = .next s) ∧
    (s.accepts (.fn g.val) (.guest g.val 0) GCTL.G_CTL 1 → resets (.gFreset g) g.val 1 []) ∧
    (∀ src, s.accepts src .hostif HOSTIF.FN_RESET 1 → resets (.fnReset src) s.fnSel 2 []) ∧
    (x.resetting = false ∨ s.fence g.val ≠ 0 → exec (.fnResetDone g) s = .next s) ∧
    (x.resetting = true → s.fence g.val = 0 → ∃ t, exec (.fnResetDone g) s = .next t ∧ t.queue g.val = {} ∧
      (∀ k, k ≠ g.val → t.queue k = s.queue k) ∧
      t.fnOf g.val = { s.fnOf g.val with resets := min 0xFFFF ((s.fnOf g.val).resets + 1) } ∧
      t.rd .courier COURIER.FN_RESETS = oneMore (s.rd .courier COURIER.FN_RESETS) ∧ bit (t.rd .hostif HDR.IRQ_STS) 16 = true ∧
      t.ledger = (s.emitAt .courier 0 0x042 g.val (leBytes 1 x.cause ++ [0, 0, 0] ++ leBytes 4 x.dropped)).ledger ∧
      t.courier.engines = s.courier.engines ∧ t.dram = s.dram ∧ t.guests = s.guests ∧
      (g.val = 0 → (∀ o, 0x140 ≤ o → o < 0x16C → t.rd .courier o = resetWord (key .courier o)) ∧
        ∀ k, ¬ (key .courier 0x140 ≤ k ∧ k < key .courier 0x16C) → k ∉ [key .courier COURIER.FN_RESETS, key .hostif HDR.IRQ_STS] →
          Tbl.get 0 k t.regs = Tbl.get 0 k s.regs) ∧
      (g.val ≠ 0 → bit (t.rd (.guest g.val 0) HDR.IRQ_STS) 18 = true ∧
        (∀ p o, p < 4 → o < 0x1000 → (p, o) ≠ (0, HDR.IRQ_STS) → t.rd (.guest g.val p) o = resetWord (key (.guest g.val p) o)) ∧
        ∀ k, ¬ (Page.base (.guest g.val 0) ≤ k ∧ k < Page.base (.guest g.val 0) + 0x4000) →
          k ∉ [key .courier COURIER.FN_RESETS, key .hostif HDR.IRQ_STS] → Tbl.get 0 k t.regs = Tbl.get 0 k s.regs)) ∧
    exec .vfEnableSet s = .next { s with courier := { s.courier with vfEnable := true } } ∧
    (∃ t, exec .vfEnableClear s = .next t ∧ t.courier.vfEnable = false ∧
      { t.queue 0 with used := 0, weight := 0 } = { s.queue 0 with used := 0, weight := 0 } ∧
      (∀ n, 1 ≤ n → n ≤ 255 → (t.queue n).resetting = true ∧ ((s.queue n).resetting = false → (t.queue n).cause = 3)) ∧
      t.courier.fns = s.courier.fns ∧ sameState { s with courier := t.courier, freeCtr := t.freeCtr } t ∧ keepsRegs s t []) ∧
    (∀ b, (∃ t, exec (.busMasterEnableChg g b) s = .next t ∧ t.fnOf g.val = { s.fnOf g.val with bme := b } ∧
        (∀ k, k ≠ g.val → t.fnOf k = s.fnOf k) ∧ t = { s with courier := { s.courier with fns := t.courier.fns } }) ∧
      ∃ t, exec (.d3hotTransition g b) s = .next t ∧ t.fnOf g.val = { s.fnOf g.val with d3 := b } ∧
        (∀ k, k ≠ g.val → t.fnOf k = s.fnOf k) ∧ t = { s with courier := { s.courier with fns := t.courier.fns } }) ∧
    (∀ speed width, s.sdLocked 1 = false → exec (.pcieLinkUp speed width) s = .next s) ∧
    (∀ speed width, s.sdLocked 1 = true → Ends (.pcieLinkUp speed width) s s [key .hostif HOSTIF.HI_LINK] (fun t => bit (t.rd .hostif HOSTIF.HI_LINK) 0 = true ∧
      t.rdf .hostif HOSTIF.HI_LINK 10 8 = speed.val + 1 ∧ t.rdf .hostif HOSTIF.HI_LINK 19 16 = 2 ^ width.val)) ∧
    (s.courier.engines = [] → Ends .pcieLinkDown s s [key .hostif HOSTIF.HI_LINK] (fun t => t.rd .hostif HOSTIF.HI_LINK = 0)) ∧
    (∃ t, exec .pcieReset s = .next t ∧ t.rd .hostif HOSTIF.HI_LINK = 0 ∧ t.courier.vfEnable = false ∧ t.msixMask = [] ∧
      (∀ n, n < 256 → (t.queue n).resetting = true) ∧ (∀ n, (t.fnOf n).bme = false ∧ (t.fnOf n).d3 = false) ∧
      t.dram = s.dram ∧ t.guests = s.guests ∧ keepsRegs s t [key .hostif HOSTIF.HI_LINK]) ∧
    (∀ (pub : Bool) (index : BitVec 16), s.accepts (.fn g.val) (.guest g.val 1) GSTR.STR_SEL (BitVec.ofNat 32 (b2n pub * 2 ^ 16 + index.toNat)) →
      let page : Page := .guest g.val 1
      let copies := fun (sts d0 d1 d2 d3 : Nat) => Ends (.strSel g pub index) s s
        [key page GSTR.STR_SEL, key page GSTR.STR_STS, key page GSTR.STR_D0, key page GSTR.STR_D1, key page GSTR.STR_D2, key page GSTR.STR_D3]
        (fun t => t.rd page GSTR.STR_SEL = BitVec.ofNat 32 (b2n pub * 2 ^ 16 + index.toNat) ∧ t.rd page GSTR.STR_STS = BitVec.ofNat 32 sts ∧ t.rd page GSTR.STR_D0 = BitVec.ofNat 32 d0 ∧
          t.rd page GSTR.STR_D1 = BitVec.ofNat 32 d1 ∧ t.rd page GSTR.STR_D2 = BitVec.ofNat 32 d2 ∧ t.rd page GSTR.STR_D3 = BitVec.ofNat 32 d3)
      (∀ u, pub = true → s.pubOf index.toNat = some u → copies (2 ^ 31) u.count (u.count / 2 ^ 32) u.stNum u.sqNum) ∧
      (∀ c, pub = false → Tbl.look index.toNat s.porter.ctxs = some c →
        copies (2 ^ 31 + (s.actx index.toNat).state * 2 ^ 16) c.st.rxOk (c.st.rxOk / 2 ^ 32) c.st.authFail
          (min 0xFFFF_FFFF (c.st.authLate + c.st.lateDrop)))) ∧
    (∀ seq : BitVec 64,
      let page : Page := .guest g.val 3
      let lo := BitVec.ofNat 32 seq.toNat
      let hi := BitVec.ofNat 32 (seq.toNat / 2 ^ 32)
      let regs := [key page GLV.LV_SEL_LO, key page GLV.LV_SEL_HI, key page GLV.LV_STS]
      s.accepts (.fn g.val) page GLV.LV_SEL_LO lo →
      ({ s with shadow := Tbl.put (key page GLV.LV_SEL_LO) lo s.shadow } : State).accepts (.fn g.val) page GLV.LV_SEL_HI hi →
      (∀ c, s.lvFind g.val seq.toNat = (c, none) → Ends (.lvSel g seq) s s regs (fun t => t.rd page GLV.LV_SEL_LO = lo ∧ t.rd page GLV.LV_SEL_HI = hi ∧
        t.rdf page GLV.LV_STS 23 16 = c)) ∧
      (∀ c e, s.lvFind g.val seq.toNat = (c, some e) → s.poisoned (s.ringBase + e.ofs) e.len = false →
        Ends (.lvSel g seq) s s (regs ++ (List.range 64).map (fun k => key page (GLV.LV_DATA k))) (fun t =>
          t.rd page GLV.LV_SEL_LO = lo ∧ t.rd page GLV.LV_SEL_HI = hi ∧ t.rd page GLV.LV_STS = BitVec.ofNat 32 (2 ^ 31 + e.len) ∧
          ∀ k, k < 64 → t.rd page (GLV.LV_DATA k) = BitVec.ofNat 32 (ofLe (((s.readMem (s.ringBase + e.ofs) e.len).drop (4 * k)).take 4)))))

/-! ### Keyring -/

/-- Keyring (R341 to R346, R348 to R352, R358, R364): an accepted command runs with the arguments that its registers hold; when it ends
KR_RESULT says how. One that fails a check of R344 leaves the slots as they are. A created slot holds its attributes and label and the
key that its operation makes; a revocation marks the slot and all that descend from it, and the verifications and the token check that
run with such a key; an erasure empties the slot; a commit takes the persistent slots, takes the flash once its command comes first,
and ends with its code after the read-back or at a failure. PLAIN_LOCK sticks; a re-mask changes no key; a failed entropy test is shown
and recorded. GENERATE, DERIVE, IMPORT, KR_LOAD, REVOKE, ERASE, KR_COMMIT, KR_CMD_DONE, KR_COMMIT_WRITE, KR_COMMIT_DONE, PLAIN_LOCK,
REMASK and ENTROPY_FAIL complete here. The model's choices in it: log 7, 86, 88, 89, 115. -/
def Obligations.Keyring : Prop :=
  ∀ s : State,
    let k := s.keyring
    let arg0 := (s.rd .keyring KEYRING.KR_ARG0).toNat
    let job := fun (op : Nat) => (⟨op, arg0 % 2 ^ 9, arg0 / 2 ^ 16 % 2 ^ 9, (s.rd .keyring KEYRING.KR_ARG1).toNat,
      (s.rd .keyring KEYRING.KR_ARG2).toNat, s.krData⟩ : KJob)
    let hit := fun (j : KJob) (i : Nat) => (k.slots.map Prod.fst).contains i && s.descends j.slot i
    let starts := fun (i : Instr) (src : Src) (op : Nat) => s.accepts src .keyring KEYRING.KR_CMD (BitVec.ofNat 32 op) →
      Ends i s { s with keyring := { k with job := some (job op) } } [key .keyring KEYRING.KR_RESULT]
        (fun t => t.rd .keyring KEYRING.KR_RESULT = BitVec.ofNat 32 (2 ^ 31 + 2 ^ 16 * (job op).slot + 256 * op))
    (∀ src, starts (.generate src) src 1 ∧ starts (.derive src) src 2 ∧ starts (.importKey src) src 3 ∧ starts (.krLoad src) src 4 ∧
      starts (.revoke src) src 5 ∧ starts (.erase src) src 6 ∧ starts (.krCommit src) src 7) ∧
    (k.job = none → exec .krCmdDone s = .next s) ∧
    (∀ j, k.job = some j → j.op < 8 → j.slot < 512 →
      let ends := fun (code : Nat) (t : State) => t.keyring.job = none ∧ t.keyring.data = [] ∧
        t.rd .keyring KEYRING.KR_RESULT = BitVec.ofNat 32 (2 ^ 16 * j.slot + 256 * j.op + code) ∧ bit (t.rd .keyring HDR.IRQ_STS) 16 = true
      let counts := [key .keyring (win 0 KEYRINGW.ENG_OPS), key .keyring KEYRING.KR_RESULT, key .keyring HDR.IRQ_STS,
        key .keyring KEYRING.CMDS_OK]
      let seqs := [key .keyring KEYRING.KR_SEQ_LO, key .keyring (KEYRING.KR_SEQ_LO + 4), key .keyring KEYRING.KR_RES_SEQ_LO,
        key .keyring (KEYRING.KR_RES_SEQ_LO + 4), key .keyring KEYRING.KR_STS]
      let seq := s.rd2 .keyring KEYRING.KR_SEQ_LO + 1
      let point := fun (t : State) => t.rd2 .keyring KEYRING.KR_SEQ_LO = seq % 2 ^ 64 ∧
        t.rd2 .keyring KEYRING.KR_RES_SEQ_LO = seq % 2 ^ 64 ∧ t.rd .keyring KEYRING.CMDS_OK = oneMore (s.rd .keyring KEYRING.CMDS_OK) ∧
        keepsRegs s t (counts ++ seqs) ∧ ends 0 t ∧
        sameState { s with keyring := t.keyring, porter := t.porter, ledger := t.ledger, freeCtr := t.freeCtr } t
      (∀ c, s.krCheck j = some c → Ends .krCmdDone s { s with keyring := { k with job := none, data := [] } }
        [key .keyring (win 0 KEYRINGW.ENG_OPS), key .keyring KEYRING.KR_RESULT, key .keyring HDR.IRQ_STS, key .keyring KEYRING.CMDS_REFUSED]
        (fun t => ends c t ∧ t.rd .keyring KEYRING.CMDS_REFUSED = oneMore (s.rd .keyring KEYRING.CMDS_REFUSED))) ∧
      (s.krCheck j = none → 1 ≤ j.op → j.op ≤ 4 → ∃ t n, exec .krCmdDone s = .next t ∧ point t ∧
        Tbl.look j.slot t.keyring.slots = some n ∧ (∀ m, m ≠ j.slot → Tbl.look m t.keyring.slots = Tbl.look m k.slots) ∧
        n.label = j.label ∧ n.attr % 2 ^ 8 = 1 + 2 * j.use + 32 * b2n j.persist + 128 * b2n j.long ∧
        (j.parent < 512 → n.parent = j.parent ∧ n.owner = j.owner) ∧ n.revoked = false ∧
        (j.op = 1 → n.key = leBytes j.size (Config.random s.freeCtr).toNat) ∧
        (j.op = 2 → ∀ p, s.kslot j.parent = some p → (hkdf p.key (s.kdfInfo j (p.depth + 1)) j.size).length = j.size →
          n.key = hkdf p.key (s.kdfInfo j (p.depth + 1)) j.size) ∧
        (j.op = 3 → ∀ v, s.importKey j = some v → v.length = j.size → n.key = v) ∧
        (j.op = 4 → j.size ≤ j.data.length → n.key = j.data.take j.size)) ∧
      (s.krCheck j = none → j.op = 5 → ∀ n, Tbl.look j.slot k.slots = some n → n.revoked = false → ∃ t, exec .krCmdDone s = .next t ∧
        point t ∧ t.freeCtr = s.freeCtr ∧
        t.porter.jobs = s.porter.jobs.map (fun v => if v.engine.isSome && hit j v.slot then { v with revoked := true } else v) ∧
        t.ledger.clr = s.ledger.clr.map (fun c => if c.engine.isSome && hit j (leAt c.token 6 2) then { c with revoked := true } else c) ∧
        ∀ i, Tbl.look i t.keyring.slots =
          (Tbl.look i k.slots).map (fun m => if s.descends j.slot i then { m with attr := m.attr ||| 0x40 } else m)) ∧
      (s.krCheck j = none → j.op = 6 → ∃ t, exec .krCmdDone s = .next t ∧ point t ∧
        t.porter = s.porter ∧ t.freeCtr = s.freeCtr ∧ ∀ i, Tbl.look i t.keyring.slots = if i = j.slot then none else Tbl.look i k.slots) ∧
      (s.krCheck j = none → j.op = 7 → ∃ t, exec .krCmdDone s = .next t ∧ t.keyring.slots = k.slots ∧ ends 0 t ∧
        t.keyring.commit = some ⟨k.slots.filter (fun e => e.2.persist), none, 1⟩ ∧ t.flashRun = s.flashOwner ∧ t.rdf .keyring KEYRING.KR_STORE_STS 31 28 = 1 ∧
        bit (t.rd .keyring KEYRING.KR_STS) 3 = false ∧ keepsRegs s t (key .keyring KEYRING.KR_STORE_STS :: (counts ++ seqs)))) ∧
    (k.commit = none → exec .krCommitWrite s = .next s ∧ ∀ ok, exec (.krCommitDone ok) s = .next s) ∧
    (∀ c, k.commit = some c → c.target.isSome = true ∨ s.pwrWarn = true ∨ s.flashOwner ≠ some .keys ∨ s.working .flash = false →
      exec .krCommitWrite s = .next s) ∧
    (∀ c, k.commit = some c → c.target = none → s.pwrWarn = false → s.flashOwner = some .keys → s.working .flash = true → ∃ t copy seq, exec .krCommitWrite s = .next t ∧
      (copy, seq) = (match s.storeBest with | some (b, n, _) => (1 - b, n + 1) | none => (0, 1)) ∧
      t.keyring = { k with commit := some { c with target := some (copy, seq, s.storeKey), step := 3 } } ∧
      (∀ a, t.fbyte a = if storeOfs copy ≤ a ∧ a < storeOfs copy + 0x1_0000 then 0xFF else s.fbyte a) ∧
      t.rdf .keyring KEYRING.KR_STORE_STS 31 28 = 2 ∧ keepsRegs s t [key .keyring KEYRING.KR_STORE_STS] ∧
      sameState { s with keyring := t.keyring, flash := t.flash } t) ∧
    (∀ snap copy seq name step ok, k.commit = some ⟨snap, some (copy, seq, name), step⟩ →
      let regs := [key .keyring KEYRING.KR_STORE_STS, key .keyring HDR.IRQ_STS]
      let note := fun (blobs code : Nat) =>
        (s.emit .keyring 0x061 0 (leBytes 1 code ++ leBytes 1 copy ++ leBytes 2 blobs ++ [0, 0, 0, 0] ++ leBytes 8 seq)).ledger
      (ok = false ∨ s.flashSize = 0 → Ends (.krCommitDone ok) s
        { s with keyring := { k with commit := none }, ledger := note snap.length E_STORE } regs (fun t =>
          t.rdf .keyring KEYRING.KR_STORE_STS 31 28 = 4 ∧ t.rdf .keyring KEYRING.KR_STORE_STS 23 16 = E_STORE ∧
          bit (t.rd .keyring HDR.IRQ_STS) 18 = true)) ∧
      (ok = true → s.flashSize ≠ 0 → (step ≠ 6 ∨ s.working .flash = false → exec (.krCommitDone ok) s = .next s) ∧
        (step = 6 → s.working .flash = true → s.storeGood copy name = false → Ends (.krCommitDone ok) s
          { s with keyring := { k with commit := none }, ledger := note snap.length E_STORE } regs (fun t =>
            t.rdf .keyring KEYRING.KR_STORE_STS 31 28 = 4 ∧ t.rdf .keyring KEYRING.KR_STORE_STS 23 16 = E_STORE ∧
            bit (t.rd .keyring HDR.IRQ_STS) 18 = true)) ∧
        (step = 6 → s.working .flash = true → s.storeGood copy name = true → Ends (.krCommitDone ok) s
          { s with keyring := { k with commit := none }, ledger := note snap.length 0 }
          (regs ++ [key .keyring KEYRING.KR_STORE_SEQ_LO, key .keyring (KEYRING.KR_STORE_SEQ_LO + 4)]) (fun t =>
            t.rdf .keyring KEYRING.KR_STORE_STS 31 28 = 3 ∧ t.rdf .keyring KEYRING.KR_STORE_STS 23 16 = 0 ∧
            t.rdf .keyring KEYRING.KR_STORE_STS 24 24 = copy % 2 ∧ t.rdf .keyring KEYRING.KR_STORE_STS 9 0 = snap.length % 1024 ∧
            t.rd2 .keyring KEYRING.KR_STORE_SEQ_LO = seq % 2 ^ 64 ∧ bit (t.rd .keyring HDR.IRQ_STS) 17 = true)))) ∧
    (∀ src, s.accepts src .keyring KEYRING.KR_CTL (s.rd .keyring KEYRING.KR_CTL ||| 0x100) →
      Ends (.plainLock src) s s [key .keyring KEYRING.KR_CTL] (fun t => bit (t.rd .keyring KEYRING.KR_CTL) 8 = true ∧
        t.rdf .keyring KEYRING.KR_CTL 6 0 = s.rdf .keyring KEYRING.KR_CTL 6 0)) ∧
    (bit (s.rd .keyring KEYRING.KR_STS) 2 = true → exec .remask s = .next s) ∧
    (bit (s.rd .keyring KEYRING.KR_STS) 2 = false → ∃ t, exec .remask s = .next t ∧
      (∀ i, (Tbl.look i t.keyring.slots).map (fun n => (n.attr, n.label, n.key)) =
        (Tbl.look i k.slots).map (fun n => (n.attr, n.label, n.key))) ∧
      t.rd .keyring KEYRING.REMASKS = BitVec.ofNat 32 (min 0xFFFF_FFFF ((s.rd .keyring KEYRING.REMASKS).toNat + k.slots.length)) ∧
      sameState { s with keyring := { k with slots := t.keyring.slots }, freeCtr := s.freeCtr + k.slots.length } t ∧
      keepsRegs s t [key .keyring KEYRING.REMASKS, key .keyring (win 1 KEYRINGW.ENG_OPS)]) ∧
    (∀ test, Ends (.entropyFail test) s { s with ledger := (s.emit .keyring 0x064 0 (leBytes 1 test)).ledger }
      [key .keyring KEYRING.KR_STS, key .keyring HDR.IRQ_STS] (fun t =>
        t.rdf .keyring KEYRING.KR_STS 2 1 = 3 ∧ bit (t.rd .keyring HDR.IRQ_STS) 19 = true))

/-! ### Ledger, histograms and check values -/

/-- The Ledger (R335, R365, R367, R369, R376, R378 to R382, R387): a writer that may run starts with an EPOCH record; it writes the
next record into the ring under the next sequence number, byte for byte, before the head passes it; LG_SEL copies one record; GO
checks the token's fields and sends its tag job to the HMAC pool, and the check ends with its code, an accepted clear removing what its
scope names. A sample joins its cell's histogram where LEDGER_CTL lets it, which a selection latches and a metric's setting clears.
LEDGER_WRITER_START, LEDGER_WRITE, LG_CFG_WRITE, LG_SEL, LG_CLEAR, LG_CLEAR_DONE, HIST_SEL, MET_CFG_WRITE and HIST_SAMPLE complete here.
The model's choices in it: log 84, 91, 92, 93, 108, 147. -/
def Obligations.LedgerCommands : Prop :=
  ∀ s : State,
    let l := s.ledger
    (s.writerCan = false ∨ l.running = true → exec .ledgerWriterStart s = .next s) ∧
    (s.writerCan = true → l.running = false → Ends .ledgerWriterStart s { s with ledger := { l with
      running := true, started := true, epochHi := s.nowS / 65536,
      own := [s.epochRec] ++ (if l.started then [] else [s.resetCauseRec]) ++ l.own } } [] (fun _ => True)) ∧
    (s.writerCan = false ∨ l.running = false ∨ takeNext l = none → exec .ledgerWrite s = .next s) ∧
    (∀ r m, s.writerCan = true → l.running = true → takeNext l = some (r, m) → r.guest < 256 → l.idx = [] → s.poison = [] →
      (recBytes r (l.headSeq + 1)).length ≤ s.ringSize - l.headOfs →
      let bs := recBytes r (l.headSeq + 1)
      ∃ t, exec .ledgerWrite s = .next t ∧ t.ledger = { m with
          headSeq := m.headSeq + 1, idx := [⟨m.headSeq + 1, m.headOfs, bs.length, r.guest, false⟩],
          headOfs := (m.headOfs + bs.length) % s.ringSize, tailOfs := m.headOfs } ∧
        (∀ a, t.byte a = if s.ringBase + l.headOfs ≤ a ∧ a < s.ringBase + l.headOfs + bs.length
          then bs.getD (a - (s.ringBase + l.headOfs)) 0 else s.byte a) ∧
        t.rd .ledger LEDGER.RECORDS = oneMore (s.rd .ledger LEDGER.RECORDS) ∧
        sameState { s with dram := t.dram, ledger := t.ledger } t ∧
        keepsRegs s t [key .ledger LEDGER.RECORDS, key (.guest r.guest 3) GLV.LV_HEAD_LO, key (.guest r.guest 3) (GLV.LV_HEAD_LO + 4),
          key (.guest r.guest 3) HDR.IRQ_STS]) ∧
    (∀ (base : BitVec 64) (log2 : BitVec 5),
      let lo := BitVec.ofNat 32 base.toNat
      let hi := BitVec.ofNat 32 (base.toNat / 2 ^ 32)
      let s1 := { s with shadow := Tbl.put (key .ledger LEDGER.LG_BASE_LO) lo s.shadow }
      let s2 := { s1 with shadow := Tbl.put (key .ledger LEDGER.LG_BASE_HI) hi s1.shadow }
      s.accepts .boot .ledger LEDGER.LG_BASE_LO lo → s1.accepts .boot .ledger LEDGER.LG_BASE_HI hi →
      s2.accepts .boot .ledger LEDGER.LG_CFG (BitVec.ofNat 32 log2.toNat) →
      Ends (.lgCfgWrite .boot base log2) s { s with ledger := { l with idx := [], headOfs := 0, tailOfs := 0 } }
        [key .ledger LEDGER.LG_BASE_LO, key .ledger LEDGER.LG_BASE_HI, key .ledger LEDGER.LG_CFG]
        (fun t => t.ringBase = base.toNat ∧ t.ringSize = 2 ^ log2.toNat)) ∧
    (∀ src (seq : BitVec 64),
      let lo := BitVec.ofNat 32 seq.toNat
      let regs := [key .ledger LEDGER.LG_SEL_LO, key .ledger LEDGER.LG_SEL_HI, key .ledger LEDGER.LG_SEL_STS]
      let found := l.idx.find? (fun e => !e.filler && e.seq == seq.toNat)
      s.accepts src .ledger LEDGER.LG_SEL_LO lo →
      ({ s with shadow := Tbl.put (key .ledger LEDGER.LG_SEL_LO) lo s.shadow } : State).accepts src .ledger LEDGER.LG_SEL_HI
        (BitVec.ofNat 32 (seq.toNat / 2 ^ 32)) →
      (found = none → Ends (.lgSel src seq) s s regs (fun t => t.rdf .ledger LEDGER.LG_SEL_STS 23 16 = E_RANGE)) ∧
      (∀ e, found = some e → s.poisoned (s.ringBase + e.ofs) e.len = false → Ends (.lgSel src seq) s s
        (regs ++ (List.range 64).map (fun k => key .ledger (LEDGER.LG_DATA k))) (fun t =>
          t.rd .ledger LEDGER.LG_SEL_STS = BitVec.ofNat 32 (2 ^ 31 + e.len) ∧
          ∀ k, k < 64 → t.rd .ledger (LEDGER.LG_DATA k) =
            BitVec.ofNat 32 (ofLe (((s.readMem (s.ringBase + e.ofs) e.len).drop (4 * k)).take 4))))) ∧
    (∀ src, s.accepts src .ledger LEDGER.LG_CLR_CMD 1 →
      let tok := s.tokenBytes
      let code := s.clearCode tok
      (code ≠ 0 → Ends (.lgClear src) s { s with ledger := { l with clr := some { token := tok, code := code } } } [] (fun _ => True)) ∧
      (code = 0 → 256 ≤ s.hmacDepth →
        Ends (.lgClear src) s { s with ledger := { l with clr := some { token := tok, code := E_BUSY } } }
          [key .crypto CRYPTO.QFULL, key .crypto HDR.IRQ_STS] (fun t =>
            t.rd .crypto CRYPTO.QFULL = oneMore (s.rd .crypto CRYPTO.QFULL) ∧ bit (t.rd .crypto HDR.IRQ_STS) 16 = true)) ∧
      (code = 0 → s.hmacDepth < 256 → Ends (.lgClear src) s
        { s with ledger := { l with clr := some { token := tok, deadline := s.now + 4000000, id := s.porter.jobNo } },
                 porter := { s.porter with jobNo := s.porter.jobNo + 1 } } [key .crypto CRYPTO.HMAC_Q] (fun _ => True))) ∧
    (l.clr = none ∨ s.working .ledger = false → exec .lgClearDone s = .next s) ∧
    (∀ x, l.clr = some x → s.working .ledger = true →
        let token := x.token
        let upto := leAt token 0x10 8
        let ended := fun (c : Nat) (t : State) => t.ledger.clr = none ∧ t.ledger.token = [] ∧
          t.rd .ledger LEDGER.LG_CLR_STS = BitVec.ofNat 32 c ∧ bit (t.rd .ledger HDR.IRQ_STS) 16 = true
        let fails := fun (c : Nat) (ks : List Nat) (P : State → Prop) => Ends .lgClearDone s
          { s with ledger := { l with clr := none, token := [] } }
          ([key .ledger LEDGER.LG_CLR_STS, key .ledger HDR.IRQ_STS] ++ ks) (fun t => ended c t ∧ P t)
        let counted := fun (e : Nat) => [key .crypto (win e CRYPTOW.ENG_JOBS), key .crypto CRYPTO.HMAC_PASS, key .crypto CRYPTO.HMAC_FAIL,
          key .crypto CRYPTO.PARENT_REVOKED, key .crypto HDR.IRQ_STS]
        let busied := fun (e : Nat) => { s with porter := { s.porter with
          busyNow := Tbl.set 0 e (Tbl.get 0 e s.porter.busyNow + hmacNs 32) s.porter.busyNow } }
        let fail := fun (t : State) => t.rd .crypto CRYPTO.HMAC_FAIL = oneMore (s.rd .crypto CRYPTO.HMAC_FAIL)
        let pass := fun (t : State) => t.rd .crypto CRYPTO.HMAC_PASS = oneMore (s.rd .crypto CRYPTO.HMAC_PASS)
        let revd := fun (t : State) => bit (t.rd .crypto HDR.IRQ_STS) 17 = true ∧
          t.rd .crypto CRYPTO.PARENT_REVOKED = oneMore (s.rd .crypto CRYPTO.PARENT_REVOKED)
        (x.code ≠ 0 → fails x.code [] (fun _ => True)) ∧
        (x.code = 0 → x.engine = none → s.now < x.deadline → exec .lgClearDone s = .next s) ∧
        (x.code = 0 → x.engine = none → x.deadline ≤ s.now → fails E_BUSY [key .crypto CRYPTO.WITHDRAWN] (fun t =>
          t.rd .crypto CRYPTO.WITHDRAWN = oneMore (s.rd .crypto CRYPTO.WITHDRAWN))) ∧
        (∀ e, x.code = 0 → x.engine = some e → e < 16 → (x.pass = false ∨ x.revoked = true) → Ends .lgClearDone s
          { busied e with ledger := { l with clr := none, token := [] } }
          ([key .ledger LEDGER.LG_CLR_STS, key .ledger HDR.IRQ_STS] ++ counted e) (fun t =>
            ended (if x.pass then E_REVOKED else E_AUTH) t ∧ (if x.pass then pass t else fail t) ∧ (x.revoked = true → revd t))) ∧
        (∀ e, x.code = 0 → x.engine = some e → e < 16 → x.pass = true → x.revoked = false → ∃ t, exec .lgClearDone s = .next t ∧ ended 0 t ∧
          pass t ∧ sameState { busied e with ledger := t.ledger } t ∧
          t.rd .ledger LEDGER.LG_CLEARS = BitVec.ofNat 32 ((s.rd .ledger LEDGER.LG_CLEARS).toNat + 1) ∧
          (∃ r, r.code = 0x001 ∧ r.guest = 0 ∧ t.ledger.own = r :: l.own) ∧
          (∀ e ∈ t.ledger.idx, e ∈ l.idx ∧ ((leAt token 5 1).testBit 0 = true → e.filler = true ∨ upto < e.seq)) ∧
          ((leAt token 5 1).testBit 0 = false → t.ledger.idx = l.idx) ∧
          ((leAt token 5 1).testBit 1 = false → t.ledger.hists = l.hists) ∧
          ((leAt token 5 1).testBit 1 = true → ∀ k, (Tbl.get {} k t.ledger.hists).count = 0) ∧
          t.ledger.headSeq = l.headSeq ∧ t.dram = s.dram ∧
          keepsRegs s t ([key .ledger LEDGER.LG_CLR_STS, key .ledger LEDGER.LG_CLEARS, key .ledger HDR.IRQ_STS] ++ counted e))) ∧
    (∀ src w, s.accepts src .ledger LEDGER.HIST_SEL w →
      let k := histKey (bits w 31 16) (bits w 3 0)
      let h := Tbl.get {} k l.hists
      ∃ t, exec (.histSel src w) s = .next t ∧ sameState s t ∧
        t.rd .ledger LEDGER.HIST_GEN = BitVec.ofNat 32 (Tbl.get 0 (bits w 3 0) l.gens + h.gen) ∧
        t.rd2 .ledger LEDGER.HIST_COUNT_LO = h.count % 2 ^ 64 ∧ t.rd2 .ledger LEDGER.HIST_SUM_LO = h.sum % 2 ^ 64 ∧
        t.rd .ledger LEDGER.HIST_MIN = BitVec.ofNat 32 h.mn ∧ t.rd .ledger LEDGER.HIST_MAX = BitVec.ofNat 32 h.mx ∧
        (∀ b, b < 32 → t.rd .ledger (LEDGER.HIST_BIN b) = BitVec.ofNat 32 (Tbl.get 0 b h.bins)) ∧
        ∀ a, ¬ guestSts a → ¬ (key .ledger LEDGER.HIST_SEL ≤ a ∧ a ≤ key .ledger (LEDGER.HIST_BIN 31)) →
          Tbl.get 0 a t.regs = Tbl.get 0 a s.regs) ∧
    (∀ src (m : Fin 7) w, s.accepts src .ledger (LEDGER.MET_CFG m.val) w → ∃ t, exec (.metCfgWrite src m w) s = .next t ∧
      (∀ k, k % 16 = m.val → (Tbl.get {} k t.ledger.hists).count = 0) ∧
      Tbl.get 0 m.val t.ledger.gens = Tbl.get 0 m.val l.gens + 1 ∧ (∀ n, n ≠ m.val → Tbl.get 0 n t.ledger.gens = Tbl.get 0 n l.gens) ∧
      sameState { s with ledger := { l with hists := t.ledger.hists, gens := t.ledger.gens } } t ∧
      keepsRegs s t [key .ledger (LEDGER.MET_CFG m.val)]) ∧
    (∀ p c m v,
      let takes := s.keeps p c m = true ∧ (m = 6 → (s.corest c).conv.isSome = true)
      (¬ takes → exec (.histSample p c m v) s = .next s) ∧
      (takes → bit (s.rd p HDR.LEDGER_CTL) 1 = false → exec (.histSample p c m v) s = .next (s.sampled p c m v)) ∧
      (takes → bit (s.rd p HDR.LEDGER_CTL) 1 = true →
        let x := min 0xFFFF_FFFF (s.metric p c m v)
        let k := histKey (sourceOf p c) m
        let h := Tbl.get {} k l.hists
        ∃ t, exec (.histSample p c m v) s = .next t ∧ sameState { s.sampled p c m v with ledger := { l with hists := t.ledger.hists } } t ∧
          t.regs = (s.sampled p c m v).regs ∧
          (∀ j, j ≠ k → Tbl.get {} j t.ledger.hists = Tbl.get {} j l.hists) ∧
          let y := Tbl.get {} k t.ledger.hists
          y.count = min (2 ^ 64 - 1) (h.count + 1) ∧ y.sum = min (2 ^ 64 - 1) (h.sum + x) ∧ y.mn = min h.mn x ∧ y.mx = max h.mx x ∧
          Tbl.get 0 (s.binOf m x) y.bins = min 0xFFFF_FFFF (Tbl.get 0 (s.binOf m x) h.bins + 1)))

/-- Check-value units (R384, R385, R388): an accepted GO starts a scan of the range in its registers, which on a quarantined engine or
in a stopped CHECK ends at once with no byte processed; the scan ends at its last byte with the CRC of the range, or at the first
poisoned line with E_SCANERR; ABORT cuts it off with E_ABORTED, how far it had got being open. Each end shows the result over the bytes
processed. CK_GO, CK_ABORT and CK_DONE complete here. The model's choices in it: log 7, 94, 122. -/
def Obligations.CheckScans : Prop :=
  ∀ (s : State) (c : Fin 4),
    let x := s.scan c.val
    let at_ := fun (o : Nat) => key .check (win c.val o)
    let ended := [at_ CHECKW.CK_STS, at_ CHECKW.CK_DONE_LO, at_ (CHECKW.CK_DONE_LO + 4), at_ CHECKW.CK_RES_LO, at_ (CHECKW.CK_RES_LO + 4), key .check CHECK.SCANS, at_ CELL.IRQ_STS]
    (∀ src cont (poly : BitVec 2), s.accepts src .check (win c.val CHECKW.CK_CTL) (BitVec.ofNat 32 (256 + b2n cont * 16 + poly.toNat)) →
      let y := { x with
        busy := true, addr := s.rd2 .check (win c.val CHECKW.CK_ADDR_LO), len := (s.rd .check (win c.val CHECKW.CK_LEN)).toNat + 1,
        cont := cont, poly := poly.toNat }
      let from_ := if cont then (x.prev.map Prod.snd).getD (crcOf poly.toNat).init else (crcOf poly.toNat).init
      let stopped := fun (code : Nat) => ∃ t, exec (.ckGo src c cont poly) s = .next t ∧
        t.scan c.val = { y with busy := false, prev := some (poly.toNat, from_) } ∧ (∀ d, d ≠ c.val → t.scan d = s.scan d) ∧
        t.rd .check (win c.val CHECKW.CK_STS) = BitVec.ofNat 32 (2 ^ 16 + code) ∧ t.rd2 .check (win c.val CHECKW.CK_DONE_LO) = 0 ∧
        t.rd2 .check (win c.val CHECKW.CK_RES_LO) = crcEnd (crcOf poly.toNat) from_ % 2 ^ 64 ∧
        t.rd .check CHECK.SCANS = oneMore (s.rd .check CHECK.SCANS) ∧
        t.rd .check CHECK.SCAN_ERRS = oneMore (s.rd .check CHECK.SCAN_ERRS) ∧
        sameState { s with scans := t.scans } t ∧ keepsRegs s t ([at_ CHECKW.CK_CTL, key .check CHECK.SCAN_ERRS] ++ ended)
      (s.quarantined .check c.val = true → stopped E_LOCKED) ∧
      (s.quarantined .check c.val = false → bit (s.rd .check HDR.PAGE_CTL) 0 = false → stopped E_ABORTED) ∧
      (s.quarantined .check c.val = false → bit (s.rd .check HDR.PAGE_CTL) 0 = true → ∃ t, exec (.ckGo src c cont poly) s = .next t ∧
        t.scan c.val = y ∧ (∀ d, d ≠ c.val → t.scan d = s.scan d) ∧ t.rd .check (win c.val CHECKW.CK_STS) = 0x8000_0000 ∧
        t.rdf .check (win c.val CHECKW.CK_CTL) 4 4 = b2n cont ∧ t.rdf .check (win c.val CHECKW.CK_CTL) 1 0 = poly.toNat ∧
        sameState { s with scans := t.scans } t ∧ keepsRegs s t [at_ CHECKW.CK_CTL, at_ CHECKW.CK_STS])) ∧
    (∀ src, s.accepts src .check (win c.val CHECKW.CK_CTL) (s.rd .check (win c.val CHECKW.CK_CTL) ||| 512#32) →
      bit (s.rd .check (win c.val CHECKW.CK_CTL)) 8 = false →
      (x.busy = false → Ends (.ckAbort src c) s s [at_ CHECKW.CK_CTL] (fun _ => True)) ∧
      (x.busy = true → ∃ t n, exec (.ckAbort src c) s = .next t ∧ (x.len = 0 ∨ n < x.len) ∧
        t.scan c.val = { x with busy := false, prev := some (x.poly, crcRun (crcOf x.poly) x.start (s.readMem x.addr n)) } ∧
        t.rd2 .check (win c.val CHECKW.CK_DONE_LO) = n % 2 ^ 64 ∧
        t.rd2 .check (win c.val CHECKW.CK_RES_LO) = crcEnd (crcOf x.poly) (crcRun (crcOf x.poly) x.start (s.readMem x.addr n)) % 2 ^ 64 ∧
        t.rd .check (win c.val CHECKW.CK_STS) = BitVec.ofNat 32 (2 ^ 16 + E_ABORTED) ∧
        t.rd .check CHECK.SCANS = oneMore (s.rd .check CHECK.SCANS) ∧
        t.rd .check CHECK.SCAN_ERRS = oneMore (s.rd .check CHECK.SCAN_ERRS) ∧ (∀ d, d ≠ c.val → t.scan d = s.scan d) ∧
        sameState { s with scans := t.scans, freeCtr := s.freeCtr + 1 } t ∧
        keepsRegs s t ([at_ CHECKW.CK_CTL, key .check CHECK.SCAN_ERRS] ++ ended))) ∧
    (x.busy = false ∨ s.working .check = false → exec (.ckDone c) s = .next s) ∧
    (x.busy = true → s.working .check = true → s.poison = [] →
      let crc := crcRun (crcOf x.poly) x.start (s.readMem x.addr x.len)
      ∃ t, exec (.ckDone c) s = .next t ∧ t.scan c.val = { x with busy := false, prev := some (x.poly, crc) } ∧
        (∀ d, d ≠ c.val → t.scan d = s.scan d) ∧
        t.rd .check (win c.val CHECKW.CK_STS) = 0x1_0000 ∧ t.rd2 .check (win c.val CHECKW.CK_DONE_LO) = x.len % 2 ^ 64 ∧
        t.rd2 .check (win c.val CHECKW.CK_RES_LO) = crcEnd (crcOf x.poly) crc % 2 ^ 64 ∧
        t.rd .check CHECK.SCANS = oneMore (s.rd .check CHECK.SCANS) ∧ sameState { s with scans := t.scans } t ∧
        keepsRegs s t ended) ∧
    (∀ line rest, x.busy = true → s.working .check = true → s.poisonIn x.addr x.len = line :: rest → ∃ t, exec (.ckDone c) s = .next t ∧
      (t.scan c.val).busy = false ∧ t.rd .check (win c.val CHECKW.CK_STS) = BitVec.ofNat 32 (2 ^ 16 + E_SCANERR) ∧
      t.rd2 .check (win c.val CHECKW.CK_DONE_LO) = (line * 64 - x.addr) % 2 ^ 64 ∧
      t.rd2 .check (win c.val CHECKW.CK_RES_LO) =
        crcEnd (crcOf x.poly) (crcRun (crcOf x.poly) x.start (s.readMem x.addr (line * 64 - x.addr))) % 2 ^ 64 ∧
      t.rd .check CHECK.SCAN_ERRS = oneMore (s.rd .check CHECK.SCAN_ERRS) ∧ t.dram = s.dram)

/-! ### Converters, filters, acquisition -/

/-- The converters (R392, R393, R395, R396, R401 to R403). A code is the corrected conversion rounded and held within 16 bits. A
conversion ends one sample of its stream; a core takes the entries of its sequence in turn; a trigger starts a scan at the next CLK_CONV
edge, or is counted while one runs. The reference is bad outside 2.4 to 2.6 V and good again after 100 µs within. A calibration averages,
ends with its result, or with its code, a second without its conversions among them; an apply stores both results as the set's
coefficients, and a set loaded for the gain in use settles the stream from its core's next conversion on. ADC_SAMPLE, CORE_SWTRIG,
ADC_SCAN_TRIGGER, ADC_SCAN_DONE, COEF_LOAD, VREF_MEASURE, CAL_SEL, CAL_ZERO, CAL_FULL, CAL_APPLY, CAL_ABORT, CAL_AVG_DONE and CAL_TIMEOUT
complete here. The model's choices in it: log 5, 95, 96, 97, 98. -/
def Obligations.Converters : Prop :=
  (∀ raw ofs gain : Int, let y := ((16 * raw - ofs) * gain + 2 ^ 19) / 2 ^ 20
    (adcCode raw ofs gain).1 = (if y < -32768 then -32768 else if 32767 < y then 32767 else y) ∧
    ((adcCode raw ofs gain).2 = true ↔ raw ≤ -32768 ∨ 32767 ≤ raw ∨ y ≤ -32768 ∨ 32767 ≤ y)) ∧
  (∀ (s : State) (c : Fin 4),
    let x := s.corest c.val
    let k := 2 + c.val
    let cores := fun (y : CoreSt) => Tbl.set {} c.val y s.analog.cores
    let convs := key .adc (win c.val ADCW.CORE_CONVS)
    let started := fun (y : CoreSt) => { s with analog := { s.analog with
      cores := cores { y with scan := true, entry := 0, nth := 0 },
      streams := Tbl.set {} k { s.stream k with fresh := true } s.analog.streams } }
    let missed := fun (y : CoreSt) (t : State) => t.rd .adc (win c.val ADCW.CONV_OVERRUN) = oneMore (s.rd .adc (win c.val ADCW.CONV_OVERRUN)) ∧
      t.rd .adc ADC.CONV_OVERRUNS = oneMore (s.rd .adc ADC.CONV_OVERRUNS) ∧ (t.stream k).ovr = true ∧ t.corest c.val = y ∧
      bit (t.rd .adc HDR.IRQ_STS) 18 = true
    (s.working .acq = false → s.working .filt = false → s.converts c.val = true → s.analog.cal.op = 0 → ∀ raw : Int,
      (s.il (c.val / 2) = true → c.val % 2 = (s.stream (c.val / 2)).index % 2 →
        let z := s.stream (c.val / 2)
        let g := s.twGain (c.val / 2)
        ∃ t, exec (.adcSample c raw none) s = .next t ∧ keepsRegs s t [convs] ∧ t.rd .adc (win c.val ADCW.CORE_CONVS) =
            oneMore (s.rd .adc (win c.val ADCW.CORE_CONVS)) ∧
          t.stream (c.val / 2) = { z with
            index := z.index + 1, settle := max (z.settle - 1) z.late, late := 0, ovr := false, fresh := false, blk := (t.stream (c.val / 2)).blk } ∧
          t.corest c.val = { x with
            prev := none, conv := if 0 < z.settle then none else some (adcCode raw (signed 20 (s.rd .adc (coefOfs c.val g)).toNat)
              ((s.rd .adc (coefGain c.val g)).toNat : Int)).1 } ∧
          (z.fresh = true → (t.stream (c.val / 2)).blk.n = 1 ∧ (t.stream (c.val / 2)).blk.index = z.index) ∧
          sameState { s with analog := { s.analog with streams := t.analog.streams, cores := t.analog.cores } } t) ∧
      (s.il (c.val / 2) = false → x.scan = true → x.entry ≤ bits (s.core c.val ADCW.CORE_SEQ) 3 0 →
        let e := s.core c.val (ADCW.SEQ x.entry)
        let z := s.stream k
        ∃ t, exec (.adcSample c raw none) s = .next t ∧ keepsRegs s t [convs] ∧
          t.corest c.val = { x with
            prev := some (bits e 3 0, bits e 5 4), entry := if bits e 15 8 ≤ x.nth then x.entry + 1 else x.entry, nth := if bits e 15 8 ≤ x.nth then 0 else x.nth + 1, conv := (t.corest c.val).conv } ∧
          (t.stream k).index = z.index + 1 ∧ (x.prev = none → (t.stream k).settle = max (z.settle - 1) z.late) ∧
          (∀ ch, x.prev = some (ch, bits e 5 4) → ch ≠ bits e 3 0 → (t.stream k).settle = max (max z.settle 2 - 1) z.late) ∧
          (∀ ga, x.prev = some (bits e 3 0, ga) → ga ≠ bits e 5 4 → (t.stream k).settle = max (max z.settle 8 - 1) z.late))) ∧
    (s.converts c.val = false → ∀ raw skew, exec (.adcSample c raw skew) s = .next s) ∧
    (∀ src, s.accepts src .adc (win c.val ADCW.CORE_SWTRIG) 1 →
      (s.present k = false → Ends (.coreSwtrig src c) s s [] (fun _ => True)) ∧
      (s.present k = true → x.scan = false → Ends (.coreSwtrig src c) s (started x) [] (fun _ => True)) ∧
      (s.present k = true → x.scan = true → ∃ t, exec (.coreSwtrig src c) s = .next t ∧ missed x t)) ∧
    (s.present k = false ∨ x.trig = false → exec (.adcScanTrigger c) s = .next s) ∧
    (s.present k = true → x.trig = true →
      (x.scan = false → s.coreTrig c.val ≠ 0 → Ends (.adcScanTrigger c) s (started { x with trig := false }) [] (fun _ => True)) ∧
      (x.scan = true → ∃ t, exec (.adcScanTrigger c) s = .next t ∧ missed { x with trig := false } t)) ∧
    (x.scan = false ∨ x.entry ≤ bits (s.core c.val ADCW.CORE_SEQ) 3 0 → exec (.adcScanDone c) s = .next s) ∧
    (x.scan = true → bits (s.core c.val ADCW.CORE_SEQ) 3 0 < x.entry → s.coreTrig c.val ≠ 0 → (∀ j, j < 6 → s.present j = (s.stream j).on) →
      ∃ t, exec (.adcScanDone c) s = .next t ∧ bit (t.rd .adc (win c.val CELL.IRQ_STS)) 1 = true ∧
        t.corest c.val = { x with scan := false, entry := 0, nth := 0, trig := s.present k && (decide (s.coreTrig c.val = 1) || x.trig) } ∧
        (∀ d, d < 4 → d ≠ c.val → t.corest d = { s.corest d with
          trig := s.present (2 + d) && (decide (s.coreTrig d = 1) && !(s.corest d).scan || ((s.corest d).trig && s.coreTrig d != 0)) }) ∧
        sameState { s with analog := { s.analog with cores := t.analog.cores } } t ∧ keepsRegs s t [key .adc (win c.val CELL.IRQ_STS)]) ∧
    (x.scan = true → bits (s.core c.val ADCW.CORE_SEQ) 3 0 < x.entry → s.coreTrig c.val = 0 → (s.stream k).on = true →
      s.working .acq = false → ∃ t, exec (.adcScanDone c) s = .next t ∧ (t.corest c.val).scan = false ∧
        (t.corest c.val).trig = false ∧ t.stream k = { s.stream k with on := false, blk := {} }) ∧
    (∀ src (g : Fin 4) w, s.accepts src .adc (coefGain c.val g.val) w →
      let ks := [key .adc (coefGain c.val g.val), key .adc (coefOfs c.val g.val)]
      let shows := fun (t : State) => t.rdf .adc (coefGain c.val g.val) 17 0 = bits w 17 0 ∧
        t.rd .adc (coefOfs c.val g.val) = (Tbl.look (key .adc (coefOfs c.val g.val)) s.shadow).getD (s.rd .adc (coefOfs c.val g.val))
      (s.converts c.val = false ∨ s.gainInUse c.val ≠ g.val → Ends (.coefLoad src c g w) s s ks shows) ∧
      (s.converts c.val = true → s.gainInUse c.val = g.val →
        let j := s.streamOf c.val
        let streams := fun (y : StreamSt) => { s with analog := { s.analog with streams := Tbl.set {} j y s.analog.streams } }
        let others := s.il (c.val / 2) = true ∧ (s.stream j).index % 2 ≠ c.val % 2
        (¬ others → Ends (.coefLoad src c g w) s (streams { s.stream j with settle := max (s.stream j).settle 4 }) ks shows) ∧
        (others → Ends (.coefLoad src c g w) s (streams { s.stream j with late := 4 }) ks shows)))) ∧
  (∀ s : State,
    let a := s.analog
    let cal := fun (op since : Nat) => { s with analog := { a with cal := { a.cal with op := op, sum := 0, count := 0, since := since } } }
    let sts := key .adc ADC.CAL_STS
    let irq := key .adc HDR.IRQ_STS
    let running := fun (t : State) => bit (t.rd .adc ADC.CAL_STS) 31 = true
    let ended := fun (code : Nat) (t : State) => t.calBusy = false ∧ bit (t.rd .adc ADC.CAL_STS) 31 = false ∧
      t.rdf .adc ADC.CAL_STS 7 0 = code ∧ bit (t.rd .adc HDR.IRQ_STS) 17 = true
    let fails := fun (i : Instr) (code : Nat) => ∃ t, exec i s = .next t ∧ ended code t ∧ t.analog.streams = a.streams ∧
      t.rd .adc ADC.CAL_OFS_RES = s.rd .adc ADC.CAL_OFS_RES ∧ t.rd .adc ADC.CAL_GAIN_RES = s.rd .adc ADC.CAL_GAIN_RES
    let sel := s.rd .adc ADC.CAL_SEL
    let bad := bit (s.rd .adc ADC.ADC_STS) 0
    (s.working .adc = false → ∀ v, exec (.vrefMeasure v) s = .next s) ∧
    (s.working .adc = true → ∀ v,
      let good := 24000 ≤ v.toNat ∧ v.toNat ≤ 26000
      let shows := fun (b : Bool) (t : State) => t.rd .adc ADC.VREF_MEAS = BitVec.ofNat 32 v.toNat ∧ bit (t.rd .adc ADC.ADC_STS) 0 = b
      (good → bad = false → Ends (.vrefMeasure v) s s [key .adc ADC.VREF_MEAS] (shows false)) ∧
      (¬ good → bad = true → Ends (.vrefMeasure v) s { s with analog := { a with refGood := none } } [key .adc ADC.VREF_MEAS] (shows true)) ∧
      (¬ good → bad = false → ∃ t, exec (.vrefMeasure v) s = .next t ∧ shows true t ∧ bit (t.rd .adc HDR.IRQ_STS) 16 = true ∧
        t.rd .adc ADC.REF_BAD_EVENTS = oneMore (s.rd .adc ADC.REF_BAD_EVENTS)) ∧
      (good → bad = true → a.refGood = none →
        Ends (.vrefMeasure v) s { s with analog := { a with refGood := some s.time.elapsed } } [key .adc ADC.VREF_MEAS] (shows true)) ∧
      (∀ since, good → bad = true → a.refGood = some since → since + 100000 * nsU ≤ s.time.elapsed →
        ∃ t, exec (.vrefMeasure v) s = .next t ∧ shows false t ∧ t.analog.refGood = none) ∧
      (∀ since, good → bad = true → a.refGood = some since → s.time.elapsed < since + 100000 * nsU →
        Ends (.vrefMeasure v) s s [key .adc ADC.VREF_MEAS] (shows true))) ∧
    (∀ src w, s.accepts src .adc ADC.CAL_SEL w → Ends (.calSel src w) s s [key .adc ADC.CAL_SEL, sts] (fun t =>
      t.rdf .adc ADC.CAL_STS 9 8 = 0 ∧ t.rdf .adc ADC.CAL_SEL 12 8 = bits w 12 8 ∧ t.rdf .adc ADC.CAL_SEL 5 4 = bits w 5 4 ∧
      t.rdf .adc ADC.CAL_SEL 1 0 = bits w 1 0)) ∧
    (∀ src, s.accepts src .adc ADC.CAL_CMD 1 → Ends (.calZero src) s (cal 1 s.time.elapsed) [sts] running) ∧
    (∀ src, s.accepts src .adc ADC.CAL_CMD 2 →
      (bit (s.rd .adc ADC.CAL_STS) 8 = true → Ends (.calFull src) s (cal 2 s.time.elapsed) [sts] running) ∧
      (bit (s.rd .adc ADC.CAL_STS) 8 = false → fails (.calFull src) E_SEQ)) ∧
    (∀ src, s.accepts src .adc ADC.CAL_CMD 3 → let ok := bits (s.rd .adc ADC.CAL_STS) 9 8 = 3
      (ok → ∃ t, exec (.calApply src) s = .next t ∧ ended 0 t ∧
        t.rd .adc (coefOfs (bits sel 1 0) (bits sel 5 4)) = s.rd .adc ADC.CAL_OFS_RES ∧
        t.rd .adc (coefGain (bits sel 1 0) (bits sel 5 4)) = s.rd .adc ADC.CAL_GAIN_RES) ∧
      (¬ ok → fails (.calApply src) E_SEQ)) ∧
    (∀ src, s.accepts src .adc ADC.CAL_CMD 4 → fails (.calAbort src) E_SEQ) ∧
    (a.cal.op = 0 ∨ a.cal.count < 65536 → exec .calAvgDone s = .next s) ∧
    (65536 ≤ a.cal.count →
      (a.cal.op = 1 → a.cal.sum.natAbs ≤ 2048 * 65536 → Ends .calAvgDone s
        { s with analog := { a with cal := { a.cal with op := 0, sum := 0, count := 0, zero := a.cal.sum } } }
        [key .adc ADC.CAL_OFS_RES, sts, irq] (fun t => ended 0 t ∧ bit (t.rd .adc ADC.CAL_STS) 8 = true ∧
          signed 20 (t.rdf .adc ADC.CAL_OFS_RES 19 0) = roundDiv a.cal.sum 4096)) ∧
      (a.cal.op = 1 → 2048 * 65536 < a.cal.sum.natAbs → fails .calAvgDone E_CALSIG) ∧
      (a.cal.op = 2 →
        let e := calE (bits sel 12 8) (bits sel 5 4) (signed 25 (s.rd .adc ADC.CAL_REF).toNat)
        let d := a.cal.sum - a.cal.zero
        let g := roundDiv (e.1 * 65536 * 65536) (e.2 * d)
        let weak := e.1.natAbs < 8192 * e.2.natAbs ∨ d = 0 ∨ g < 0x8000 ∨ 0x20000 < g
        (weak → fails .calAvgDone E_CALSIG) ∧
        (¬ weak → Ends .calAvgDone s (cal 0 a.cal.since) [key .adc ADC.CAL_GAIN_RES, sts, irq] (fun t => ended 0 t ∧
          bit (t.rd .adc ADC.CAL_STS) 9 = true ∧ ((t.rdf .adc ADC.CAL_GAIN_RES 17 0 : Nat) : Int) = g)))) ∧
    (s.calBusy = true → a.cal.count < 65536 → a.cal.since + 1000000000 * nsU ≤ s.time.elapsed → fails .calTimeout E_NOSAMPLE) ∧
    (s.calBusy = false ∨ 65536 ≤ a.cal.count ∨ s.time.elapsed < a.cal.since + 1000000000 * nsU → exec .calTimeout s = .next s))

/-- Filter channels (R416 to R420, R431). A channel that starts begins a window; one that stops keeps no output waiting; a swap takes
effect at once on a stopped channel and waits for the next output of another; SYNC begins a new window; a held output is written to
its two points once the microsecond since the previous write has passed. FC_CFG_WRITE, FC_SWAP, FC_SYNC and FILT_POINT_WRITE complete
here. The model's choices in it: log 3, 99, 100, 101. -/
def Obligations.FilterChannels : Prop :=
  ∀ (s : State) (n : Fin 16),
    let c := s.fch n.val
    let out := bit (s.fc n.val FILTW.FC_OUT) 31
    let chans := fun (t : State) => sameState { s with analog := { s.analog with filt := t.analog.filt } } t
    let other := fun (t : State) => ∀ m, m ≠ n.val → t.fch m = s.fch m
    let window := fun (t : State) (b : Bool) => (t.fch n.val).state = (if s.bankL n.val b = 1 then 2 else 1) ∧ (t.fch n.val).k = 0 ∧
      (t.fch n.val).hist = [] ∧ (t.fch n.val).j = 0 ∧ (t.fch n.val).index = 0 ∧ (t.fch n.val).first = true
    (∀ src w, s.accepts src .filt (win n.val FILTW.FC_CFG) w →
      let ks := [key .filt (win n.val FILTW.FC_CFG)]
      (bit w 0 = true → c.state = 0 → s.quarantined .filt n.val = false → ∃ t, exec (.fcCfgWrite src n w) s = .next t ∧
        keepsRegs s t ks ∧ chans t ∧ window t c.bank ∧ (t.fch n.val).bank = c.bank ∧ (t.fch n.val).hi = false ∧ (t.fch n.val).lo = false) ∧
      (bit w 0 = false → c.state ≠ 0 → s.quarantined .filt n.val = false → out = false → s.working .acq = false →
        Ends (.fcCfgWrite src n w) s { s with analog := { s.analog with
          filt := Tbl.set {} n.val { c with state := 0, held := none, wrote := none } s.analog.filt } } ks (fun _ => True)) ∧
      ((bit w 0 = false ∧ c.state = 0) ∨ (bit w 0 = true ∧ c.state ≠ 0) ∨ s.quarantined .filt n.val = true →
        Ends (.fcCfgWrite src n w) s s ks (fun _ => True))) ∧
    (∀ src, s.accepts src .filt (win n.val FILTW.FC_CMD) 1 → ∃ t, exec (.fcSwap src n) s = .next t ∧ chans t ∧ other t ∧
      keepsRegs s t [] ∧
      t.fch n.val = if c.state = 0 then { c with bank := !c.bank } else { c with pend := true }) ∧
    (∀ src, s.accepts src .filt (win n.val FILTW.FC_CMD) 2 → ∃ t, exec (.fcSync src n) s = .next t ∧ chans t ∧ other t ∧
      keepsRegs s t [] ∧ (c.state = 0 → t.fch n.val = c) ∧
      (c.state ≠ 0 → window t c.bank ∧ (t.fch n.val).bank = c.bank ∧ (t.fch n.val).pend = c.pend)) ∧
    (c.held = none → exec (.filtPointWrite n) s = .next s) ∧
    (c.wrote.any (fun w => decide (s.time.elapsed < w + usU)) = true → exec (.filtPointWrite n) s = .next s) ∧
    (∀ y, c.held = some y → c.wrote.any (fun w => decide (s.time.elapsed < w + usU)) = false →
      let held := fun (wrote : Option Nat) => { s with analog := { s.analog with
        filt := Tbl.set {} n.val { c with wrote := wrote, held := none } s.analog.filt } }
      (out = false → Ends (.filtPointWrite n) s (held c.wrote) [] (fun _ => True)) ∧
      (out = true → s.poison = [] →
        let p := bits (s.fc n.val FILTW.FC_OUT) 24 0
        s.unpinned p → s.unpinned (p + 1) →
        let q := 6 * 2 ^ 15 + filtVal y.flags * 2 ^ 18 + y.flags % 16 * 2 ^ 24
        ∃ t, exec (.filtPointWrite n) s = .next t ∧ t.point p = qPoint (unsigned 32 y.x) q ∧
          t.point (p + 1) = BitVec.ofNat 64 (qWord y.t + qS y.t % 65536 * 2 ^ 32 + y.index % 65536 * 2 ^ 48) ∧
          (∀ a, ¬ (s.pointAddr p ≤ a ∧ a < s.pointAddr p + 16) → t.byte a = s.byte a) ∧
          sameState { held (some s.time.elapsed) with dram := t.dram, ptNow := (s.ptNow.1 + 2, s.ptNow.2) } t ∧
          t.rd .point POINT.INGRESS_WRITES = BitVec.ofNat 32 (min 0xFFFF_FFFF ((s.rd .point POINT.INGRESS_WRITES).toNat + 2)) ∧
          keepsRegs s t [key .point POINT.INGRESS_WRITES]))

/-- Acquisition units (R421, R423 to R428, R434). EN starts a unit; an arming unit takes a free segment and zeroes its header, or waits; a
trigger begins the capture; the oldest block of the FIFO goes to its place in the segment; RED halves once the FIFO has held 32 blocks or
fewer for 100 µs; an ended record gets its header and its segment is full until REL frees it. AU_CFG_WRITE, ACQ_ARMED, AU_REL, AU_SWTRIG,
ACQ_BLOCK_WRITE, ACQ_RED_HALVE and ACQ_RECORD_CLOSE complete here. The model's choices in it: log 3, 102, 103, 114, 145. -/
def Obligations.AcquisitionUnits : Prop :=
  ∀ (s : State) (u : Fin 4),
    let x := s.unit u.val
    let reg := fun (o : Nat) => key .acq (auWin u.val o)
    let unit := fun (y : AcqUnit) => { s with analog := { s.analog with acq := Tbl.set {} u.val y s.analog.acq } }
    let low := fun (fifo : List (Nat × Nat × AcqBlk)) => if 32 < x.fifo.length ∧ fifo.length ≤ 32 then s.time.elapsed else x.lowAt
    let works := s.working .acq = true ∧ s.quarantined .acq u.val = false
    (∀ src w, s.accepts src .acq (auWin u.val ACQW.AU_CFG) w →
      (bit w 0 = true → x.state = 0 → Ends (.auCfgWrite src u w) s
        (unit { x with state := 1, red := 1, prevLast := none, lastTrig := none }) [reg ACQW.AU_CFG] (fun _ => True)) ∧
      (bit w 0 = true → x.state ≠ 0 → Ends (.auCfgWrite src u w) s s [reg ACQW.AU_CFG] (fun _ => True)) ∧
      (bit w 0 = false → s.unitOn u.val = false → Ends (.auCfgWrite src u w) s s [reg ACQW.AU_CFG] (fun _ => True)) ∧
      (∀ r, bit w 0 = false → s.unitOn u.val = true → x.state = 2 → x.rec_ = some r → Ends (.auCfgWrite src u w) s
        (unit { x with
          state := 0, rec_ := none, cur := none, acc := [], halve := false, fifo := x.fifo.filter (fun e => e.1 != r.base),
          lowAt := low (x.fifo.filter (fun e => e.1 != r.base)) }) [reg ACQW.AU_CFG] (fun _ => True)) ∧
      (bit w 0 = false → s.unitOn u.val = true → x.state = 1 ∨ x.state = 4 → x.rec_ = none → Ends (.auCfgWrite src u w) s
        (unit { x with state := 0, cur := none, acc := [], halve := false }) [reg ACQW.AU_CFG] (fun _ => True)) ∧
      (∀ r, bit w 0 = false → s.unitOn u.val = true → x.state = 3 → x.rec_ = some r → x.cur = none → ∃ t,
        exec (.auCfgWrite src u w) s = .next t ∧ (t.unit u.val).state = 0 ∧ (t.unit u.val).rec_ = none ∧
        (t.unit u.val).closing = x.closing ++ [r] ∧ keepsRegs s t [reg ACQW.AU_CFG])) ∧
    (x.state ≠ 1 ∨ ¬ works → exec (.acqArmed u) s = .next s) ∧
    (x.state = 1 → works →
      let n := bits (s.au u.val ACQW.AU_NSEG) 8 0
      let busy := fun (i : Nat) => x.full.contains i || x.closing.any (fun r => r.seg == i)
      let arms := fun (i : Nat) (full : List Nat) (ks : List Nat) (t : State) =>
        let base := s.segBase u.val i
        t.unit u.val = { x with
            full := full, state := 2, nextSeg := (i + 1) % max 1 n, acc := [], cur := none, lastGen := none, rec_ := some
              { seg := i, base := base, units := segUnits (bits (s.au u.val ACQW.AU_SEG_LEN) 17 0), prevLast := x.prevLast,
                src := bits (s.au u.val ACQW.AU_CFG) 12 8, avg := bits (s.au u.val ACQW.AU_AVG) 8 0, pre := s.pre u.val, post := s.post u.val,
                tsrc := bits (s.au u.val ACQW.AU_TRIG) 2 0,
                front := if bit (s.au u.val ACQW.AU_CFG) 17 then some (bits (s.au u.val ACQW.AU_FRONT_W) 7 0) else none } } ∧
          (∀ a, t.byte a = if base ≤ a ∧ a < base + 64 then 0 else s.byte a) ∧ keepsRegs s t ks ∧
          sameState { s with dram := t.dram, analog := { s.analog with acq := t.analog.acq } } t ∧
          ∀ v, v ≠ u.val → t.unit v = s.unit v
      let none_ := ∀ j, j < n → busy ((x.nextSeg + j) % max 1 n) = true
      (∀ i, ((List.range n).map (fun j => (x.nextSeg + j) % max 1 n)).find? (fun j => !busy j) = some i → s.poison = [] →
        s.segBase u.val i + 64 ≤ dramSize → ∃ t, exec (.acqArmed u) s = .next t ∧ arms i x.full [] t) ∧
      (∀ i rest, none_ → bit (s.au u.val ACQW.AU_CFG) 16 = true → x.full = i :: rest → s.poison = [] →
        s.segBase u.val i + 64 ≤ dramSize → ∃ t, exec (.acqArmed u) s = .next t ∧ arms i rest [reg ACQW.AU_LOST] t ∧
          t.rd .acq (auWin u.val ACQW.AU_LOST) = oneMore (s.rd .acq (auWin u.val ACQW.AU_LOST))) ∧
      (none_ → bit (s.au u.val ACQW.AU_CFG) 16 = false →
        Ends (.acqArmed u) s (unit { x with state := 4 }) [reg CELL.IRQ_STS] (fun t => bit (t.rd .acq (auWin u.val CELL.IRQ_STS)) 2 = true))) ∧
    (∀ src, s.accepts src .acq (auWin u.val ACQW.AU_CMD) 2 → Ends (.auRel src u) s
      (unit { x with full := x.full.drop 1, state := if x.state = 4 then 1 else x.state }) [] (fun _ => x.full ≠ [])) ∧
    (∀ src, s.accepts src .acq (auWin u.val ACQW.AU_CMD) 1 → works → (∀ l, x.lastTrig = some l → l / 20 ≠ s.now / 20) →
      (∀ v, v < 4 → bit (s.au v ACQW.AU_CFG) 0 = true → bits (s.au v ACQW.AU_TRIG) 2 0 ≠ 4) →
      (∀ r, x.state = 2 → x.rec_ = some r → r.blocks = [] → x.cur = none → 0 < r.units →
        Ends (.auSwtrig src u) s (unit { x with
          state := 3, lastTrig := some s.now, rec_ := some { r with trig := some { t := s.now, gen := s.time.stepGen } } }) [] (fun _ => True)) ∧
      (∀ r, x.state = 3 → x.rec_ = some r → ∃ t, exec (.auSwtrig src u) s = .next t ∧ (t.unit u.val).state = 3 ∧
        t.rd .acq (auWin u.val ACQW.AU_RETRIGS) = oneMore (s.rd .acq (auWin u.val ACQW.AU_RETRIGS))) ∧
      (x.state = 1 ∨ x.state = 4 → ∃ t, exec (.auSwtrig src u) s = .next t ∧ (t.unit u.val).state = x.state ∧
        t.rd .acq (auWin u.val ACQW.AU_REARM_TRIGS) = oneMore (s.rd .acq (auWin u.val ACQW.AU_REARM_TRIGS)) ∧
        bit (t.rd .acq HDR.IRQ_STS) 17 = true)) ∧
    (x.fifo = [] ∨ ¬ works → exec (.acqBlockWrite u) s = .next s) ∧
    (∀ base i b rest, x.fifo = (base, i, b) :: rest → works → s.poison = [] → base + 64 + 96 * i + 96 ≤ dramSize →
      b.words.length ≤ 16 →
      let at_ := base + 64 + 96 * i
      let owner := (x.rec_.toList ++ x.closing).find? (fun r => r.base == base)
      let trig := (owner.bind AcqRec.trig).bind AcqTrig.word
      let src := (owner.map AcqRec.src).getD (bits (s.au u.val ACQW.AU_CFG) 12 8)
      let bytes := b.bytes src (s.srcPeriod 17 src) trig b.bseq
      ∃ t, exec (.acqBlockWrite u) s = .next t ∧ t.unit u.val = { x with fifo := rest, lowAt := low rest } ∧ bytes.length = 96 ∧
        (∀ a, t.byte a = if at_ ≤ a ∧ a < at_ + 96 then bytes.getD (a - at_) 0 else s.byte a) ∧ keepsRegs s t [] ∧
        sameState { s with dram := t.dram, analog := { s.analog with acq := t.analog.acq, acqNow := s.analog.acqNow + 96 } } t) ∧
    (x.red ≤ 1 ∨ 32 < x.fifo.length ∨ s.time.elapsed < x.lowAt + 100 * usU ∨ ¬ works → exec (.acqRedHalve u) s = .next s) ∧
    (1 < x.red → x.fifo.length ≤ 32 → x.lowAt + 100 * usU ≤ s.time.elapsed → works →
      (x.cur = none → x.acc = [] → ∃ t, exec (.acqRedHalve u) s = .next t ∧ t.unit u.val = { x with red := x.red / 2, halve := false, lowAt := s.time.elapsed } ∧
        bit (t.rd .acq HDR.IRQ_STS) 18 = true) ∧
      (x.acc ≠ [] → Ends (.acqRedHalve u) s (unit { x with halve := true }) [] (fun _ => True))) ∧
    (x.closing = [] ∨ ¬ works → exec (.acqRecordClose u) s = .next s) ∧
    (∀ r rest, x.closing = r :: rest → works → x.fifo.any (fun e => e.1 == r.base) = false → r.base + (64 + 96 * r.units) ≤ dramSize →
      s.poison = [] →
      let b := match r.trig.bind AcqTrig.word with
        | some o => keepPre o r.pre r.blocks
        | none => keepNewest r.pre r.blocks
      let h := (s.header u.val r b).1
      ∃ t, exec (.acqRecordClose u) s = .next t ∧
        t.unit u.val = { x with closing := rest, full := x.full ++ [r.seg], seq := x.seq + 1 } ∧
        h.length = 64 ∧ (∀ a, r.base ≤ a → a < r.base + 64 → t.byte a = h.getD (a - r.base) 0) ∧
        t.rd .acq (auWin u.val ACQW.AU_RECORDS) = oneMore (s.rd .acq (auWin u.val ACQW.AU_RECORDS)) ∧
        bit (t.rd .acq HDR.IRQ_STS) 16 = true ∧ bit (t.rd .acq (auWin u.val CELL.IRQ_STS)) 0 = true)

/-! ### Scrubbing and flash -/

/-- The scrubber and the flash (R358, R438, R440, R445, R446, R449, R452): a scrub read moves on by one line of its controller and counts
what it finds; a flash command that completes is that of the key store, of the manager or of the checkpoint, in this order: a key store
copy is erased, its blobs and then its header programmed; the manager's read leaves the flash bytes in DRAM; a slot is erased, programmed
and read back; a checkpoint's copy is erased, its body and then its header programmed, and is in force after the read-back. GO waits for
the next top of second, or ends at once with the code that forbids it. SCRUB_READ, FL_READ, SLOT_WRITE, CKPT_GO and FLASH_OP_DONE
complete here. The model's choices in it: log 5, 88, 104, 105, 106, 107, 115. -/
def Obligations.ScrubAndFlash : Prop :=
  ∀ s : State,
    (∀ (c : Fin 2) (find : EccFind),
      let p : Page := .dramc c.val
      let k := s.scrubPos c.val % scrubLines
      let nxt := (k + 1) % scrubLines
      let runs := s.role.mode ≠ .boot ∧ bit (s.rd p DRAMC.SCRUB_CTL) 0 = true ∧ s.isolated p = false
      let moved := { s with scrub := Tbl.set {} c.val { pos := nxt } s.scrub }
      let chan := scrubAddr c.val k / 256 % 8
      (¬ runs → exec (.scrubRead c find) s = .next s) ∧
      (runs → s.poisoned (scrubAddr c.val k) 64 = false →
        (nxt ≠ 0 → Ends (.scrubRead c .clean) s moved [] (fun _ => True)) ∧
        (nxt = 0 → Ends (.scrubRead c .clean) s moved [key p DRAMC.SCRUB_STS, key p HDR.IRQ_STS] (fun t =>
          bit (t.rd p HDR.IRQ_STS) 17 = true ∧
          t.rdf p DRAMC.SCRUB_STS 31 16 = min 0xFFFF (s.rdf p DRAMC.SCRUB_STS 31 16 + 1))) ∧
        (nxt ≠ 0 → Ends (.scrubRead c .corrected) s
          { moved with ecc := Tbl.put (sourceOf p chan) (Tbl.get 0 (sourceOf p chan) s.ecc + 1) s.ecc }
          [key p (win chan DRAMCW.CH_CE), key p DRAMC.CE_TOTAL, key p DRAMC.SCRUB_FIX] (fun t =>
            t.rd p (win chan DRAMCW.CH_CE) = oneMore (s.rd p (win chan DRAMCW.CH_CE)) ∧
            t.rd p DRAMC.CE_TOTAL = oneMore (s.rd p DRAMC.CE_TOTAL) ∧ t.rd p DRAMC.SCRUB_FIX = oneMore (s.rd p DRAMC.SCRUB_FIX)))) ∧
      (runs → ∃ t, exec (.scrubRead c .uncorrectable) s = .next t ∧ t.scrubPos c.val = nxt ∧ t.dram = s.dram ∧
        t.poisoned (scrubAddr c.val k) 64 = true ∧ t.rd p DRAMC.UE_TOTAL = oneMore (s.rd p DRAMC.UE_TOTAL) ∧
        bit (t.rd p HDR.IRQ_STS) 16 = true)) ∧
    (∀ src, s.accepts src .flash FLASH.FL_CMD 1 → Ends (.flRead src) s
      { s with
        flashRun := s.flashOwner
        flashJob := some (.read (s.rdf .flash FLASH.FL_OFS 29 0) (s.rd2 .flash FLASH.FL_DRAM_LO % 2 ^ 34) (s.rdf .flash FLASH.FL_LEN 29 0)) } [] (fun _ => True)) ∧
    (∀ src slot, s.accepts src .flash FLASH.FL_CMD (BitVec.ofNat 32 (b2n slot * 256 + 2)) → Ends (.slotWrite src slot) s
      { s with
        flashRun := s.flashOwner
        flashJob := some (.slotWrite (b2n slot) (s.rd2 .flash FLASH.FL_DRAM_LO % 2 ^ 34) 0) } [] (fun _ => True)) ∧
    (∀ src, s.accepts src .flash FLASH.CKPT_CMD 1 →
      let fails := fun (code : Nat) => Ends (.ckptGo src) s
        { s with ckpt := { state := 5 }, ledger := (s.ckptRecord code s.ckptTarget s.ckptLen s.ckptSeq).ledger }
        [key .flash FLASH.CKPT_STS, key .flash HDR.IRQ_STS] (fun t => t.rdf .flash FLASH.CKPT_STS 7 0 = code ∧
          bit (t.rd .flash HDR.IRQ_STS) 18 = true)
      let takes := s.role.mode = .active ∨ s.role.mode = .hotStandby
      (s.role.mode = .test → fails E_MODE) ∧ (s.role.mode ≠ .test → s.flashSize = 0 → fails E_NOFLASH) ∧
      (s.flashSize ≠ 0 → ¬ takes → fails E_MODE) ∧ (s.flashSize ≠ 0 → takes → s.ckptHalf < s.ckptLen → fails E_CKPTSIZE) ∧
      (s.flashSize ≠ 0 → takes → s.ckptLen ≤ s.ckptHalf → Ends (.ckptGo src) s { s with ckpt := { state := 1 } } [] (fun _ => True))) ∧
    (s.working .flash = false ∨ s.flashOwner = none → ∀ ok, exec (.flashOpDone ok) s = .next s) ∧
    (∀ snap copy seq name step, s.working .flash = true → s.flashOwner = some .keys →
      s.keyring.commit = some ⟨snap, some (copy, seq, name), step⟩ → s.flashSize ≠ 0 →
      let at_ := storeOfs copy
      let goes := fun (t : State) (n : Nat) => t.keyring = { s.keyring with commit := some ⟨snap, some (copy, seq, name), n⟩ } ∧
        sameState { s with flashRun := none, keyring := t.keyring, flash := t.flash, freeCtr := t.freeCtr } t ∧ keepsRegs s t []
      (step = 3 → Ends (.flashOpDone true) s
        { s with flashRun := none, keyring := { s.keyring with commit := some ⟨snap, some (copy, seq, name), 4⟩ } } [] (fun _ => True)) ∧
      (step = 4 → name.length = 32 → ∃ (t : State) (blobs : List (List Byte)), exec (.flashOpDone true) s = .next t ∧ goes t 5 ∧ blobs.length = (byDepth snap).length ∧
        blobs.all (blobGood name) = true ∧ ∀ a, t.fbyte a = if at_ + 64 ≤ a ∧ a < at_ + 64 + blobs.flatten.length
          then blobs.flatten.getD (a - (at_ + 64)) 0 else s.fbyte a) ∧
      (step = 5 → let blobs := chunks 80 snap.length (s.readFlash (at_ + 64) (80 * snap.length))
        ∃ t, exec (.flashOpDone true) s = .next t ∧ goes t 6 ∧
          ∀ a, t.fbyte a = if at_ ≤ a ∧ a < at_ + 64 then (storeCopy seq blobs).getD (a - at_) 0 else s.fbyte a) ∧
      Ends (.flashOpDone false) s { s with
        flashRun := none
        keyring := { s.keyring with commit := none }
        ledger := (s.emit .keyring 0x061 0 (leBytes 1 E_STORE ++ leBytes 1 copy ++ leBytes 2 snap.length ++ [0, 0, 0, 0] ++ leBytes 8 seq)).ledger }
        [key .keyring KEYRING.KR_STORE_STS, key .keyring HDR.IRQ_STS] (fun t =>
          t.rdf .keyring KEYRING.KR_STORE_STS 31 28 = 4 ∧ t.rdf .keyring KEYRING.KR_STORE_STS 23 16 = E_STORE ∧
          bit (t.rd .keyring HDR.IRQ_STS) 18 = true)) ∧
    (s.working .flash = true → s.flashOwner = some .manager →
      let regs := [key .flash FLASH.FL_RESULT, key .flash HDR.IRQ_STS]
      let idle := { s with flashRun := none, flashJob := none }
      let shows := fun (c : Nat) (t : State) => t.rd .flash FLASH.FL_RESULT = BitVec.ofNat 32 c ∧ bit (t.rd .flash HDR.IRQ_STS) 16 = true
      (∀ ofs dram len ok, s.flashJob = some (.read ofs dram len) →
        (s.flashSize = 0 → Ends (.flashOpDone ok) s idle regs (shows E_NOFLASH)) ∧
        (s.flashSize ≠ 0 → dram + len ≤ dramSize → s.poison = [] → ∃ t, exec (.flashOpDone ok) s = .next t ∧ shows 0 t ∧
          (∀ a, t.byte a = if dram ≤ a ∧ a < dram + len then s.fbyte (ofs + (a - dram)) else s.byte a) ∧
          sameState { idle with dram := t.dram } t ∧ keepsRegs s t regs)) ∧
      (∀ slot dram stage, s.flashJob = some (.slotWrite slot dram stage) → s.poison = [] →
        let len := s.leMem (dram + 4) 4
        let image := s.readMem dram (min 1048576 len)
        let note := fun (code : Nat) =>
          (s.emit .flash 0x0B2 0 (leBytes 1 slot ++ leBytes 1 code ++ [0, 0] ++ leBytes 4 (s.leMem (dram + 8) 4))).ledger
        let ends := fun (ok : Bool) (code : Nat) => Ends (.flashOpDone ok) s { idle with ledger := note code } regs (shows code)
        let goes := fun (t : State) => sameState { s with flashRun := none, flash := t.flash, flashJob := t.flashJob, ledger := t.ledger } t ∧
          (s.role.mode ≠ .safe → t.flashJob = some (.slotWrite slot dram (stage + 1)) ∧ t.ledger = s.ledger ∧ keepsRegs s t []) ∧
          (s.role.mode = .safe → t.flashJob = none ∧ shows E_MODE t ∧ t.ledger = note E_MODE ∧ keepsRegs s t regs)
        (s.flashSize = 0 → ∀ ok, ends ok E_NOFLASH) ∧
        (s.flashSize ≠ 0 → stage = 0 → bootImageOk image = false → ∀ ok, ends ok E_FLIMG) ∧
        (s.flashSize ≠ 0 → stage = 0 → bootImageOk image = true → dram + len ≤ dramSize → ∃ t, exec (.flashOpDone true) s = .next t ∧
          goes t ∧ ∀ a, t.fbyte a = if slot * 1048576 ≤ a ∧ a < slot * 1048576 + 1048576 then 0xFF else s.fbyte a) ∧
        (s.flashSize ≠ 0 → stage = 1 → ∃ t, exec (.flashOpDone true) s = .next t ∧ goes t ∧
          ∀ a, t.fbyte a = if slot * 1048576 ≤ a ∧ a < slot * 1048576 + len then s.byte (dram + (a - slot * 1048576)) else s.fbyte a) ∧
        (s.flashSize ≠ 0 → 2 ≤ stage → ends true 0 ∧ ends false E_FLASH) ∧
        (s.flashSize ≠ 0 → stage = 1 → ∃ t, exec (.flashOpDone false) s = .next t ∧ t.flashJob = none ∧ shows E_FLASH t))) ∧
    (s.working .flash = true → s.flashOwner = some .ckpt → s.poison = [] →
      let k := s.ckpt
      let seq := s.ckptSeq
      let copy := s.ckptCopy seq
      let at_ := s.ckptOfs s.ckptTarget
      let fails := fun (code : Nat) (t : State) => t.ckpt = { state := 5 } ∧ t.rdf .flash FLASH.CKPT_STS 7 0 = code ∧
        bit (t.rd .flash HDR.IRQ_STS) 18 = true ∧ keepsRegs s t [key .flash FLASH.CKPT_STS, key .flash HDR.IRQ_STS]
      let kept := fun (t : State) => sameState { s with flashRun := none, ckpt := t.ckpt, flash := t.flash } t ∧ keepsRegs s t []
      (k.stage < 3 → ∃ t, exec (.flashOpDone false) s = .next t ∧ fails E_FLASH t) ∧
      (k.stage < 2 → s.role.mode = .safe → ∃ t, exec (.flashOpDone true) s = .next t ∧ fails E_MODE t) ∧
      (k.stage = 0 → s.role.mode ≠ .safe → ∃ t, exec (.flashOpDone true) s = .next t ∧ t.ckpt = { k with stage := 1 } ∧ kept t ∧
        ∀ a, t.fbyte a = if at_ ≤ a ∧ a < at_ + ceilDiv copy.length 65536 * 65536 then 0xFF else s.fbyte a) ∧
      (k.stage = 1 → s.role.mode ≠ .safe → ∃ t, exec (.flashOpDone true) s = .next t ∧ t.ckpt = { k with stage := 2 } ∧ kept t ∧
        ∀ a, t.fbyte a = if at_ + 64 ≤ a ∧ a < at_ + 64 + (copy.drop 64).length then copy.getD (a - at_) 0 else s.fbyte a) ∧
      (k.stage = 2 → ∃ t, exec (.flashOpDone true) s = .next t ∧
        t.ckpt = { k with stage := 3, target := some (s.ckptTarget, seq, copy.length) } ∧ kept t ∧
        ∀ a, t.fbyte a = if at_ ≤ a ∧ a < at_ + 64 then copy.getD (a - at_) 0 else s.fbyte a) ∧
      (∀ c n len, 3 ≤ k.stage → k.target = some (c, n, len) →
        (∃ t, exec (.flashOpDone false) s = .next t ∧ fails E_FLASH t) ∧
        (s.role.mode = .safe → ∃ t, exec (.flashOpDone true) s = .next t ∧ fails E_MODE t) ∧
        (s.role.mode ≠ .safe → Ends (.flashOpDone true) s
          { s with flashRun := none, ckpt := { state := 4 }, ledger := (s.ckptRecord 0 c len n).ledger }
          [key .flash FLASH.CKPT_STS, key .flash FLASH.CKPT_SEQ_LO, key .flash (FLASH.CKPT_SEQ_LO + 4), key .flash FLASH.CKPT_LEN_LO,
            key .flash (FLASH.CKPT_LEN_LO + 4), key .flash HDR.IRQ_STS] (fun t =>
            t.rdf .flash FLASH.CKPT_STS 24 24 = c % 2 ∧ t.rdf .flash FLASH.CKPT_STS 7 0 = 0 ∧ t.rd2 .flash FLASH.CKPT_SEQ_LO = n % 2 ^ 64 ∧
            t.rd2 .flash FLASH.CKPT_LEN_LO = len % 2 ^ 64 ∧ bit (t.rd .flash HDR.IRQ_STS) 17 = true))))
end

