-- ==== Sys2Proof/Laws/State.lean ====
section
/-! SUPPORT. Sys2Proof/Laws/State.lean: what each named update of the state leaves alone, one lemma per field, and what a register
reads after a write. -/
namespace Sys2Proof.Machine

@[simp] theorem State.wr_pending (s : State) (p : Page) (o : Nat) (w : Word) : (s.wr p o w).pending = s.pending := rfl
@[simp] theorem State.wr_shadow (s : State) (p : Page) (o : Nat) (w : Word) : (s.wr p o w).shadow = s.shadow := rfl
@[simp] theorem State.wr_latch (s : State) (p : Page) (o : Nat) (w : Word) : (s.wr p o w).latch = s.latch := rfl
@[simp] theorem State.wr_srst (s : State) (p : Page) (o : Nat) (w : Word) : (s.wr p o w).srst = s.srst := rfl
@[simp] theorem State.wr_msixMask (s : State) (p : Page) (o : Nat) (w : Word) : (s.wr p o w).msixMask = s.msixMask := rfl
@[simp] theorem State.wr_msixPend (s : State) (p : Page) (o : Nat) (w : Word) : (s.wr p o w).msixPend = s.msixPend := rfl
@[simp] theorem State.wr_dram (s : State) (p : Page) (o : Nat) (w : Word) : (s.wr p o w).dram = s.dram := rfl
@[simp] theorem State.wr_poison (s : State) (p : Page) (o : Nat) (w : Word) : (s.wr p o w).poison = s.poison := rfl
@[simp] theorem State.wr_flash (s : State) (p : Page) (o : Nat) (w : Word) : (s.wr p o w).flash = s.flash := rfl
@[simp] theorem State.wr_flashJob (s : State) (p : Page) (o : Nat) (w : Word) : (s.wr p o w).flashJob = s.flashJob := rfl
@[simp] theorem State.wr_flashRun (s : State) (p : Page) (o : Nat) (w : Word) : (s.wr p o w).flashRun = s.flashRun := rfl
@[simp] theorem State.wr_ckpt (s : State) (p : Page) (o : Nat) (w : Word) : (s.wr p o w).ckpt = s.ckpt := rfl
@[simp] theorem State.wr_restoredPubs (s : State) (p : Page) (o : Nat) (w : Word) : (s.wr p o w).restoredPubs = s.restoredPubs := rfl
@[simp] theorem State.wr_scrub (s : State) (p : Page) (o : Nat) (w : Word) : (s.wr p o w).scrub = s.scrub := rfl
@[simp] theorem State.wr_ledger (s : State) (p : Page) (o : Nat) (w : Word) : (s.wr p o w).ledger = s.ledger := rfl
@[simp] theorem State.wr_ecc (s : State) (p : Page) (o : Nat) (w : Word) : (s.wr p o w).ecc = s.ecc := rfl
@[simp] theorem State.wr_scans (s : State) (p : Page) (o : Nat) (w : Word) : (s.wr p o w).scans = s.scans := rfl
@[simp] theorem State.wr_time (s : State) (p : Page) (o : Nat) (w : Word) : (s.wr p o w).time = s.time := rfl
@[simp] theorem State.wr_cells (s : State) (p : Page) (o : Nat) (w : Word) : (s.wr p o w).cells = s.cells := rfl
@[simp] theorem State.wr_guests (s : State) (p : Page) (o : Nat) (w : Word) : (s.wr p o w).guests = s.guests := rfl
@[simp] theorem State.wr_gcmds (s : State) (p : Page) (o : Nat) (w : Word) : (s.wr p o w).gcmds = s.gcmds := rfl
@[simp] theorem State.wr_patchJobs (s : State) (p : Page) (o : Nat) (w : Word) : (s.wr p o w).patchJobs = s.patchJobs := rfl
@[simp] theorem State.wr_patchPend (s : State) (p : Page) (o : Nat) (w : Word) : (s.wr p o w).patchPend = s.patchPend := rfl
@[simp] theorem State.wr_pointJob (s : State) (p : Page) (o : Nat) (w : Word) : (s.wr p o w).pointJob = s.pointJob := rfl
@[simp] theorem State.wr_ptNow (s : State) (p : Page) (o : Nat) (w : Word) : (s.wr p o w).ptNow = s.ptNow := rfl
@[simp] theorem State.wr_preCommit (s : State) (p : Page) (o : Nat) (w : Word) : (s.wr p o w).preCommit = s.preCommit := rfl
@[simp] theorem State.wr_exbLoad (s : State) (p : Page) (o : Nat) (w : Word) : (s.wr p o w).exbLoad = s.exbLoad := rfl
@[simp] theorem State.wr_pubs (s : State) (p : Page) (o : Nat) (w : Word) : (s.wr p o w).pubs = s.pubs := rfl
@[simp] theorem State.wr_addrCount (s : State) (p : Page) (o : Nat) (w : Word) : (s.wr p o w).addrCount = s.addrCount := rfl
@[simp] theorem State.wr_pubJob (s : State) (p : Page) (o : Nat) (w : Word) : (s.wr p o w).pubJob = s.pubJob := rfl
@[simp] theorem State.wr_pubAccept (s : State) (p : Page) (o : Nat) (w : Word) : (s.wr p o w).pubAccept = s.pubAccept := rfl
@[simp] theorem State.wr_due (s : State) (p : Page) (o : Nat) (w : Word) : (s.wr p o w).due = s.due := rfl
@[simp] theorem State.wr_nsq (s : State) (p : Page) (o : Nat) (w : Word) : (s.wr p o w).nsq = s.nsq := rfl
@[simp] theorem State.wr_unitSeq (s : State) (p : Page) (o : Nat) (w : Word) : (s.wr p o w).unitSeq = s.unitSeq := rfl
@[simp] theorem State.wr_link (s : State) (p : Page) (o : Nat) (w : Word) : (s.wr p o w).link = s.link := rfl
@[simp] theorem State.wr_wire (s : State) (p : Page) (o : Nat) (w : Word) : (s.wr p o w).wire = s.wire := rfl
@[simp] theorem State.wr_dd (s : State) (p : Page) (o : Nat) (w : Word) : (s.wr p o w).dd = s.dd := rfl
@[simp] theorem State.wr_porter (s : State) (p : Page) (o : Nat) (w : Word) : (s.wr p o w).porter = s.porter := rfl
@[simp] theorem State.wr_align (s : State) (p : Page) (o : Nat) (w : Word) : (s.wr p o w).align = s.align := rfl
@[simp] theorem State.wr_keyring (s : State) (p : Page) (o : Nat) (w : Word) : (s.wr p o w).keyring = s.keyring := rfl
@[simp] theorem State.wr_hinge (s : State) (p : Page) (o : Nat) (w : Word) : (s.wr p o w).hinge = s.hinge := rfl
@[simp] theorem State.wr_role (s : State) (p : Page) (o : Nat) (w : Word) : (s.wr p o w).role = s.role := rfl
@[simp] theorem State.wr_courier (s : State) (p : Page) (o : Nat) (w : Word) : (s.wr p o w).courier = s.courier := rfl
@[simp] theorem State.wr_analog (s : State) (p : Page) (o : Nat) (w : Word) : (s.wr p o w).analog = s.analog := rfl
@[simp] theorem State.wr_clk (s : State) (p : Page) (o : Nat) (w : Word) : (s.wr p o w).clk = s.clk := rfl
@[simp] theorem State.wr_tap (s : State) (p : Page) (o : Nat) (w : Word) : (s.wr p o w).tap = s.tap := rfl
@[simp] theorem State.wr_padsTaken (s : State) (p : Page) (o : Nat) (w : Word) : (s.wr p o w).padsTaken = s.padsTaken := rfl
@[simp] theorem State.wr_chipLost (s : State) (p : Page) (o : Nat) (w : Word) : (s.wr p o w).chipLost = s.chipLost := rfl
@[simp] theorem State.wr_unitB (s : State) (p : Page) (o : Nat) (w : Word) : (s.wr p o w).unitB = s.unitB := rfl
@[simp] theorem State.wr_freeCtr (s : State) (p : Page) (o : Nat) (w : Word) : (s.wr p o w).freeCtr = s.freeCtr := rfl
@[simp] theorem State.wr_sent (s : State) (p : Page) (o : Nat) (w : Word) : (s.wr p o w).sent = s.sent := rfl

@[simp] theorem State.wrf_pending (s : State) (p : Page) (o hi lo v : Nat) : (s.wrf p o hi lo v).pending = s.pending := rfl
@[simp] theorem State.wrf_shadow (s : State) (p : Page) (o hi lo v : Nat) : (s.wrf p o hi lo v).shadow = s.shadow := rfl
@[simp] theorem State.wrf_latch (s : State) (p : Page) (o hi lo v : Nat) : (s.wrf p o hi lo v).latch = s.latch := rfl
@[simp] theorem State.wrf_srst (s : State) (p : Page) (o hi lo v : Nat) : (s.wrf p o hi lo v).srst = s.srst := rfl
@[simp] theorem State.wrf_msixMask (s : State) (p : Page) (o hi lo v : Nat) : (s.wrf p o hi lo v).msixMask = s.msixMask := rfl
@[simp] theorem State.wrf_msixPend (s : State) (p : Page) (o hi lo v : Nat) : (s.wrf p o hi lo v).msixPend = s.msixPend := rfl
@[simp] theorem State.wrf_dram (s : State) (p : Page) (o hi lo v : Nat) : (s.wrf p o hi lo v).dram = s.dram := rfl
@[simp] theorem State.wrf_poison (s : State) (p : Page) (o hi lo v : Nat) : (s.wrf p o hi lo v).poison = s.poison := rfl
@[simp] theorem State.wrf_flash (s : State) (p : Page) (o hi lo v : Nat) : (s.wrf p o hi lo v).flash = s.flash := rfl
@[simp] theorem State.wrf_flashJob (s : State) (p : Page) (o hi lo v : Nat) : (s.wrf p o hi lo v).flashJob = s.flashJob := rfl
@[simp] theorem State.wrf_flashRun (s : State) (p : Page) (o hi lo v : Nat) : (s.wrf p o hi lo v).flashRun = s.flashRun := rfl
@[simp] theorem State.wrf_ckpt (s : State) (p : Page) (o hi lo v : Nat) : (s.wrf p o hi lo v).ckpt = s.ckpt := rfl
@[simp] theorem State.wrf_restoredPubs (s : State) (p : Page) (o hi lo v : Nat) : (s.wrf p o hi lo v).restoredPubs = s.restoredPubs := rfl
@[simp] theorem State.wrf_scrub (s : State) (p : Page) (o hi lo v : Nat) : (s.wrf p o hi lo v).scrub = s.scrub := rfl
@[simp] theorem State.wrf_ledger (s : State) (p : Page) (o hi lo v : Nat) : (s.wrf p o hi lo v).ledger = s.ledger := rfl
@[simp] theorem State.wrf_ecc (s : State) (p : Page) (o hi lo v : Nat) : (s.wrf p o hi lo v).ecc = s.ecc := rfl
@[simp] theorem State.wrf_scans (s : State) (p : Page) (o hi lo v : Nat) : (s.wrf p o hi lo v).scans = s.scans := rfl
@[simp] theorem State.wrf_time (s : State) (p : Page) (o hi lo v : Nat) : (s.wrf p o hi lo v).time = s.time := rfl
@[simp] theorem State.wrf_cells (s : State) (p : Page) (o hi lo v : Nat) : (s.wrf p o hi lo v).cells = s.cells := rfl
@[simp] theorem State.wrf_guests (s : State) (p : Page) (o hi lo v : Nat) : (s.wrf p o hi lo v).guests = s.guests := rfl
@[simp] theorem State.wrf_gcmds (s : State) (p : Page) (o hi lo v : Nat) : (s.wrf p o hi lo v).gcmds = s.gcmds := rfl
@[simp] theorem State.wrf_patchJobs (s : State) (p : Page) (o hi lo v : Nat) : (s.wrf p o hi lo v).patchJobs = s.patchJobs := rfl
@[simp] theorem State.wrf_patchPend (s : State) (p : Page) (o hi lo v : Nat) : (s.wrf p o hi lo v).patchPend = s.patchPend := rfl
@[simp] theorem State.wrf_pointJob (s : State) (p : Page) (o hi lo v : Nat) : (s.wrf p o hi lo v).pointJob = s.pointJob := rfl
@[simp] theorem State.wrf_ptNow (s : State) (p : Page) (o hi lo v : Nat) : (s.wrf p o hi lo v).ptNow = s.ptNow := rfl
@[simp] theorem State.wrf_preCommit (s : State) (p : Page) (o hi lo v : Nat) : (s.wrf p o hi lo v).preCommit = s.preCommit := rfl
@[simp] theorem State.wrf_exbLoad (s : State) (p : Page) (o hi lo v : Nat) : (s.wrf p o hi lo v).exbLoad = s.exbLoad := rfl
@[simp] theorem State.wrf_pubs (s : State) (p : Page) (o hi lo v : Nat) : (s.wrf p o hi lo v).pubs = s.pubs := rfl
@[simp] theorem State.wrf_addrCount (s : State) (p : Page) (o hi lo v : Nat) : (s.wrf p o hi lo v).addrCount = s.addrCount := rfl
@[simp] theorem State.wrf_pubJob (s : State) (p : Page) (o hi lo v : Nat) : (s.wrf p o hi lo v).pubJob = s.pubJob := rfl
@[simp] theorem State.wrf_pubAccept (s : State) (p : Page) (o hi lo v : Nat) : (s.wrf p o hi lo v).pubAccept = s.pubAccept := rfl
@[simp] theorem State.wrf_due (s : State) (p : Page) (o hi lo v : Nat) : (s.wrf p o hi lo v).due = s.due := rfl
@[simp] theorem State.wrf_nsq (s : State) (p : Page) (o hi lo v : Nat) : (s.wrf p o hi lo v).nsq = s.nsq := rfl
@[simp] theorem State.wrf_unitSeq (s : State) (p : Page) (o hi lo v : Nat) : (s.wrf p o hi lo v).unitSeq = s.unitSeq := rfl
@[simp] theorem State.wrf_link (s : State) (p : Page) (o hi lo v : Nat) : (s.wrf p o hi lo v).link = s.link := rfl
@[simp] theorem State.wrf_wire (s : State) (p : Page) (o hi lo v : Nat) : (s.wrf p o hi lo v).wire = s.wire := rfl
@[simp] theorem State.wrf_dd (s : State) (p : Page) (o hi lo v : Nat) : (s.wrf p o hi lo v).dd = s.dd := rfl
@[simp] theorem State.wrf_porter (s : State) (p : Page) (o hi lo v : Nat) : (s.wrf p o hi lo v).porter = s.porter := rfl
@[simp] theorem State.wrf_align (s : State) (p : Page) (o hi lo v : Nat) : (s.wrf p o hi lo v).align = s.align := rfl
@[simp] theorem State.wrf_keyring (s : State) (p : Page) (o hi lo v : Nat) : (s.wrf p o hi lo v).keyring = s.keyring := rfl
@[simp] theorem State.wrf_hinge (s : State) (p : Page) (o hi lo v : Nat) : (s.wrf p o hi lo v).hinge = s.hinge := rfl
@[simp] theorem State.wrf_role (s : State) (p : Page) (o hi lo v : Nat) : (s.wrf p o hi lo v).role = s.role := rfl
@[simp] theorem State.wrf_courier (s : State) (p : Page) (o hi lo v : Nat) : (s.wrf p o hi lo v).courier = s.courier := rfl
@[simp] theorem State.wrf_analog (s : State) (p : Page) (o hi lo v : Nat) : (s.wrf p o hi lo v).analog = s.analog := rfl
@[simp] theorem State.wrf_clk (s : State) (p : Page) (o hi lo v : Nat) : (s.wrf p o hi lo v).clk = s.clk := rfl
@[simp] theorem State.wrf_tap (s : State) (p : Page) (o hi lo v : Nat) : (s.wrf p o hi lo v).tap = s.tap := rfl
@[simp] theorem State.wrf_padsTaken (s : State) (p : Page) (o hi lo v : Nat) : (s.wrf p o hi lo v).padsTaken = s.padsTaken := rfl
@[simp] theorem State.wrf_chipLost (s : State) (p : Page) (o hi lo v : Nat) : (s.wrf p o hi lo v).chipLost = s.chipLost := rfl
@[simp] theorem State.wrf_unitB (s : State) (p : Page) (o hi lo v : Nat) : (s.wrf p o hi lo v).unitB = s.unitB := rfl
@[simp] theorem State.wrf_freeCtr (s : State) (p : Page) (o hi lo v : Nat) : (s.wrf p o hi lo v).freeCtr = s.freeCtr := rfl
@[simp] theorem State.wrf_sent (s : State) (p : Page) (o hi lo v : Nat) : (s.wrf p o hi lo v).sent = s.sent := rfl

@[simp] theorem State.wrn_pending (s : State) (p : Page) (o v : Nat) : (s.wrn p o v).pending = s.pending := rfl
@[simp] theorem State.wrn_shadow (s : State) (p : Page) (o v : Nat) : (s.wrn p o v).shadow = s.shadow := rfl
@[simp] theorem State.wrn_latch (s : State) (p : Page) (o v : Nat) : (s.wrn p o v).latch = s.latch := rfl
@[simp] theorem State.wrn_srst (s : State) (p : Page) (o v : Nat) : (s.wrn p o v).srst = s.srst := rfl
@[simp] theorem State.wrn_msixMask (s : State) (p : Page) (o v : Nat) : (s.wrn p o v).msixMask = s.msixMask := rfl
@[simp] theorem State.wrn_msixPend (s : State) (p : Page) (o v : Nat) : (s.wrn p o v).msixPend = s.msixPend := rfl
@[simp] theorem State.wrn_dram (s : State) (p : Page) (o v : Nat) : (s.wrn p o v).dram = s.dram := rfl
@[simp] theorem State.wrn_poison (s : State) (p : Page) (o v : Nat) : (s.wrn p o v).poison = s.poison := rfl
@[simp] theorem State.wrn_flash (s : State) (p : Page) (o v : Nat) : (s.wrn p o v).flash = s.flash := rfl
@[simp] theorem State.wrn_flashJob (s : State) (p : Page) (o v : Nat) : (s.wrn p o v).flashJob = s.flashJob := rfl
@[simp] theorem State.wrn_flashRun (s : State) (p : Page) (o v : Nat) : (s.wrn p o v).flashRun = s.flashRun := rfl
@[simp] theorem State.wrn_ckpt (s : State) (p : Page) (o v : Nat) : (s.wrn p o v).ckpt = s.ckpt := rfl
@[simp] theorem State.wrn_restoredPubs (s : State) (p : Page) (o v : Nat) : (s.wrn p o v).restoredPubs = s.restoredPubs := rfl
@[simp] theorem State.wrn_scrub (s : State) (p : Page) (o v : Nat) : (s.wrn p o v).scrub = s.scrub := rfl
@[simp] theorem State.wrn_ledger (s : State) (p : Page) (o v : Nat) : (s.wrn p o v).ledger = s.ledger := rfl
@[simp] theorem State.wrn_ecc (s : State) (p : Page) (o v : Nat) : (s.wrn p o v).ecc = s.ecc := rfl
@[simp] theorem State.wrn_scans (s : State) (p : Page) (o v : Nat) : (s.wrn p o v).scans = s.scans := rfl
@[simp] theorem State.wrn_time (s : State) (p : Page) (o v : Nat) : (s.wrn p o v).time = s.time := rfl
@[simp] theorem State.wrn_cells (s : State) (p : Page) (o v : Nat) : (s.wrn p o v).cells = s.cells := rfl
@[simp] theorem State.wrn_guests (s : State) (p : Page) (o v : Nat) : (s.wrn p o v).guests = s.guests := rfl
@[simp] theorem State.wrn_gcmds (s : State) (p : Page) (o v : Nat) : (s.wrn p o v).gcmds = s.gcmds := rfl
@[simp] theorem State.wrn_patchJobs (s : State) (p : Page) (o v : Nat) : (s.wrn p o v).patchJobs = s.patchJobs := rfl
@[simp] theorem State.wrn_patchPend (s : State) (p : Page) (o v : Nat) : (s.wrn p o v).patchPend = s.patchPend := rfl
@[simp] theorem State.wrn_pointJob (s : State) (p : Page) (o v : Nat) : (s.wrn p o v).pointJob = s.pointJob := rfl
@[simp] theorem State.wrn_ptNow (s : State) (p : Page) (o v : Nat) : (s.wrn p o v).ptNow = s.ptNow := rfl
@[simp] theorem State.wrn_preCommit (s : State) (p : Page) (o v : Nat) : (s.wrn p o v).preCommit = s.preCommit := rfl
@[simp] theorem State.wrn_exbLoad (s : State) (p : Page) (o v : Nat) : (s.wrn p o v).exbLoad = s.exbLoad := rfl
@[simp] theorem State.wrn_pubs (s : State) (p : Page) (o v : Nat) : (s.wrn p o v).pubs = s.pubs := rfl
@[simp] theorem State.wrn_addrCount (s : State) (p : Page) (o v : Nat) : (s.wrn p o v).addrCount = s.addrCount := rfl
@[simp] theorem State.wrn_pubJob (s : State) (p : Page) (o v : Nat) : (s.wrn p o v).pubJob = s.pubJob := rfl
@[simp] theorem State.wrn_pubAccept (s : State) (p : Page) (o v : Nat) : (s.wrn p o v).pubAccept = s.pubAccept := rfl
@[simp] theorem State.wrn_due (s : State) (p : Page) (o v : Nat) : (s.wrn p o v).due = s.due := rfl
@[simp] theorem State.wrn_nsq (s : State) (p : Page) (o v : Nat) : (s.wrn p o v).nsq = s.nsq := rfl
@[simp] theorem State.wrn_unitSeq (s : State) (p : Page) (o v : Nat) : (s.wrn p o v).unitSeq = s.unitSeq := rfl
@[simp] theorem State.wrn_link (s : State) (p : Page) (o v : Nat) : (s.wrn p o v).link = s.link := rfl
@[simp] theorem State.wrn_wire (s : State) (p : Page) (o v : Nat) : (s.wrn p o v).wire = s.wire := rfl
@[simp] theorem State.wrn_dd (s : State) (p : Page) (o v : Nat) : (s.wrn p o v).dd = s.dd := rfl
@[simp] theorem State.wrn_porter (s : State) (p : Page) (o v : Nat) : (s.wrn p o v).porter = s.porter := rfl
@[simp] theorem State.wrn_align (s : State) (p : Page) (o v : Nat) : (s.wrn p o v).align = s.align := rfl
@[simp] theorem State.wrn_keyring (s : State) (p : Page) (o v : Nat) : (s.wrn p o v).keyring = s.keyring := rfl
@[simp] theorem State.wrn_hinge (s : State) (p : Page) (o v : Nat) : (s.wrn p o v).hinge = s.hinge := rfl
@[simp] theorem State.wrn_role (s : State) (p : Page) (o v : Nat) : (s.wrn p o v).role = s.role := rfl
@[simp] theorem State.wrn_courier (s : State) (p : Page) (o v : Nat) : (s.wrn p o v).courier = s.courier := rfl
@[simp] theorem State.wrn_analog (s : State) (p : Page) (o v : Nat) : (s.wrn p o v).analog = s.analog := rfl
@[simp] theorem State.wrn_clk (s : State) (p : Page) (o v : Nat) : (s.wrn p o v).clk = s.clk := rfl
@[simp] theorem State.wrn_tap (s : State) (p : Page) (o v : Nat) : (s.wrn p o v).tap = s.tap := rfl
@[simp] theorem State.wrn_padsTaken (s : State) (p : Page) (o v : Nat) : (s.wrn p o v).padsTaken = s.padsTaken := rfl
@[simp] theorem State.wrn_chipLost (s : State) (p : Page) (o v : Nat) : (s.wrn p o v).chipLost = s.chipLost := rfl
@[simp] theorem State.wrn_unitB (s : State) (p : Page) (o v : Nat) : (s.wrn p o v).unitB = s.unitB := rfl
@[simp] theorem State.wrn_freeCtr (s : State) (p : Page) (o v : Nat) : (s.wrn p o v).freeCtr = s.freeCtr := rfl
@[simp] theorem State.wrn_sent (s : State) (p : Page) (o v : Nat) : (s.wrn p o v).sent = s.sent := rfl

@[simp] theorem State.wr2_pending (s : State) (p : Page) (o v : Nat) : (s.wr2 p o v).pending = s.pending := rfl
@[simp] theorem State.wr2_shadow (s : State) (p : Page) (o v : Nat) : (s.wr2 p o v).shadow = s.shadow := rfl
@[simp] theorem State.wr2_latch (s : State) (p : Page) (o v : Nat) : (s.wr2 p o v).latch = s.latch := rfl
@[simp] theorem State.wr2_srst (s : State) (p : Page) (o v : Nat) : (s.wr2 p o v).srst = s.srst := rfl
@[simp] theorem State.wr2_msixMask (s : State) (p : Page) (o v : Nat) : (s.wr2 p o v).msixMask = s.msixMask := rfl
@[simp] theorem State.wr2_msixPend (s : State) (p : Page) (o v : Nat) : (s.wr2 p o v).msixPend = s.msixPend := rfl
@[simp] theorem State.wr2_dram (s : State) (p : Page) (o v : Nat) : (s.wr2 p o v).dram = s.dram := rfl
@[simp] theorem State.wr2_poison (s : State) (p : Page) (o v : Nat) : (s.wr2 p o v).poison = s.poison := rfl
@[simp] theorem State.wr2_flash (s : State) (p : Page) (o v : Nat) : (s.wr2 p o v).flash = s.flash := rfl
@[simp] theorem State.wr2_flashJob (s : State) (p : Page) (o v : Nat) : (s.wr2 p o v).flashJob = s.flashJob := rfl
@[simp] theorem State.wr2_flashRun (s : State) (p : Page) (o v : Nat) : (s.wr2 p o v).flashRun = s.flashRun := rfl
@[simp] theorem State.wr2_ckpt (s : State) (p : Page) (o v : Nat) : (s.wr2 p o v).ckpt = s.ckpt := rfl
@[simp] theorem State.wr2_restoredPubs (s : State) (p : Page) (o v : Nat) : (s.wr2 p o v).restoredPubs = s.restoredPubs := rfl
@[simp] theorem State.wr2_scrub (s : State) (p : Page) (o v : Nat) : (s.wr2 p o v).scrub = s.scrub := rfl
@[simp] theorem State.wr2_ledger (s : State) (p : Page) (o v : Nat) : (s.wr2 p o v).ledger = s.ledger := rfl
@[simp] theorem State.wr2_ecc (s : State) (p : Page) (o v : Nat) : (s.wr2 p o v).ecc = s.ecc := rfl
@[simp] theorem State.wr2_scans (s : State) (p : Page) (o v : Nat) : (s.wr2 p o v).scans = s.scans := rfl
@[simp] theorem State.wr2_time (s : State) (p : Page) (o v : Nat) : (s.wr2 p o v).time = s.time := rfl
@[simp] theorem State.wr2_cells (s : State) (p : Page) (o v : Nat) : (s.wr2 p o v).cells = s.cells := rfl
@[simp] theorem State.wr2_guests (s : State) (p : Page) (o v : Nat) : (s.wr2 p o v).guests = s.guests := rfl
@[simp] theorem State.wr2_gcmds (s : State) (p : Page) (o v : Nat) : (s.wr2 p o v).gcmds = s.gcmds := rfl
@[simp] theorem State.wr2_patchJobs (s : State) (p : Page) (o v : Nat) : (s.wr2 p o v).patchJobs = s.patchJobs := rfl
@[simp] theorem State.wr2_patchPend (s : State) (p : Page) (o v : Nat) : (s.wr2 p o v).patchPend = s.patchPend := rfl
@[simp] theorem State.wr2_pointJob (s : State) (p : Page) (o v : Nat) : (s.wr2 p o v).pointJob = s.pointJob := rfl
@[simp] theorem State.wr2_ptNow (s : State) (p : Page) (o v : Nat) : (s.wr2 p o v).ptNow = s.ptNow := rfl
@[simp] theorem State.wr2_preCommit (s : State) (p : Page) (o v : Nat) : (s.wr2 p o v).preCommit = s.preCommit := rfl
@[simp] theorem State.wr2_exbLoad (s : State) (p : Page) (o v : Nat) : (s.wr2 p o v).exbLoad = s.exbLoad := rfl
@[simp] theorem State.wr2_pubs (s : State) (p : Page) (o v : Nat) : (s.wr2 p o v).pubs = s.pubs := rfl
@[simp] theorem State.wr2_addrCount (s : State) (p : Page) (o v : Nat) : (s.wr2 p o v).addrCount = s.addrCount := rfl
@[simp] theorem State.wr2_pubJob (s : State) (p : Page) (o v : Nat) : (s.wr2 p o v).pubJob = s.pubJob := rfl
@[simp] theorem State.wr2_pubAccept (s : State) (p : Page) (o v : Nat) : (s.wr2 p o v).pubAccept = s.pubAccept := rfl
@[simp] theorem State.wr2_due (s : State) (p : Page) (o v : Nat) : (s.wr2 p o v).due = s.due := rfl
@[simp] theorem State.wr2_nsq (s : State) (p : Page) (o v : Nat) : (s.wr2 p o v).nsq = s.nsq := rfl
@[simp] theorem State.wr2_unitSeq (s : State) (p : Page) (o v : Nat) : (s.wr2 p o v).unitSeq = s.unitSeq := rfl
@[simp] theorem State.wr2_link (s : State) (p : Page) (o v : Nat) : (s.wr2 p o v).link = s.link := rfl
@[simp] theorem State.wr2_wire (s : State) (p : Page) (o v : Nat) : (s.wr2 p o v).wire = s.wire := rfl
@[simp] theorem State.wr2_dd (s : State) (p : Page) (o v : Nat) : (s.wr2 p o v).dd = s.dd := rfl
@[simp] theorem State.wr2_porter (s : State) (p : Page) (o v : Nat) : (s.wr2 p o v).porter = s.porter := rfl
@[simp] theorem State.wr2_align (s : State) (p : Page) (o v : Nat) : (s.wr2 p o v).align = s.align := rfl
@[simp] theorem State.wr2_keyring (s : State) (p : Page) (o v : Nat) : (s.wr2 p o v).keyring = s.keyring := rfl
@[simp] theorem State.wr2_hinge (s : State) (p : Page) (o v : Nat) : (s.wr2 p o v).hinge = s.hinge := rfl
@[simp] theorem State.wr2_role (s : State) (p : Page) (o v : Nat) : (s.wr2 p o v).role = s.role := rfl
@[simp] theorem State.wr2_courier (s : State) (p : Page) (o v : Nat) : (s.wr2 p o v).courier = s.courier := rfl
@[simp] theorem State.wr2_analog (s : State) (p : Page) (o v : Nat) : (s.wr2 p o v).analog = s.analog := rfl
@[simp] theorem State.wr2_clk (s : State) (p : Page) (o v : Nat) : (s.wr2 p o v).clk = s.clk := rfl
@[simp] theorem State.wr2_tap (s : State) (p : Page) (o v : Nat) : (s.wr2 p o v).tap = s.tap := rfl
@[simp] theorem State.wr2_padsTaken (s : State) (p : Page) (o v : Nat) : (s.wr2 p o v).padsTaken = s.padsTaken := rfl
@[simp] theorem State.wr2_chipLost (s : State) (p : Page) (o v : Nat) : (s.wr2 p o v).chipLost = s.chipLost := rfl
@[simp] theorem State.wr2_unitB (s : State) (p : Page) (o v : Nat) : (s.wr2 p o v).unitB = s.unitB := rfl
@[simp] theorem State.wr2_freeCtr (s : State) (p : Page) (o v : Nat) : (s.wr2 p o v).freeCtr = s.freeCtr := rfl
@[simp] theorem State.wr2_sent (s : State) (p : Page) (o v : Nat) : (s.wr2 p o v).sent = s.sent := rfl

@[simp] theorem State.bump_pending (s : State) (p : Page) (o : Nat) : (s.bump p o).pending = s.pending := rfl
@[simp] theorem State.bump_shadow (s : State) (p : Page) (o : Nat) : (s.bump p o).shadow = s.shadow := rfl
@[simp] theorem State.bump_latch (s : State) (p : Page) (o : Nat) : (s.bump p o).latch = s.latch := rfl
@[simp] theorem State.bump_srst (s : State) (p : Page) (o : Nat) : (s.bump p o).srst = s.srst := rfl
@[simp] theorem State.bump_msixMask (s : State) (p : Page) (o : Nat) : (s.bump p o).msixMask = s.msixMask := rfl
@[simp] theorem State.bump_msixPend (s : State) (p : Page) (o : Nat) : (s.bump p o).msixPend = s.msixPend := rfl
@[simp] theorem State.bump_dram (s : State) (p : Page) (o : Nat) : (s.bump p o).dram = s.dram := rfl
@[simp] theorem State.bump_poison (s : State) (p : Page) (o : Nat) : (s.bump p o).poison = s.poison := rfl
@[simp] theorem State.bump_flash (s : State) (p : Page) (o : Nat) : (s.bump p o).flash = s.flash := rfl
@[simp] theorem State.bump_flashJob (s : State) (p : Page) (o : Nat) : (s.bump p o).flashJob = s.flashJob := rfl
@[simp] theorem State.bump_flashRun (s : State) (p : Page) (o : Nat) : (s.bump p o).flashRun = s.flashRun := rfl
@[simp] theorem State.bump_ckpt (s : State) (p : Page) (o : Nat) : (s.bump p o).ckpt = s.ckpt := rfl
@[simp] theorem State.bump_restoredPubs (s : State) (p : Page) (o : Nat) : (s.bump p o).restoredPubs = s.restoredPubs := rfl
@[simp] theorem State.bump_scrub (s : State) (p : Page) (o : Nat) : (s.bump p o).scrub = s.scrub := rfl
@[simp] theorem State.bump_ledger (s : State) (p : Page) (o : Nat) : (s.bump p o).ledger = s.ledger := rfl
@[simp] theorem State.bump_ecc (s : State) (p : Page) (o : Nat) : (s.bump p o).ecc = s.ecc := rfl
@[simp] theorem State.bump_scans (s : State) (p : Page) (o : Nat) : (s.bump p o).scans = s.scans := rfl
@[simp] theorem State.bump_time (s : State) (p : Page) (o : Nat) : (s.bump p o).time = s.time := rfl
@[simp] theorem State.bump_cells (s : State) (p : Page) (o : Nat) : (s.bump p o).cells = s.cells := rfl
@[simp] theorem State.bump_guests (s : State) (p : Page) (o : Nat) : (s.bump p o).guests = s.guests := rfl
@[simp] theorem State.bump_gcmds (s : State) (p : Page) (o : Nat) : (s.bump p o).gcmds = s.gcmds := rfl
@[simp] theorem State.bump_patchJobs (s : State) (p : Page) (o : Nat) : (s.bump p o).patchJobs = s.patchJobs := rfl
@[simp] theorem State.bump_patchPend (s : State) (p : Page) (o : Nat) : (s.bump p o).patchPend = s.patchPend := rfl
@[simp] theorem State.bump_pointJob (s : State) (p : Page) (o : Nat) : (s.bump p o).pointJob = s.pointJob := rfl
@[simp] theorem State.bump_ptNow (s : State) (p : Page) (o : Nat) : (s.bump p o).ptNow = s.ptNow := rfl
@[simp] theorem State.bump_preCommit (s : State) (p : Page) (o : Nat) : (s.bump p o).preCommit = s.preCommit := rfl
@[simp] theorem State.bump_exbLoad (s : State) (p : Page) (o : Nat) : (s.bump p o).exbLoad = s.exbLoad := rfl
@[simp] theorem State.bump_pubs (s : State) (p : Page) (o : Nat) : (s.bump p o).pubs = s.pubs := rfl
@[simp] theorem State.bump_addrCount (s : State) (p : Page) (o : Nat) : (s.bump p o).addrCount = s.addrCount := rfl
@[simp] theorem State.bump_pubJob (s : State) (p : Page) (o : Nat) : (s.bump p o).pubJob = s.pubJob := rfl
@[simp] theorem State.bump_pubAccept (s : State) (p : Page) (o : Nat) : (s.bump p o).pubAccept = s.pubAccept := rfl
@[simp] theorem State.bump_due (s : State) (p : Page) (o : Nat) : (s.bump p o).due = s.due := rfl
@[simp] theorem State.bump_nsq (s : State) (p : Page) (o : Nat) : (s.bump p o).nsq = s.nsq := rfl
@[simp] theorem State.bump_unitSeq (s : State) (p : Page) (o : Nat) : (s.bump p o).unitSeq = s.unitSeq := rfl
@[simp] theorem State.bump_link (s : State) (p : Page) (o : Nat) : (s.bump p o).link = s.link := rfl
@[simp] theorem State.bump_wire (s : State) (p : Page) (o : Nat) : (s.bump p o).wire = s.wire := rfl
@[simp] theorem State.bump_dd (s : State) (p : Page) (o : Nat) : (s.bump p o).dd = s.dd := rfl
@[simp] theorem State.bump_porter (s : State) (p : Page) (o : Nat) : (s.bump p o).porter = s.porter := rfl
@[simp] theorem State.bump_align (s : State) (p : Page) (o : Nat) : (s.bump p o).align = s.align := rfl
@[simp] theorem State.bump_keyring (s : State) (p : Page) (o : Nat) : (s.bump p o).keyring = s.keyring := rfl
@[simp] theorem State.bump_hinge (s : State) (p : Page) (o : Nat) : (s.bump p o).hinge = s.hinge := rfl
@[simp] theorem State.bump_role (s : State) (p : Page) (o : Nat) : (s.bump p o).role = s.role := rfl
@[simp] theorem State.bump_courier (s : State) (p : Page) (o : Nat) : (s.bump p o).courier = s.courier := rfl
@[simp] theorem State.bump_analog (s : State) (p : Page) (o : Nat) : (s.bump p o).analog = s.analog := rfl
@[simp] theorem State.bump_clk (s : State) (p : Page) (o : Nat) : (s.bump p o).clk = s.clk := rfl
@[simp] theorem State.bump_tap (s : State) (p : Page) (o : Nat) : (s.bump p o).tap = s.tap := rfl
@[simp] theorem State.bump_padsTaken (s : State) (p : Page) (o : Nat) : (s.bump p o).padsTaken = s.padsTaken := rfl
@[simp] theorem State.bump_chipLost (s : State) (p : Page) (o : Nat) : (s.bump p o).chipLost = s.chipLost := rfl
@[simp] theorem State.bump_unitB (s : State) (p : Page) (o : Nat) : (s.bump p o).unitB = s.unitB := rfl
@[simp] theorem State.bump_freeCtr (s : State) (p : Page) (o : Nat) : (s.bump p o).freeCtr = s.freeCtr := rfl
@[simp] theorem State.bump_sent (s : State) (p : Page) (o : Nat) : (s.bump p o).sent = s.sent := rfl

@[simp] theorem State.bumpBy_pending (s : State) (p : Page) (o n : Nat) : (s.bumpBy p o n).pending = s.pending := rfl
@[simp] theorem State.bumpBy_shadow (s : State) (p : Page) (o n : Nat) : (s.bumpBy p o n).shadow = s.shadow := rfl
@[simp] theorem State.bumpBy_latch (s : State) (p : Page) (o n : Nat) : (s.bumpBy p o n).latch = s.latch := rfl
@[simp] theorem State.bumpBy_srst (s : State) (p : Page) (o n : Nat) : (s.bumpBy p o n).srst = s.srst := rfl
@[simp] theorem State.bumpBy_msixMask (s : State) (p : Page) (o n : Nat) : (s.bumpBy p o n).msixMask = s.msixMask := rfl
@[simp] theorem State.bumpBy_msixPend (s : State) (p : Page) (o n : Nat) : (s.bumpBy p o n).msixPend = s.msixPend := rfl
@[simp] theorem State.bumpBy_dram (s : State) (p : Page) (o n : Nat) : (s.bumpBy p o n).dram = s.dram := rfl
@[simp] theorem State.bumpBy_poison (s : State) (p : Page) (o n : Nat) : (s.bumpBy p o n).poison = s.poison := rfl
@[simp] theorem State.bumpBy_flash (s : State) (p : Page) (o n : Nat) : (s.bumpBy p o n).flash = s.flash := rfl
@[simp] theorem State.bumpBy_flashJob (s : State) (p : Page) (o n : Nat) : (s.bumpBy p o n).flashJob = s.flashJob := rfl
@[simp] theorem State.bumpBy_flashRun (s : State) (p : Page) (o n : Nat) : (s.bumpBy p o n).flashRun = s.flashRun := rfl
@[simp] theorem State.bumpBy_ckpt (s : State) (p : Page) (o n : Nat) : (s.bumpBy p o n).ckpt = s.ckpt := rfl
@[simp] theorem State.bumpBy_restoredPubs (s : State) (p : Page) (o n : Nat) : (s.bumpBy p o n).restoredPubs = s.restoredPubs := rfl
@[simp] theorem State.bumpBy_scrub (s : State) (p : Page) (o n : Nat) : (s.bumpBy p o n).scrub = s.scrub := rfl
@[simp] theorem State.bumpBy_ledger (s : State) (p : Page) (o n : Nat) : (s.bumpBy p o n).ledger = s.ledger := rfl
@[simp] theorem State.bumpBy_ecc (s : State) (p : Page) (o n : Nat) : (s.bumpBy p o n).ecc = s.ecc := rfl
@[simp] theorem State.bumpBy_scans (s : State) (p : Page) (o n : Nat) : (s.bumpBy p o n).scans = s.scans := rfl
@[simp] theorem State.bumpBy_time (s : State) (p : Page) (o n : Nat) : (s.bumpBy p o n).time = s.time := rfl
@[simp] theorem State.bumpBy_cells (s : State) (p : Page) (o n : Nat) : (s.bumpBy p o n).cells = s.cells := rfl
@[simp] theorem State.bumpBy_guests (s : State) (p : Page) (o n : Nat) : (s.bumpBy p o n).guests = s.guests := rfl
@[simp] theorem State.bumpBy_gcmds (s : State) (p : Page) (o n : Nat) : (s.bumpBy p o n).gcmds = s.gcmds := rfl
@[simp] theorem State.bumpBy_patchJobs (s : State) (p : Page) (o n : Nat) : (s.bumpBy p o n).patchJobs = s.patchJobs := rfl
@[simp] theorem State.bumpBy_patchPend (s : State) (p : Page) (o n : Nat) : (s.bumpBy p o n).patchPend = s.patchPend := rfl
@[simp] theorem State.bumpBy_pointJob (s : State) (p : Page) (o n : Nat) : (s.bumpBy p o n).pointJob = s.pointJob := rfl
@[simp] theorem State.bumpBy_ptNow (s : State) (p : Page) (o n : Nat) : (s.bumpBy p o n).ptNow = s.ptNow := rfl
@[simp] theorem State.bumpBy_preCommit (s : State) (p : Page) (o n : Nat) : (s.bumpBy p o n).preCommit = s.preCommit := rfl
@[simp] theorem State.bumpBy_exbLoad (s : State) (p : Page) (o n : Nat) : (s.bumpBy p o n).exbLoad = s.exbLoad := rfl
@[simp] theorem State.bumpBy_pubs (s : State) (p : Page) (o n : Nat) : (s.bumpBy p o n).pubs = s.pubs := rfl
@[simp] theorem State.bumpBy_addrCount (s : State) (p : Page) (o n : Nat) : (s.bumpBy p o n).addrCount = s.addrCount := rfl
@[simp] theorem State.bumpBy_pubJob (s : State) (p : Page) (o n : Nat) : (s.bumpBy p o n).pubJob = s.pubJob := rfl
@[simp] theorem State.bumpBy_pubAccept (s : State) (p : Page) (o n : Nat) : (s.bumpBy p o n).pubAccept = s.pubAccept := rfl
@[simp] theorem State.bumpBy_due (s : State) (p : Page) (o n : Nat) : (s.bumpBy p o n).due = s.due := rfl
@[simp] theorem State.bumpBy_nsq (s : State) (p : Page) (o n : Nat) : (s.bumpBy p o n).nsq = s.nsq := rfl
@[simp] theorem State.bumpBy_unitSeq (s : State) (p : Page) (o n : Nat) : (s.bumpBy p o n).unitSeq = s.unitSeq := rfl
@[simp] theorem State.bumpBy_link (s : State) (p : Page) (o n : Nat) : (s.bumpBy p o n).link = s.link := rfl
@[simp] theorem State.bumpBy_wire (s : State) (p : Page) (o n : Nat) : (s.bumpBy p o n).wire = s.wire := rfl
@[simp] theorem State.bumpBy_dd (s : State) (p : Page) (o n : Nat) : (s.bumpBy p o n).dd = s.dd := rfl
@[simp] theorem State.bumpBy_porter (s : State) (p : Page) (o n : Nat) : (s.bumpBy p o n).porter = s.porter := rfl
@[simp] theorem State.bumpBy_align (s : State) (p : Page) (o n : Nat) : (s.bumpBy p o n).align = s.align := rfl
@[simp] theorem State.bumpBy_keyring (s : State) (p : Page) (o n : Nat) : (s.bumpBy p o n).keyring = s.keyring := rfl
@[simp] theorem State.bumpBy_hinge (s : State) (p : Page) (o n : Nat) : (s.bumpBy p o n).hinge = s.hinge := rfl
@[simp] theorem State.bumpBy_role (s : State) (p : Page) (o n : Nat) : (s.bumpBy p o n).role = s.role := rfl
@[simp] theorem State.bumpBy_courier (s : State) (p : Page) (o n : Nat) : (s.bumpBy p o n).courier = s.courier := rfl
@[simp] theorem State.bumpBy_analog (s : State) (p : Page) (o n : Nat) : (s.bumpBy p o n).analog = s.analog := rfl
@[simp] theorem State.bumpBy_clk (s : State) (p : Page) (o n : Nat) : (s.bumpBy p o n).clk = s.clk := rfl
@[simp] theorem State.bumpBy_tap (s : State) (p : Page) (o n : Nat) : (s.bumpBy p o n).tap = s.tap := rfl
@[simp] theorem State.bumpBy_padsTaken (s : State) (p : Page) (o n : Nat) : (s.bumpBy p o n).padsTaken = s.padsTaken := rfl
@[simp] theorem State.bumpBy_chipLost (s : State) (p : Page) (o n : Nat) : (s.bumpBy p o n).chipLost = s.chipLost := rfl
@[simp] theorem State.bumpBy_unitB (s : State) (p : Page) (o n : Nat) : (s.bumpBy p o n).unitB = s.unitB := rfl
@[simp] theorem State.bumpBy_freeCtr (s : State) (p : Page) (o n : Nat) : (s.bumpBy p o n).freeCtr = s.freeCtr := rfl
@[simp] theorem State.bumpBy_sent (s : State) (p : Page) (o n : Nat) : (s.bumpBy p o n).sent = s.sent := rfl

@[simp] theorem State.bumpf_pending (s : State) (p : Page) (o hi lo : Nat) : (s.bumpf p o hi lo).pending = s.pending := rfl
@[simp] theorem State.bumpf_shadow (s : State) (p : Page) (o hi lo : Nat) : (s.bumpf p o hi lo).shadow = s.shadow := rfl
@[simp] theorem State.bumpf_latch (s : State) (p : Page) (o hi lo : Nat) : (s.bumpf p o hi lo).latch = s.latch := rfl
@[simp] theorem State.bumpf_srst (s : State) (p : Page) (o hi lo : Nat) : (s.bumpf p o hi lo).srst = s.srst := rfl
@[simp] theorem State.bumpf_msixMask (s : State) (p : Page) (o hi lo : Nat) : (s.bumpf p o hi lo).msixMask = s.msixMask := rfl
@[simp] theorem State.bumpf_msixPend (s : State) (p : Page) (o hi lo : Nat) : (s.bumpf p o hi lo).msixPend = s.msixPend := rfl
@[simp] theorem State.bumpf_dram (s : State) (p : Page) (o hi lo : Nat) : (s.bumpf p o hi lo).dram = s.dram := rfl
@[simp] theorem State.bumpf_poison (s : State) (p : Page) (o hi lo : Nat) : (s.bumpf p o hi lo).poison = s.poison := rfl
@[simp] theorem State.bumpf_flash (s : State) (p : Page) (o hi lo : Nat) : (s.bumpf p o hi lo).flash = s.flash := rfl
@[simp] theorem State.bumpf_flashJob (s : State) (p : Page) (o hi lo : Nat) : (s.bumpf p o hi lo).flashJob = s.flashJob := rfl
@[simp] theorem State.bumpf_flashRun (s : State) (p : Page) (o hi lo : Nat) : (s.bumpf p o hi lo).flashRun = s.flashRun := rfl
@[simp] theorem State.bumpf_ckpt (s : State) (p : Page) (o hi lo : Nat) : (s.bumpf p o hi lo).ckpt = s.ckpt := rfl
@[simp] theorem State.bumpf_restoredPubs (s : State) (p : Page) (o hi lo : Nat) : (s.bumpf p o hi lo).restoredPubs = s.restoredPubs := rfl
@[simp] theorem State.bumpf_scrub (s : State) (p : Page) (o hi lo : Nat) : (s.bumpf p o hi lo).scrub = s.scrub := rfl
@[simp] theorem State.bumpf_ledger (s : State) (p : Page) (o hi lo : Nat) : (s.bumpf p o hi lo).ledger = s.ledger := rfl
@[simp] theorem State.bumpf_ecc (s : State) (p : Page) (o hi lo : Nat) : (s.bumpf p o hi lo).ecc = s.ecc := rfl
@[simp] theorem State.bumpf_scans (s : State) (p : Page) (o hi lo : Nat) : (s.bumpf p o hi lo).scans = s.scans := rfl
@[simp] theorem State.bumpf_time (s : State) (p : Page) (o hi lo : Nat) : (s.bumpf p o hi lo).time = s.time := rfl
@[simp] theorem State.bumpf_cells (s : State) (p : Page) (o hi lo : Nat) : (s.bumpf p o hi lo).cells = s.cells := rfl
@[simp] theorem State.bumpf_guests (s : State) (p : Page) (o hi lo : Nat) : (s.bumpf p o hi lo).guests = s.guests := rfl
@[simp] theorem State.bumpf_gcmds (s : State) (p : Page) (o hi lo : Nat) : (s.bumpf p o hi lo).gcmds = s.gcmds := rfl
@[simp] theorem State.bumpf_patchJobs (s : State) (p : Page) (o hi lo : Nat) : (s.bumpf p o hi lo).patchJobs = s.patchJobs := rfl
@[simp] theorem State.bumpf_patchPend (s : State) (p : Page) (o hi lo : Nat) : (s.bumpf p o hi lo).patchPend = s.patchPend := rfl
@[simp] theorem State.bumpf_pointJob (s : State) (p : Page) (o hi lo : Nat) : (s.bumpf p o hi lo).pointJob = s.pointJob := rfl
@[simp] theorem State.bumpf_ptNow (s : State) (p : Page) (o hi lo : Nat) : (s.bumpf p o hi lo).ptNow = s.ptNow := rfl
@[simp] theorem State.bumpf_preCommit (s : State) (p : Page) (o hi lo : Nat) : (s.bumpf p o hi lo).preCommit = s.preCommit := rfl
@[simp] theorem State.bumpf_exbLoad (s : State) (p : Page) (o hi lo : Nat) : (s.bumpf p o hi lo).exbLoad = s.exbLoad := rfl
@[simp] theorem State.bumpf_pubs (s : State) (p : Page) (o hi lo : Nat) : (s.bumpf p o hi lo).pubs = s.pubs := rfl
@[simp] theorem State.bumpf_addrCount (s : State) (p : Page) (o hi lo : Nat) : (s.bumpf p o hi lo).addrCount = s.addrCount := rfl
@[simp] theorem State.bumpf_pubJob (s : State) (p : Page) (o hi lo : Nat) : (s.bumpf p o hi lo).pubJob = s.pubJob := rfl
@[simp] theorem State.bumpf_pubAccept (s : State) (p : Page) (o hi lo : Nat) : (s.bumpf p o hi lo).pubAccept = s.pubAccept := rfl
@[simp] theorem State.bumpf_due (s : State) (p : Page) (o hi lo : Nat) : (s.bumpf p o hi lo).due = s.due := rfl
@[simp] theorem State.bumpf_nsq (s : State) (p : Page) (o hi lo : Nat) : (s.bumpf p o hi lo).nsq = s.nsq := rfl
@[simp] theorem State.bumpf_unitSeq (s : State) (p : Page) (o hi lo : Nat) : (s.bumpf p o hi lo).unitSeq = s.unitSeq := rfl
@[simp] theorem State.bumpf_link (s : State) (p : Page) (o hi lo : Nat) : (s.bumpf p o hi lo).link = s.link := rfl
@[simp] theorem State.bumpf_wire (s : State) (p : Page) (o hi lo : Nat) : (s.bumpf p o hi lo).wire = s.wire := rfl
@[simp] theorem State.bumpf_dd (s : State) (p : Page) (o hi lo : Nat) : (s.bumpf p o hi lo).dd = s.dd := rfl
@[simp] theorem State.bumpf_porter (s : State) (p : Page) (o hi lo : Nat) : (s.bumpf p o hi lo).porter = s.porter := rfl
@[simp] theorem State.bumpf_align (s : State) (p : Page) (o hi lo : Nat) : (s.bumpf p o hi lo).align = s.align := rfl
@[simp] theorem State.bumpf_keyring (s : State) (p : Page) (o hi lo : Nat) : (s.bumpf p o hi lo).keyring = s.keyring := rfl
@[simp] theorem State.bumpf_hinge (s : State) (p : Page) (o hi lo : Nat) : (s.bumpf p o hi lo).hinge = s.hinge := rfl
@[simp] theorem State.bumpf_role (s : State) (p : Page) (o hi lo : Nat) : (s.bumpf p o hi lo).role = s.role := rfl
@[simp] theorem State.bumpf_courier (s : State) (p : Page) (o hi lo : Nat) : (s.bumpf p o hi lo).courier = s.courier := rfl
@[simp] theorem State.bumpf_analog (s : State) (p : Page) (o hi lo : Nat) : (s.bumpf p o hi lo).analog = s.analog := rfl
@[simp] theorem State.bumpf_clk (s : State) (p : Page) (o hi lo : Nat) : (s.bumpf p o hi lo).clk = s.clk := rfl
@[simp] theorem State.bumpf_tap (s : State) (p : Page) (o hi lo : Nat) : (s.bumpf p o hi lo).tap = s.tap := rfl
@[simp] theorem State.bumpf_padsTaken (s : State) (p : Page) (o hi lo : Nat) : (s.bumpf p o hi lo).padsTaken = s.padsTaken := rfl
@[simp] theorem State.bumpf_chipLost (s : State) (p : Page) (o hi lo : Nat) : (s.bumpf p o hi lo).chipLost = s.chipLost := rfl
@[simp] theorem State.bumpf_unitB (s : State) (p : Page) (o hi lo : Nat) : (s.bumpf p o hi lo).unitB = s.unitB := rfl
@[simp] theorem State.bumpf_freeCtr (s : State) (p : Page) (o hi lo : Nat) : (s.bumpf p o hi lo).freeCtr = s.freeCtr := rfl
@[simp] theorem State.bumpf_sent (s : State) (p : Page) (o hi lo : Nat) : (s.bumpf p o hi lo).sent = s.sent := rfl

@[simp] theorem State.raise_pending (s : State) (p : Page) (b : Nat) : (s.raise p b).pending = s.pending := rfl
@[simp] theorem State.raise_shadow (s : State) (p : Page) (b : Nat) : (s.raise p b).shadow = s.shadow := rfl
@[simp] theorem State.raise_latch (s : State) (p : Page) (b : Nat) : (s.raise p b).latch = s.latch := rfl
@[simp] theorem State.raise_srst (s : State) (p : Page) (b : Nat) : (s.raise p b).srst = s.srst := rfl
@[simp] theorem State.raise_msixMask (s : State) (p : Page) (b : Nat) : (s.raise p b).msixMask = s.msixMask := rfl
@[simp] theorem State.raise_msixPend (s : State) (p : Page) (b : Nat) : (s.raise p b).msixPend = s.msixPend := rfl
@[simp] theorem State.raise_dram (s : State) (p : Page) (b : Nat) : (s.raise p b).dram = s.dram := rfl
@[simp] theorem State.raise_poison (s : State) (p : Page) (b : Nat) : (s.raise p b).poison = s.poison := rfl
@[simp] theorem State.raise_flash (s : State) (p : Page) (b : Nat) : (s.raise p b).flash = s.flash := rfl
@[simp] theorem State.raise_flashJob (s : State) (p : Page) (b : Nat) : (s.raise p b).flashJob = s.flashJob := rfl
@[simp] theorem State.raise_flashRun (s : State) (p : Page) (b : Nat) : (s.raise p b).flashRun = s.flashRun := rfl
@[simp] theorem State.raise_ckpt (s : State) (p : Page) (b : Nat) : (s.raise p b).ckpt = s.ckpt := rfl
@[simp] theorem State.raise_restoredPubs (s : State) (p : Page) (b : Nat) : (s.raise p b).restoredPubs = s.restoredPubs := rfl
@[simp] theorem State.raise_scrub (s : State) (p : Page) (b : Nat) : (s.raise p b).scrub = s.scrub := rfl
@[simp] theorem State.raise_ledger (s : State) (p : Page) (b : Nat) : (s.raise p b).ledger = s.ledger := rfl
@[simp] theorem State.raise_ecc (s : State) (p : Page) (b : Nat) : (s.raise p b).ecc = s.ecc := rfl
@[simp] theorem State.raise_scans (s : State) (p : Page) (b : Nat) : (s.raise p b).scans = s.scans := rfl
@[simp] theorem State.raise_time (s : State) (p : Page) (b : Nat) : (s.raise p b).time = s.time := rfl
@[simp] theorem State.raise_cells (s : State) (p : Page) (b : Nat) : (s.raise p b).cells = s.cells := rfl
@[simp] theorem State.raise_guests (s : State) (p : Page) (b : Nat) : (s.raise p b).guests = s.guests := rfl
@[simp] theorem State.raise_gcmds (s : State) (p : Page) (b : Nat) : (s.raise p b).gcmds = s.gcmds := rfl
@[simp] theorem State.raise_patchJobs (s : State) (p : Page) (b : Nat) : (s.raise p b).patchJobs = s.patchJobs := rfl
@[simp] theorem State.raise_patchPend (s : State) (p : Page) (b : Nat) : (s.raise p b).patchPend = s.patchPend := rfl
@[simp] theorem State.raise_pointJob (s : State) (p : Page) (b : Nat) : (s.raise p b).pointJob = s.pointJob := rfl
@[simp] theorem State.raise_ptNow (s : State) (p : Page) (b : Nat) : (s.raise p b).ptNow = s.ptNow := rfl
@[simp] theorem State.raise_preCommit (s : State) (p : Page) (b : Nat) : (s.raise p b).preCommit = s.preCommit := rfl
@[simp] theorem State.raise_exbLoad (s : State) (p : Page) (b : Nat) : (s.raise p b).exbLoad = s.exbLoad := rfl
@[simp] theorem State.raise_pubs (s : State) (p : Page) (b : Nat) : (s.raise p b).pubs = s.pubs := rfl
@[simp] theorem State.raise_addrCount (s : State) (p : Page) (b : Nat) : (s.raise p b).addrCount = s.addrCount := rfl
@[simp] theorem State.raise_pubJob (s : State) (p : Page) (b : Nat) : (s.raise p b).pubJob = s.pubJob := rfl
@[simp] theorem State.raise_pubAccept (s : State) (p : Page) (b : Nat) : (s.raise p b).pubAccept = s.pubAccept := rfl
@[simp] theorem State.raise_due (s : State) (p : Page) (b : Nat) : (s.raise p b).due = s.due := rfl
@[simp] theorem State.raise_nsq (s : State) (p : Page) (b : Nat) : (s.raise p b).nsq = s.nsq := rfl
@[simp] theorem State.raise_unitSeq (s : State) (p : Page) (b : Nat) : (s.raise p b).unitSeq = s.unitSeq := rfl
@[simp] theorem State.raise_link (s : State) (p : Page) (b : Nat) : (s.raise p b).link = s.link := rfl
@[simp] theorem State.raise_wire (s : State) (p : Page) (b : Nat) : (s.raise p b).wire = s.wire := rfl
@[simp] theorem State.raise_dd (s : State) (p : Page) (b : Nat) : (s.raise p b).dd = s.dd := rfl
@[simp] theorem State.raise_porter (s : State) (p : Page) (b : Nat) : (s.raise p b).porter = s.porter := rfl
@[simp] theorem State.raise_align (s : State) (p : Page) (b : Nat) : (s.raise p b).align = s.align := rfl
@[simp] theorem State.raise_keyring (s : State) (p : Page) (b : Nat) : (s.raise p b).keyring = s.keyring := rfl
@[simp] theorem State.raise_hinge (s : State) (p : Page) (b : Nat) : (s.raise p b).hinge = s.hinge := rfl
@[simp] theorem State.raise_role (s : State) (p : Page) (b : Nat) : (s.raise p b).role = s.role := rfl
@[simp] theorem State.raise_courier (s : State) (p : Page) (b : Nat) : (s.raise p b).courier = s.courier := rfl
@[simp] theorem State.raise_analog (s : State) (p : Page) (b : Nat) : (s.raise p b).analog = s.analog := rfl
@[simp] theorem State.raise_clk (s : State) (p : Page) (b : Nat) : (s.raise p b).clk = s.clk := rfl
@[simp] theorem State.raise_tap (s : State) (p : Page) (b : Nat) : (s.raise p b).tap = s.tap := rfl
@[simp] theorem State.raise_padsTaken (s : State) (p : Page) (b : Nat) : (s.raise p b).padsTaken = s.padsTaken := rfl
@[simp] theorem State.raise_chipLost (s : State) (p : Page) (b : Nat) : (s.raise p b).chipLost = s.chipLost := rfl
@[simp] theorem State.raise_unitB (s : State) (p : Page) (b : Nat) : (s.raise p b).unitB = s.unitB := rfl
@[simp] theorem State.raise_freeCtr (s : State) (p : Page) (b : Nat) : (s.raise p b).freeCtr = s.freeCtr := rfl
@[simp] theorem State.raise_sent (s : State) (p : Page) (b : Nat) : (s.raise p b).sent = s.sent := rfl

@[simp] theorem State.raiseCell_pending (s : State) (p : Page) (c b : Nat) : (s.raiseCell p c b).pending = s.pending := rfl
@[simp] theorem State.raiseCell_shadow (s : State) (p : Page) (c b : Nat) : (s.raiseCell p c b).shadow = s.shadow := rfl
@[simp] theorem State.raiseCell_latch (s : State) (p : Page) (c b : Nat) : (s.raiseCell p c b).latch = s.latch := rfl
@[simp] theorem State.raiseCell_srst (s : State) (p : Page) (c b : Nat) : (s.raiseCell p c b).srst = s.srst := rfl
@[simp] theorem State.raiseCell_msixMask (s : State) (p : Page) (c b : Nat) : (s.raiseCell p c b).msixMask = s.msixMask := rfl
@[simp] theorem State.raiseCell_msixPend (s : State) (p : Page) (c b : Nat) : (s.raiseCell p c b).msixPend = s.msixPend := rfl
@[simp] theorem State.raiseCell_dram (s : State) (p : Page) (c b : Nat) : (s.raiseCell p c b).dram = s.dram := rfl
@[simp] theorem State.raiseCell_poison (s : State) (p : Page) (c b : Nat) : (s.raiseCell p c b).poison = s.poison := rfl
@[simp] theorem State.raiseCell_flash (s : State) (p : Page) (c b : Nat) : (s.raiseCell p c b).flash = s.flash := rfl
@[simp] theorem State.raiseCell_flashJob (s : State) (p : Page) (c b : Nat) : (s.raiseCell p c b).flashJob = s.flashJob := rfl
@[simp] theorem State.raiseCell_flashRun (s : State) (p : Page) (c b : Nat) : (s.raiseCell p c b).flashRun = s.flashRun := rfl
@[simp] theorem State.raiseCell_ckpt (s : State) (p : Page) (c b : Nat) : (s.raiseCell p c b).ckpt = s.ckpt := rfl
@[simp] theorem State.raiseCell_restoredPubs (s : State) (p : Page) (c b : Nat) : (s.raiseCell p c b).restoredPubs = s.restoredPubs := rfl
@[simp] theorem State.raiseCell_scrub (s : State) (p : Page) (c b : Nat) : (s.raiseCell p c b).scrub = s.scrub := rfl
@[simp] theorem State.raiseCell_ledger (s : State) (p : Page) (c b : Nat) : (s.raiseCell p c b).ledger = s.ledger := rfl
@[simp] theorem State.raiseCell_ecc (s : State) (p : Page) (c b : Nat) : (s.raiseCell p c b).ecc = s.ecc := rfl
@[simp] theorem State.raiseCell_scans (s : State) (p : Page) (c b : Nat) : (s.raiseCell p c b).scans = s.scans := rfl
@[simp] theorem State.raiseCell_time (s : State) (p : Page) (c b : Nat) : (s.raiseCell p c b).time = s.time := rfl
@[simp] theorem State.raiseCell_cells (s : State) (p : Page) (c b : Nat) : (s.raiseCell p c b).cells = s.cells := rfl
@[simp] theorem State.raiseCell_guests (s : State) (p : Page) (c b : Nat) : (s.raiseCell p c b).guests = s.guests := rfl
@[simp] theorem State.raiseCell_gcmds (s : State) (p : Page) (c b : Nat) : (s.raiseCell p c b).gcmds = s.gcmds := rfl
@[simp] theorem State.raiseCell_patchJobs (s : State) (p : Page) (c b : Nat) : (s.raiseCell p c b).patchJobs = s.patchJobs := rfl
@[simp] theorem State.raiseCell_patchPend (s : State) (p : Page) (c b : Nat) : (s.raiseCell p c b).patchPend = s.patchPend := rfl
@[simp] theorem State.raiseCell_pointJob (s : State) (p : Page) (c b : Nat) : (s.raiseCell p c b).pointJob = s.pointJob := rfl
@[simp] theorem State.raiseCell_ptNow (s : State) (p : Page) (c b : Nat) : (s.raiseCell p c b).ptNow = s.ptNow := rfl
@[simp] theorem State.raiseCell_preCommit (s : State) (p : Page) (c b : Nat) : (s.raiseCell p c b).preCommit = s.preCommit := rfl
@[simp] theorem State.raiseCell_exbLoad (s : State) (p : Page) (c b : Nat) : (s.raiseCell p c b).exbLoad = s.exbLoad := rfl
@[simp] theorem State.raiseCell_pubs (s : State) (p : Page) (c b : Nat) : (s.raiseCell p c b).pubs = s.pubs := rfl
@[simp] theorem State.raiseCell_addrCount (s : State) (p : Page) (c b : Nat) : (s.raiseCell p c b).addrCount = s.addrCount := rfl
@[simp] theorem State.raiseCell_pubJob (s : State) (p : Page) (c b : Nat) : (s.raiseCell p c b).pubJob = s.pubJob := rfl
@[simp] theorem State.raiseCell_pubAccept (s : State) (p : Page) (c b : Nat) : (s.raiseCell p c b).pubAccept = s.pubAccept := rfl
@[simp] theorem State.raiseCell_due (s : State) (p : Page) (c b : Nat) : (s.raiseCell p c b).due = s.due := rfl
@[simp] theorem State.raiseCell_nsq (s : State) (p : Page) (c b : Nat) : (s.raiseCell p c b).nsq = s.nsq := rfl
@[simp] theorem State.raiseCell_unitSeq (s : State) (p : Page) (c b : Nat) : (s.raiseCell p c b).unitSeq = s.unitSeq := rfl
@[simp] theorem State.raiseCell_link (s : State) (p : Page) (c b : Nat) : (s.raiseCell p c b).link = s.link := rfl
@[simp] theorem State.raiseCell_wire (s : State) (p : Page) (c b : Nat) : (s.raiseCell p c b).wire = s.wire := rfl
@[simp] theorem State.raiseCell_dd (s : State) (p : Page) (c b : Nat) : (s.raiseCell p c b).dd = s.dd := rfl
@[simp] theorem State.raiseCell_porter (s : State) (p : Page) (c b : Nat) : (s.raiseCell p c b).porter = s.porter := rfl
@[simp] theorem State.raiseCell_align (s : State) (p : Page) (c b : Nat) : (s.raiseCell p c b).align = s.align := rfl
@[simp] theorem State.raiseCell_keyring (s : State) (p : Page) (c b : Nat) : (s.raiseCell p c b).keyring = s.keyring := rfl
@[simp] theorem State.raiseCell_hinge (s : State) (p : Page) (c b : Nat) : (s.raiseCell p c b).hinge = s.hinge := rfl
@[simp] theorem State.raiseCell_role (s : State) (p : Page) (c b : Nat) : (s.raiseCell p c b).role = s.role := rfl
@[simp] theorem State.raiseCell_courier (s : State) (p : Page) (c b : Nat) : (s.raiseCell p c b).courier = s.courier := rfl
@[simp] theorem State.raiseCell_analog (s : State) (p : Page) (c b : Nat) : (s.raiseCell p c b).analog = s.analog := rfl
@[simp] theorem State.raiseCell_clk (s : State) (p : Page) (c b : Nat) : (s.raiseCell p c b).clk = s.clk := rfl
@[simp] theorem State.raiseCell_tap (s : State) (p : Page) (c b : Nat) : (s.raiseCell p c b).tap = s.tap := rfl
@[simp] theorem State.raiseCell_padsTaken (s : State) (p : Page) (c b : Nat) : (s.raiseCell p c b).padsTaken = s.padsTaken := rfl
@[simp] theorem State.raiseCell_chipLost (s : State) (p : Page) (c b : Nat) : (s.raiseCell p c b).chipLost = s.chipLost := rfl
@[simp] theorem State.raiseCell_unitB (s : State) (p : Page) (c b : Nat) : (s.raiseCell p c b).unitB = s.unitB := rfl
@[simp] theorem State.raiseCell_freeCtr (s : State) (p : Page) (c b : Nat) : (s.raiseCell p c b).freeCtr = s.freeCtr := rfl
@[simp] theorem State.raiseCell_sent (s : State) (p : Page) (c b : Nat) : (s.raiseCell p c b).sent = s.sent := rfl

@[simp] theorem State.setCell_pending (s : State) (c : Nat) (x : Cell) : (s.setCell c x).pending = s.pending := rfl
@[simp] theorem State.setCell_regs (s : State) (c : Nat) (x : Cell) : (s.setCell c x).regs = s.regs := rfl
@[simp] theorem State.setCell_shadow (s : State) (c : Nat) (x : Cell) : (s.setCell c x).shadow = s.shadow := rfl
@[simp] theorem State.setCell_latch (s : State) (c : Nat) (x : Cell) : (s.setCell c x).latch = s.latch := rfl
@[simp] theorem State.setCell_srst (s : State) (c : Nat) (x : Cell) : (s.setCell c x).srst = s.srst := rfl
@[simp] theorem State.setCell_msixMask (s : State) (c : Nat) (x : Cell) : (s.setCell c x).msixMask = s.msixMask := rfl
@[simp] theorem State.setCell_msixPend (s : State) (c : Nat) (x : Cell) : (s.setCell c x).msixPend = s.msixPend := rfl
@[simp] theorem State.setCell_dram (s : State) (c : Nat) (x : Cell) : (s.setCell c x).dram = s.dram := rfl
@[simp] theorem State.setCell_poison (s : State) (c : Nat) (x : Cell) : (s.setCell c x).poison = s.poison := rfl
@[simp] theorem State.setCell_flash (s : State) (c : Nat) (x : Cell) : (s.setCell c x).flash = s.flash := rfl
@[simp] theorem State.setCell_flashJob (s : State) (c : Nat) (x : Cell) : (s.setCell c x).flashJob = s.flashJob := rfl
@[simp] theorem State.setCell_flashRun (s : State) (c : Nat) (x : Cell) : (s.setCell c x).flashRun = s.flashRun := rfl
@[simp] theorem State.setCell_ckpt (s : State) (c : Nat) (x : Cell) : (s.setCell c x).ckpt = s.ckpt := rfl
@[simp] theorem State.setCell_restoredPubs (s : State) (c : Nat) (x : Cell) : (s.setCell c x).restoredPubs = s.restoredPubs := rfl
@[simp] theorem State.setCell_scrub (s : State) (c : Nat) (x : Cell) : (s.setCell c x).scrub = s.scrub := rfl
@[simp] theorem State.setCell_ledger (s : State) (c : Nat) (x : Cell) : (s.setCell c x).ledger = s.ledger := rfl
@[simp] theorem State.setCell_ecc (s : State) (c : Nat) (x : Cell) : (s.setCell c x).ecc = s.ecc := rfl
@[simp] theorem State.setCell_scans (s : State) (c : Nat) (x : Cell) : (s.setCell c x).scans = s.scans := rfl
@[simp] theorem State.setCell_time (s : State) (c : Nat) (x : Cell) : (s.setCell c x).time = s.time := rfl
@[simp] theorem State.setCell_guests (s : State) (c : Nat) (x : Cell) : (s.setCell c x).guests = s.guests := rfl
@[simp] theorem State.setCell_gcmds (s : State) (c : Nat) (x : Cell) : (s.setCell c x).gcmds = s.gcmds := rfl
@[simp] theorem State.setCell_patchJobs (s : State) (c : Nat) (x : Cell) : (s.setCell c x).patchJobs = s.patchJobs := rfl
@[simp] theorem State.setCell_patchPend (s : State) (c : Nat) (x : Cell) : (s.setCell c x).patchPend = s.patchPend := rfl
@[simp] theorem State.setCell_pointJob (s : State) (c : Nat) (x : Cell) : (s.setCell c x).pointJob = s.pointJob := rfl
@[simp] theorem State.setCell_ptNow (s : State) (c : Nat) (x : Cell) : (s.setCell c x).ptNow = s.ptNow := rfl
@[simp] theorem State.setCell_preCommit (s : State) (c : Nat) (x : Cell) : (s.setCell c x).preCommit = s.preCommit := rfl
@[simp] theorem State.setCell_exbLoad (s : State) (c : Nat) (x : Cell) : (s.setCell c x).exbLoad = s.exbLoad := rfl
@[simp] theorem State.setCell_pubs (s : State) (c : Nat) (x : Cell) : (s.setCell c x).pubs = s.pubs := rfl
@[simp] theorem State.setCell_addrCount (s : State) (c : Nat) (x : Cell) : (s.setCell c x).addrCount = s.addrCount := rfl
@[simp] theorem State.setCell_pubJob (s : State) (c : Nat) (x : Cell) : (s.setCell c x).pubJob = s.pubJob := rfl
@[simp] theorem State.setCell_pubAccept (s : State) (c : Nat) (x : Cell) : (s.setCell c x).pubAccept = s.pubAccept := rfl
@[simp] theorem State.setCell_due (s : State) (c : Nat) (x : Cell) : (s.setCell c x).due = s.due := rfl
@[simp] theorem State.setCell_nsq (s : State) (c : Nat) (x : Cell) : (s.setCell c x).nsq = s.nsq := rfl
@[simp] theorem State.setCell_unitSeq (s : State) (c : Nat) (x : Cell) : (s.setCell c x).unitSeq = s.unitSeq := rfl
@[simp] theorem State.setCell_link (s : State) (c : Nat) (x : Cell) : (s.setCell c x).link = s.link := rfl
@[simp] theorem State.setCell_wire (s : State) (c : Nat) (x : Cell) : (s.setCell c x).wire = s.wire := rfl
@[simp] theorem State.setCell_dd (s : State) (c : Nat) (x : Cell) : (s.setCell c x).dd = s.dd := rfl
@[simp] theorem State.setCell_porter (s : State) (c : Nat) (x : Cell) : (s.setCell c x).porter = s.porter := rfl
@[simp] theorem State.setCell_align (s : State) (c : Nat) (x : Cell) : (s.setCell c x).align = s.align := rfl
@[simp] theorem State.setCell_keyring (s : State) (c : Nat) (x : Cell) : (s.setCell c x).keyring = s.keyring := rfl
@[simp] theorem State.setCell_hinge (s : State) (c : Nat) (x : Cell) : (s.setCell c x).hinge = s.hinge := rfl
@[simp] theorem State.setCell_role (s : State) (c : Nat) (x : Cell) : (s.setCell c x).role = s.role := rfl
@[simp] theorem State.setCell_courier (s : State) (c : Nat) (x : Cell) : (s.setCell c x).courier = s.courier := rfl
@[simp] theorem State.setCell_analog (s : State) (c : Nat) (x : Cell) : (s.setCell c x).analog = s.analog := rfl
@[simp] theorem State.setCell_clk (s : State) (c : Nat) (x : Cell) : (s.setCell c x).clk = s.clk := rfl
@[simp] theorem State.setCell_tap (s : State) (c : Nat) (x : Cell) : (s.setCell c x).tap = s.tap := rfl
@[simp] theorem State.setCell_padsTaken (s : State) (c : Nat) (x : Cell) : (s.setCell c x).padsTaken = s.padsTaken := rfl
@[simp] theorem State.setCell_chipLost (s : State) (c : Nat) (x : Cell) : (s.setCell c x).chipLost = s.chipLost := rfl
@[simp] theorem State.setCell_unitB (s : State) (c : Nat) (x : Cell) : (s.setCell c x).unitB = s.unitB := rfl
@[simp] theorem State.setCell_freeCtr (s : State) (c : Nat) (x : Cell) : (s.setCell c x).freeCtr = s.freeCtr := rfl
@[simp] theorem State.setCell_sent (s : State) (c : Nat) (x : Cell) : (s.setCell c x).sent = s.sent := rfl

@[simp] theorem State.setGuest_pending (s : State) (g : Nat) (x : Guest) : (s.setGuest g x).pending = s.pending := rfl
@[simp] theorem State.setGuest_regs (s : State) (g : Nat) (x : Guest) : (s.setGuest g x).regs = s.regs := rfl
@[simp] theorem State.setGuest_shadow (s : State) (g : Nat) (x : Guest) : (s.setGuest g x).shadow = s.shadow := rfl
@[simp] theorem State.setGuest_latch (s : State) (g : Nat) (x : Guest) : (s.setGuest g x).latch = s.latch := rfl
@[simp] theorem State.setGuest_srst (s : State) (g : Nat) (x : Guest) : (s.setGuest g x).srst = s.srst := rfl
@[simp] theorem State.setGuest_msixMask (s : State) (g : Nat) (x : Guest) : (s.setGuest g x).msixMask = s.msixMask := rfl
@[simp] theorem State.setGuest_msixPend (s : State) (g : Nat) (x : Guest) : (s.setGuest g x).msixPend = s.msixPend := rfl
@[simp] theorem State.setGuest_dram (s : State) (g : Nat) (x : Guest) : (s.setGuest g x).dram = s.dram := rfl
@[simp] theorem State.setGuest_poison (s : State) (g : Nat) (x : Guest) : (s.setGuest g x).poison = s.poison := rfl
@[simp] theorem State.setGuest_flash (s : State) (g : Nat) (x : Guest) : (s.setGuest g x).flash = s.flash := rfl
@[simp] theorem State.setGuest_flashJob (s : State) (g : Nat) (x : Guest) : (s.setGuest g x).flashJob = s.flashJob := rfl
@[simp] theorem State.setGuest_flashRun (s : State) (g : Nat) (x : Guest) : (s.setGuest g x).flashRun = s.flashRun := rfl
@[simp] theorem State.setGuest_ckpt (s : State) (g : Nat) (x : Guest) : (s.setGuest g x).ckpt = s.ckpt := rfl
@[simp] theorem State.setGuest_restoredPubs (s : State) (g : Nat) (x : Guest) : (s.setGuest g x).restoredPubs = s.restoredPubs := rfl
@[simp] theorem State.setGuest_scrub (s : State) (g : Nat) (x : Guest) : (s.setGuest g x).scrub = s.scrub := rfl
@[simp] theorem State.setGuest_ledger (s : State) (g : Nat) (x : Guest) : (s.setGuest g x).ledger = s.ledger := rfl
@[simp] theorem State.setGuest_ecc (s : State) (g : Nat) (x : Guest) : (s.setGuest g x).ecc = s.ecc := rfl
@[simp] theorem State.setGuest_scans (s : State) (g : Nat) (x : Guest) : (s.setGuest g x).scans = s.scans := rfl
@[simp] theorem State.setGuest_time (s : State) (g : Nat) (x : Guest) : (s.setGuest g x).time = s.time := rfl
@[simp] theorem State.setGuest_cells (s : State) (g : Nat) (x : Guest) : (s.setGuest g x).cells = s.cells := rfl
@[simp] theorem State.setGuest_gcmds (s : State) (g : Nat) (x : Guest) : (s.setGuest g x).gcmds = s.gcmds := rfl
@[simp] theorem State.setGuest_patchJobs (s : State) (g : Nat) (x : Guest) : (s.setGuest g x).patchJobs = s.patchJobs := rfl
@[simp] theorem State.setGuest_patchPend (s : State) (g : Nat) (x : Guest) : (s.setGuest g x).patchPend = s.patchPend := rfl
@[simp] theorem State.setGuest_pointJob (s : State) (g : Nat) (x : Guest) : (s.setGuest g x).pointJob = s.pointJob := rfl
@[simp] theorem State.setGuest_ptNow (s : State) (g : Nat) (x : Guest) : (s.setGuest g x).ptNow = s.ptNow := rfl
@[simp] theorem State.setGuest_preCommit (s : State) (g : Nat) (x : Guest) : (s.setGuest g x).preCommit = s.preCommit := rfl
@[simp] theorem State.setGuest_exbLoad (s : State) (g : Nat) (x : Guest) : (s.setGuest g x).exbLoad = s.exbLoad := rfl
@[simp] theorem State.setGuest_pubs (s : State) (g : Nat) (x : Guest) : (s.setGuest g x).pubs = s.pubs := rfl
@[simp] theorem State.setGuest_addrCount (s : State) (g : Nat) (x : Guest) : (s.setGuest g x).addrCount = s.addrCount := rfl
@[simp] theorem State.setGuest_pubJob (s : State) (g : Nat) (x : Guest) : (s.setGuest g x).pubJob = s.pubJob := rfl
@[simp] theorem State.setGuest_pubAccept (s : State) (g : Nat) (x : Guest) : (s.setGuest g x).pubAccept = s.pubAccept := rfl
@[simp] theorem State.setGuest_due (s : State) (g : Nat) (x : Guest) : (s.setGuest g x).due = s.due := rfl
@[simp] theorem State.setGuest_nsq (s : State) (g : Nat) (x : Guest) : (s.setGuest g x).nsq = s.nsq := rfl
@[simp] theorem State.setGuest_unitSeq (s : State) (g : Nat) (x : Guest) : (s.setGuest g x).unitSeq = s.unitSeq := rfl
@[simp] theorem State.setGuest_link (s : State) (g : Nat) (x : Guest) : (s.setGuest g x).link = s.link := rfl
@[simp] theorem State.setGuest_wire (s : State) (g : Nat) (x : Guest) : (s.setGuest g x).wire = s.wire := rfl
@[simp] theorem State.setGuest_dd (s : State) (g : Nat) (x : Guest) : (s.setGuest g x).dd = s.dd := rfl
@[simp] theorem State.setGuest_porter (s : State) (g : Nat) (x : Guest) : (s.setGuest g x).porter = s.porter := rfl
@[simp] theorem State.setGuest_align (s : State) (g : Nat) (x : Guest) : (s.setGuest g x).align = s.align := rfl
@[simp] theorem State.setGuest_keyring (s : State) (g : Nat) (x : Guest) : (s.setGuest g x).keyring = s.keyring := rfl
@[simp] theorem State.setGuest_hinge (s : State) (g : Nat) (x : Guest) : (s.setGuest g x).hinge = s.hinge := rfl
@[simp] theorem State.setGuest_role (s : State) (g : Nat) (x : Guest) : (s.setGuest g x).role = s.role := rfl
@[simp] theorem State.setGuest_courier (s : State) (g : Nat) (x : Guest) : (s.setGuest g x).courier = s.courier := rfl
@[simp] theorem State.setGuest_analog (s : State) (g : Nat) (x : Guest) : (s.setGuest g x).analog = s.analog := rfl
@[simp] theorem State.setGuest_clk (s : State) (g : Nat) (x : Guest) : (s.setGuest g x).clk = s.clk := rfl
@[simp] theorem State.setGuest_tap (s : State) (g : Nat) (x : Guest) : (s.setGuest g x).tap = s.tap := rfl
@[simp] theorem State.setGuest_padsTaken (s : State) (g : Nat) (x : Guest) : (s.setGuest g x).padsTaken = s.padsTaken := rfl
@[simp] theorem State.setGuest_chipLost (s : State) (g : Nat) (x : Guest) : (s.setGuest g x).chipLost = s.chipLost := rfl
@[simp] theorem State.setGuest_unitB (s : State) (g : Nat) (x : Guest) : (s.setGuest g x).unitB = s.unitB := rfl
@[simp] theorem State.setGuest_freeCtr (s : State) (g : Nat) (x : Guest) : (s.setGuest g x).freeCtr = s.freeCtr := rfl
@[simp] theorem State.setGuest_sent (s : State) (g : Nat) (x : Guest) : (s.setGuest g x).sent = s.sent := rfl

@[simp] theorem State.modTime_pending (s : State) (f : TimeSt → TimeSt) : (s.modTime f).pending = s.pending := rfl
@[simp] theorem State.modTime_regs (s : State) (f : TimeSt → TimeSt) : (s.modTime f).regs = s.regs := rfl
@[simp] theorem State.modTime_shadow (s : State) (f : TimeSt → TimeSt) : (s.modTime f).shadow = s.shadow := rfl
@[simp] theorem State.modTime_latch (s : State) (f : TimeSt → TimeSt) : (s.modTime f).latch = s.latch := rfl
@[simp] theorem State.modTime_srst (s : State) (f : TimeSt → TimeSt) : (s.modTime f).srst = s.srst := rfl
@[simp] theorem State.modTime_msixMask (s : State) (f : TimeSt → TimeSt) : (s.modTime f).msixMask = s.msixMask := rfl
@[simp] theorem State.modTime_msixPend (s : State) (f : TimeSt → TimeSt) : (s.modTime f).msixPend = s.msixPend := rfl
@[simp] theorem State.modTime_dram (s : State) (f : TimeSt → TimeSt) : (s.modTime f).dram = s.dram := rfl
@[simp] theorem State.modTime_poison (s : State) (f : TimeSt → TimeSt) : (s.modTime f).poison = s.poison := rfl
@[simp] theorem State.modTime_flash (s : State) (f : TimeSt → TimeSt) : (s.modTime f).flash = s.flash := rfl
@[simp] theorem State.modTime_flashJob (s : State) (f : TimeSt → TimeSt) : (s.modTime f).flashJob = s.flashJob := rfl
@[simp] theorem State.modTime_flashRun (s : State) (f : TimeSt → TimeSt) : (s.modTime f).flashRun = s.flashRun := rfl
@[simp] theorem State.modTime_ckpt (s : State) (f : TimeSt → TimeSt) : (s.modTime f).ckpt = s.ckpt := rfl
@[simp] theorem State.modTime_restoredPubs (s : State) (f : TimeSt → TimeSt) : (s.modTime f).restoredPubs = s.restoredPubs := rfl
@[simp] theorem State.modTime_scrub (s : State) (f : TimeSt → TimeSt) : (s.modTime f).scrub = s.scrub := rfl
@[simp] theorem State.modTime_ledger (s : State) (f : TimeSt → TimeSt) : (s.modTime f).ledger = s.ledger := rfl
@[simp] theorem State.modTime_ecc (s : State) (f : TimeSt → TimeSt) : (s.modTime f).ecc = s.ecc := rfl
@[simp] theorem State.modTime_scans (s : State) (f : TimeSt → TimeSt) : (s.modTime f).scans = s.scans := rfl
@[simp] theorem State.modTime_cells (s : State) (f : TimeSt → TimeSt) : (s.modTime f).cells = s.cells := rfl
@[simp] theorem State.modTime_guests (s : State) (f : TimeSt → TimeSt) : (s.modTime f).guests = s.guests := rfl
@[simp] theorem State.modTime_gcmds (s : State) (f : TimeSt → TimeSt) : (s.modTime f).gcmds = s.gcmds := rfl
@[simp] theorem State.modTime_patchJobs (s : State) (f : TimeSt → TimeSt) : (s.modTime f).patchJobs = s.patchJobs := rfl
@[simp] theorem State.modTime_patchPend (s : State) (f : TimeSt → TimeSt) : (s.modTime f).patchPend = s.patchPend := rfl
@[simp] theorem State.modTime_pointJob (s : State) (f : TimeSt → TimeSt) : (s.modTime f).pointJob = s.pointJob := rfl
@[simp] theorem State.modTime_ptNow (s : State) (f : TimeSt → TimeSt) : (s.modTime f).ptNow = s.ptNow := rfl
@[simp] theorem State.modTime_preCommit (s : State) (f : TimeSt → TimeSt) : (s.modTime f).preCommit = s.preCommit := rfl
@[simp] theorem State.modTime_exbLoad (s : State) (f : TimeSt → TimeSt) : (s.modTime f).exbLoad = s.exbLoad := rfl
@[simp] theorem State.modTime_pubs (s : State) (f : TimeSt → TimeSt) : (s.modTime f).pubs = s.pubs := rfl
@[simp] theorem State.modTime_addrCount (s : State) (f : TimeSt → TimeSt) : (s.modTime f).addrCount = s.addrCount := rfl
@[simp] theorem State.modTime_pubJob (s : State) (f : TimeSt → TimeSt) : (s.modTime f).pubJob = s.pubJob := rfl
@[simp] theorem State.modTime_pubAccept (s : State) (f : TimeSt → TimeSt) : (s.modTime f).pubAccept = s.pubAccept := rfl
@[simp] theorem State.modTime_due (s : State) (f : TimeSt → TimeSt) : (s.modTime f).due = s.due := rfl
@[simp] theorem State.modTime_nsq (s : State) (f : TimeSt → TimeSt) : (s.modTime f).nsq = s.nsq := rfl
@[simp] theorem State.modTime_unitSeq (s : State) (f : TimeSt → TimeSt) : (s.modTime f).unitSeq = s.unitSeq := rfl
@[simp] theorem State.modTime_link (s : State) (f : TimeSt → TimeSt) : (s.modTime f).link = s.link := rfl
@[simp] theorem State.modTime_wire (s : State) (f : TimeSt → TimeSt) : (s.modTime f).wire = s.wire := rfl
@[simp] theorem State.modTime_dd (s : State) (f : TimeSt → TimeSt) : (s.modTime f).dd = s.dd := rfl
@[simp] theorem State.modTime_porter (s : State) (f : TimeSt → TimeSt) : (s.modTime f).porter = s.porter := rfl
@[simp] theorem State.modTime_align (s : State) (f : TimeSt → TimeSt) : (s.modTime f).align = s.align := rfl
@[simp] theorem State.modTime_keyring (s : State) (f : TimeSt → TimeSt) : (s.modTime f).keyring = s.keyring := rfl
@[simp] theorem State.modTime_hinge (s : State) (f : TimeSt → TimeSt) : (s.modTime f).hinge = s.hinge := rfl
@[simp] theorem State.modTime_role (s : State) (f : TimeSt → TimeSt) : (s.modTime f).role = s.role := rfl
@[simp] theorem State.modTime_courier (s : State) (f : TimeSt → TimeSt) : (s.modTime f).courier = s.courier := rfl
@[simp] theorem State.modTime_analog (s : State) (f : TimeSt → TimeSt) : (s.modTime f).analog = s.analog := rfl
@[simp] theorem State.modTime_clk (s : State) (f : TimeSt → TimeSt) : (s.modTime f).clk = s.clk := rfl
@[simp] theorem State.modTime_tap (s : State) (f : TimeSt → TimeSt) : (s.modTime f).tap = s.tap := rfl
@[simp] theorem State.modTime_padsTaken (s : State) (f : TimeSt → TimeSt) : (s.modTime f).padsTaken = s.padsTaken := rfl
@[simp] theorem State.modTime_chipLost (s : State) (f : TimeSt → TimeSt) : (s.modTime f).chipLost = s.chipLost := rfl
@[simp] theorem State.modTime_unitB (s : State) (f : TimeSt → TimeSt) : (s.modTime f).unitB = s.unitB := rfl
@[simp] theorem State.modTime_freeCtr (s : State) (f : TimeSt → TimeSt) : (s.modTime f).freeCtr = s.freeCtr := rfl
@[simp] theorem State.modTime_sent (s : State) (f : TimeSt → TimeSt) : (s.modTime f).sent = s.sent := rfl

@[simp] theorem State.setCell_cells (s : State) (c : Nat) (x : Cell) : (s.setCell c x).cells = Tbl.set {} c x s.cells := rfl
@[simp] theorem State.setGuest_guests (s : State) (g : Nat) (x : Guest) : (s.setGuest g x).guests = Tbl.put g x s.guests := rfl
@[simp] theorem State.modTime_time (s : State) (f : TimeSt → TimeSt) : (s.modTime f).time = f s.time := rfl

end Sys2Proof.Machine
end

