-- ==== Sys2Proof/Laws/Tbl.lean ====
section
/-! SUPPORT. Sys2Proof/Laws/Tbl.lean: sparse tables: what a read gives after a write, and the canonical form. -/
namespace Sys2Proof.Machine

variable {α : Type}

theorem Tbl.get_put_same (d : α) (k : Nat) (v : α) (t : Tbl α) : Tbl.get d k (Tbl.put k v t) = v := by
  induction t with
  | nil => simp [Tbl.put, Tbl.get]
  | cons h t ih =>
    obtain ⟨i, w⟩ := h
    unfold Tbl.put
    split
    · simp [Tbl.get]
    · split
      · simp [Tbl.get]
      · rename_i h2
        simp [Tbl.get, Ne.symm h2, ih]

theorem Tbl.get_put_other (d : α) {k j : Nat} (v : α) (t : Tbl α) (h : j ≠ k) :
    Tbl.get d j (Tbl.put k v t) = Tbl.get d j t := by
  induction t with
  | nil => simp [Tbl.put, Tbl.get, Ne.symm h]
  | cons e t ih =>
    obtain ⟨i, w⟩ := e
    unfold Tbl.put
    split
    · simp [Tbl.get, Ne.symm h]
    · split
      · rename_i h1 h2; subst h2; simp [Tbl.get, Ne.symm h]
      · simp only [Tbl.get, ih]

theorem Tbl.get_del_same (d : α) (k : Nat) (t : Tbl α) : Tbl.get d k (Tbl.del k t) = d := by
  induction t with
  | nil => rfl
  | cons e t ih =>
    obtain ⟨i, w⟩ := e
    unfold Tbl.del
    split
    · exact ih
    · rename_i h; simp [Tbl.get, h, ih]

theorem Tbl.get_del_other (d : α) {k j : Nat} (t : Tbl α) (h : j ≠ k) : Tbl.get d j (Tbl.del k t) = Tbl.get d j t := by
  induction t with
  | nil => rfl
  | cons e t ih =>
    obtain ⟨i, w⟩ := e
    unfold Tbl.del
    split
    · rename_i h1; subst h1; simp [Tbl.get, Ne.symm h, ih]
    · simp only [Tbl.get, ih]

/-- A read gives what was written. -/
@[simp] theorem Tbl.get_set_same [DecidableEq α] (d : α) (k : Nat) (v : α) (t : Tbl α) :
    Tbl.get d k (Tbl.set d k v t) = v := by
  unfold Tbl.set
  split
  · rename_i h; rw [Tbl.get_del_same, h]
  · exact Tbl.get_put_same d k v t

/-- A write leaves every other key alone, whatever the unlisted keys read as. -/
theorem Tbl.get_set_other [DecidableEq α] (d e : α) {k j : Nat} (v : α) (t : Tbl α) (h : j ≠ k) :
    Tbl.get e j (Tbl.set d k v t) = Tbl.get e j t := by
  unfold Tbl.set
  split
  · exact Tbl.get_del_other e t h
  · exact Tbl.get_put_other e v t h

theorem Tbl.look_put_same (k : Nat) (v : α) (t : Tbl α) : Tbl.look k (Tbl.put k v t) = some v := by
  induction t with
  | nil => simp [Tbl.put, Tbl.look]
  | cons h t ih =>
    obtain ⟨i, w⟩ := h
    unfold Tbl.put
    split
    · simp [Tbl.look]
    · split
      · simp [Tbl.look]
      · rename_i h2
        simp [Tbl.look, Ne.symm h2, ih]

theorem Tbl.look_put_other {k j : Nat} (v : α) (t : Tbl α) (h : j ≠ k) :
    Tbl.look j (Tbl.put k v t) = Tbl.look j t := by
  induction t with
  | nil => simp [Tbl.put, Tbl.look, Ne.symm h]
  | cons e t ih =>
    obtain ⟨i, w⟩ := e
    unfold Tbl.put
    split
    · simp [Tbl.look, Ne.symm h]
    · split
      · rename_i h1 h2; subst h2; simp [Tbl.look, Ne.symm h]
      · simp only [Tbl.look, ih]

theorem Tbl.look_del_same (k : Nat) (t : Tbl α) : Tbl.look k (Tbl.del k t) = none := by
  induction t with
  | nil => rfl
  | cons e t ih =>
    obtain ⟨i, w⟩ := e
    unfold Tbl.del
    split
    · exact ih
    · rename_i h; simp [Tbl.look, h, ih]

theorem Tbl.look_del_other {k j : Nat} (t : Tbl α) (h : j ≠ k) : Tbl.look j (Tbl.del k t) = Tbl.look j t := by
  induction t with
  | nil => rfl
  | cons e t ih =>
    obtain ⟨i, w⟩ := e
    unfold Tbl.del
    split
    · rename_i h1; subst h1; simp [Tbl.look, Ne.symm h, ih]
    · simp only [Tbl.look, ih]

theorem Tbl.get_eq_look (d : α) (k : Nat) (t : Tbl α) : Tbl.get d k t = (Tbl.look k t).getD d := by
  induction t with
  | nil => rfl
  | cons e t ih => obtain ⟨i, w⟩ := e; simp only [Tbl.get, Tbl.look]; split <;> simp_all

/-! ### The canonical form -/

theorem Tbl.sortedAbove_weaken {lo : Option Nat} {t : Tbl α} (h : Tbl.sortedAbove lo t = true) :
    Tbl.sortedAbove none t = true := by
  cases t with
  | nil => rfl
  | cons e t => obtain ⟨i, w⟩ := e; simp [Tbl.sortedAbove] at h ⊢; exact h.2

theorem Tbl.sortedAbove_mono {a b : Nat} {t : Tbl α} (h : Tbl.sortedAbove (some b) t = true) (hab : a ≤ b) :
    Tbl.sortedAbove (some a) t = true := by
  cases t with
  | nil => rfl
  | cons e t =>
    obtain ⟨i, w⟩ := e
    simp [Tbl.sortedAbove] at h ⊢
    exact ⟨by omega, h.2⟩

theorem Tbl.sorted_del {t : Tbl α} (k : Nat) {lo : Option Nat} (h : Tbl.sortedAbove lo t = true) :
    Tbl.sortedAbove lo (Tbl.del k t) = true := by
  induction t generalizing lo with
  | nil => simpa [Tbl.del] using h
  | cons e t ih =>
    obtain ⟨i, w⟩ := e
    unfold Tbl.del
    cases lo with
    | none =>
      simp [Tbl.sortedAbove] at h
      split
      · exact ih (Tbl.sortedAbove_weaken h)
      · simp [Tbl.sortedAbove, ih h]
    | some l =>
      simp [Tbl.sortedAbove] at h
      split
      · exact ih (Tbl.sortedAbove_mono h.2 (by omega))
      · simp [Tbl.sortedAbove, h.1, ih h.2]

theorem Tbl.sorted_put {t : Tbl α} (k : Nat) (v : α) {lo : Option Nat} (h : Tbl.sortedAbove lo t = true)
    (hk : ∀ l, lo = some l → l < k) : Tbl.sortedAbove lo (Tbl.put k v t) = true := by
  induction t generalizing lo with
  | nil => cases lo <;> simp_all [Tbl.put, Tbl.sortedAbove]
  | cons e t ih =>
    obtain ⟨i, w⟩ := e
    have hs : Tbl.sortedAbove (some i) t = true := by cases lo <;> simp_all [Tbl.sortedAbove]
    unfold Tbl.put
    split
    · cases lo <;> simp_all [Tbl.sortedAbove]
    · split
      · rename_i h2; subst h2; cases lo <;> simp_all [Tbl.sortedAbove]
      · have h3 := ih hs (fun l hl => by cases hl; omega)
        cases lo <;> simp_all [Tbl.sortedAbove]

theorem Tbl.mem_del {k : Nat} {t : Tbl α} {e : Nat × α} (h : e ∈ Tbl.del k t) : e ∈ t := by
  induction t with
  | nil => exact absurd h (by simp [Tbl.del])
  | cons x t ih =>
    obtain ⟨i, w⟩ := x
    unfold Tbl.del at h
    split at h
    · exact List.mem_cons_of_mem _ (ih h)
    · cases h with
      | head => exact List.mem_cons_self
      | tail _ h => exact List.mem_cons_of_mem _ (ih h)

theorem Tbl.mem_put {k : Nat} {v : α} {t : Tbl α} {e : Nat × α} (h : e ∈ Tbl.put k v t) : e = (k, v) ∨ e ∈ t := by
  induction t with
  | nil => simp [Tbl.put] at h; exact .inl h
  | cons x t ih =>
    obtain ⟨i, w⟩ := x
    unfold Tbl.put at h
    split at h
    · simpa using h
    · split at h
      · rcases List.mem_cons.mp h with h | h
        · exact .inl h
        · exact .inr (List.mem_cons_of_mem _ h)
      · rcases List.mem_cons.mp h with h | h
        · exact .inr (h ▸ List.mem_cons_self)
        · rcases ih h with h | h
          · exact .inl h
          · exact .inr (List.mem_cons_of_mem _ h)

/-- A write keeps the canonical form. -/
theorem Tbl.wf_set [DecidableEq α] {d : Nat → α} {t : Tbl α} (h : Tbl.wf d t = true) (k : Nat) (v : α) :
    Tbl.wf d (Tbl.set (d k) k v t) = true := by
  simp only [Tbl.wf, Bool.and_eq_true, List.all_eq_true, decide_eq_true_eq] at h ⊢
  unfold Tbl.set
  split
  · exact ⟨Tbl.sorted_del k h.1, fun e he => h.2 e (Tbl.mem_del he)⟩
  · rename_i hv
    refine ⟨Tbl.sorted_put k v h.1 (by simp), fun e he => ?_⟩
    rcases Tbl.mem_put he with rfl | he
    · exact hv
    · exact h.2 e he

theorem Tbl.sortedAbove_filter (p : Nat × α → Bool) {t : Tbl α} {lo : Option Nat} (h : Tbl.sortedAbove lo t = true) :
    Tbl.sortedAbove lo (t.filter p) = true := by
  induction t generalizing lo with
  | nil => simpa using h
  | cons e t ih =>
    obtain ⟨i, w⟩ := e
    have hs : Tbl.sortedAbove (some i) t = true := by cases lo <;> simp_all [Tbl.sortedAbove]
    rw [List.filter_cons]
    split
    · have := ih hs; cases lo <;> simp_all [Tbl.sortedAbove]
    · cases lo with
      | none => exact ih (Tbl.sortedAbove_weaken hs)
      | some l => simp [Tbl.sortedAbove] at h; exact ih (Tbl.sortedAbove_mono hs (by omega))

/-- Leaving entries out keeps the canonical form. -/
theorem Tbl.wf_filter [DecidableEq α] {d : Nat → α} {t : Tbl α} (h : Tbl.wf d t = true) (p : Nat × α → Bool) :
    Tbl.wf d (t.filter p) = true := by
  simp only [Tbl.wf, Bool.and_eq_true, List.all_eq_true, decide_eq_true_eq] at h ⊢
  exact ⟨Tbl.sortedAbove_filter p h.1, fun e he => h.2 e (List.mem_filter.mp he).1⟩

/-! ### Memory: the operations that change DRAM and flash keep the canonical form -/

theorem putBytes_wf {m : List Host.Cell} (h : Memory.wf 0 m = true) (a : Nat) (bs : List Byte) :
    Memory.wf 0 (putBytes m a bs) = true := by
  induction bs generalizing m a with
  | nil => exact h
  | cons b r ih => exact ih (Tbl.wf_set (d := fun _ => (0 : Byte)) h a b) (a + 1)

theorem putFlash_wf {m : List Host.Cell} (h : Memory.wf 0xFF m = true) (a : Nat) (bs : List Byte) :
    Memory.wf 0xFF (putFlash m a bs) = true := by
  induction bs generalizing m a with
  | nil => exact h
  | cons b r ih => exact ih (Tbl.wf_set (d := fun _ => (0xFF : Byte)) h a b) (a + 1)

/-- A property that each step of a fold keeps holds after it. -/
theorem foldl_keeps {σ β : Type} {P : σ → Prop} {f : σ → β → σ} (l : List β) (s : σ) (h : P s)
    (hf : ∀ t b, P t → P (f t b)) : P (l.foldl f s) := by
  induction l generalizing s with
  | nil => exact h
  | cons x l ih => exact ih (f s x) (hf s x h)

theorem mergePoison_wf {s : State} (h : Memory.wf 0 s.dram = true) (a n : Nat) :
    Memory.wf 0 (s.mergePoison a n).dram = true := by
  unfold State.mergePoison
  generalize fillLine = bs
  exact foldl_keeps (P := fun t : State => Memory.wf 0 t.dram = true) _ s h (fun t x ht => putBytes_wf ht (x * 64) bs)

/-- Writing bytes keeps memory's canonical form. -/
theorem writeMem_wf {s : State} (h : Memory.wf 0 s.dram = true) (a : Nat) (bs : List Byte) :
    Memory.wf 0 (s.writeMem a bs).dram = true := by
  unfold State.writeMem
  simp only
  split
  · exact putBytes_wf h a bs
  · exact putBytes_wf (mergePoison_wf h a bs.length) a bs

/-- Zeroing a range keeps memory's canonical form. -/
theorem zeroMem_wf {s : State} (h : Memory.wf 0 s.dram = true) (a n : Nat) :
    Memory.wf 0 (s.zeroMem a n).dram = true := by
  unfold State.zeroMem
  simp only
  split
  · exact Tbl.wf_filter h _
  · exact Tbl.wf_filter (mergePoison_wf h a n) _

theorem reset_memory_wf : Memory.wf 0 State.reset.dram = true := rfl

/-! ### Reading bytes back -/

theorem get_putBytes_below {m : List Host.Cell} {a j : Nat} (bs : List Byte) (h : j < a) :
    Tbl.get (0 : Byte) j (putBytes m a bs) = Tbl.get 0 j m := by
  induction bs generalizing m a with
  | nil => rfl
  | cons b r ih => rw [putBytes, ih (by omega), Tbl.get_set_other _ _ _ _ (by omega)]

theorem get_putBytes_above {m : List Host.Cell} {a j : Nat} (bs : List Byte) (h : a + bs.length ≤ j) :
    Tbl.get (0 : Byte) j (putBytes m a bs) = Tbl.get 0 j m := by
  induction bs generalizing m a with
  | nil => rfl
  | cons b r ih =>
    simp at h
    rw [putBytes, ih (by omega), Tbl.get_set_other _ _ _ _ (by omega)]

theorem get_putBytes_in {m : List Host.Cell} {a : Nat} (bs : List Byte) (i : Nat) (h : i < bs.length) :
    Tbl.get (0 : Byte) (a + i) (putBytes m a bs) = bs[i] := by
  induction bs generalizing m a i with
  | nil => simp at h
  | cons b r ih =>
    rw [putBytes]
    cases i with
    | zero => rw [Nat.add_zero, get_putBytes_below r (by omega), Tbl.get_set_same]; rfl
    | succ i =>
      have := ih (m := Tbl.set 0 a b m) (a := a + 1) i (by simpa using h)
      rw [show a + (i + 1) = a + 1 + i by omega, this]
      rfl

end Sys2Proof.Machine
end

