-- ==== Sys2Proof/Laws/Word.lean ====
section
/-! SUPPORT. Sys2Proof/Laws/Word.lean: fields of a register word: what a read gives after a field is replaced. -/
namespace Sys2Proof

theorem testBit_bits (w : Word) (hi lo i : Nat) :
    (bits w hi lo).testBit i = (decide (i < hi + 1 - lo) && w.getLsbD (lo + i)) := by
  simp [bits, Nat.testBit_mod_two_pow, Nat.testBit_shiftRight, BitVec.getLsbD]

theorem getLsbD_setBits (w : Word) {hi lo : Nat} (v : Nat) (h : lo ≤ hi) (h32 : hi < 32) (j : Nat) :
    (setBits w hi lo v).getLsbD j = if lo ≤ j ∧ j ≤ hi then v.testBit (j - lo) else w.getLsbD j := by
  simp only [setBits, BitVec.getLsbD_or, BitVec.getLsbD_and, BitVec.getLsbD_not, BitVec.getLsbD_ofNat,
    Nat.testBit_shiftLeft, Nat.testBit_two_pow_sub_one, Nat.testBit_mod_two_pow]
  by_cases hj : j < 32
  · by_cases h1 : lo ≤ j
    · by_cases h2 : j ≤ hi
      · have h3 : j - lo < hi + 1 - lo := by omega
        simp [hj, h1, h2, h3]
      · have h3 : ¬ j - lo < hi + 1 - lo := by omega
        simp [hj, h1, h2, h3]
    · simp [hj, h1]
  · have h2 : ¬ j ≤ hi := by omega
    have : w.getLsbD j = false := BitVec.getLsbD_of_ge w j (by omega)
    simp [hj, h2, this]

/-- A field reads as the value put in it. -/
theorem bits_setBits_same (w : Word) {hi lo : Nat} (v : Nat) (h : lo ≤ hi) (h32 : hi < 32) :
    bits (setBits w hi lo v) hi lo = v % 2 ^ (hi + 1 - lo) := by
  apply Nat.eq_of_testBit_eq
  intro i
  rw [testBit_bits, getLsbD_setBits w v h h32, Nat.testBit_mod_two_pow]
  by_cases hi' : i < hi + 1 - lo
  · have : lo ≤ lo + i ∧ lo + i ≤ hi := by omega
    simp [hi', this]
  · simp [hi']

/-- Replacing a field leaves every field beside it alone. -/
theorem bits_setBits_other (w : Word) {hi lo : Nat} (v : Nat) {hi' lo' : Nat} (h : lo ≤ hi) (h32 : hi < 32)
    (hd : hi' < lo ∨ hi < lo') : bits (setBits w hi lo v) hi' lo' = bits w hi' lo' := by
  apply Nat.eq_of_testBit_eq
  intro i
  rw [testBit_bits, testBit_bits, getLsbD_setBits w v h h32]
  by_cases hi'' : i < hi' + 1 - lo'
  · have : ¬ (lo ≤ lo' + i ∧ lo' + i ≤ hi) := by omega
    simp [hi'', this]
  · simp [hi'']

/-- One bit after a field is replaced. -/
theorem bit_setBits (w : Word) {hi lo : Nat} (v : Nat) (h : lo ≤ hi) (h32 : hi < 32) (j : Nat) :
    bit (setBits w hi lo v) j = if lo ≤ j ∧ j ≤ hi then v.testBit (j - lo) else bit w j :=
  getLsbD_setBits w v h h32 j

end Sys2Proof
end

