-- ==== Sys2Proof/Laws/Ops.lean ====
section
/-! SUPPORT. Sys2Proof/Laws/Ops.lean: the shared operations: registers, messages, records, and a register write that passes the
checks of R58. -/
namespace Sys2Proof.Machine

/-! ### Registers -/

@[simp] theorem State.rd_wr_same (s : State) (p : Page) (o : Nat) (w : Word) : (s.wr p o w).rd p o = w := by
  simp [State.rd, State.wr]

theorem State.get_wr_other (s : State) (p : Page) (o : Nat) (w d : Word) {k : Nat} (h : k ≠ key p o) :
    Tbl.get d k (s.wr p o w).regs = Tbl.get d k s.regs := Tbl.get_set_other _ _ _ _ h

theorem State.rd_wr_other (s : State) {p q : Page} {o a : Nat} (w : Word) (h : key q a ≠ key p o) :
    (s.wr p o w).rd q a = s.rd q a := State.get_wr_other s p o w _ h

theorem State.rdf_wrf_same (s : State) (p : Page) (o : Nat) {hi lo : Nat} (v : Nat) (h : lo ≤ hi) (h32 : hi < 32) :
    (s.wrf p o hi lo v).rdf p o hi lo = v % 2 ^ (hi + 1 - lo) := by
  simp [State.rdf, State.wrf, bits_setBits_same _ _ h h32]

theorem State.rdf_wrf_beside (s : State) (p : Page) (o : Nat) {hi lo hi' lo' : Nat} (v : Nat) (h : lo ≤ hi) (h32 : hi < 32)
    (hd : hi' < lo ∨ hi < lo') : (s.wrf p o hi lo v).rdf p o hi' lo' = s.rdf p o hi' lo' := by
  simp [State.rdf, State.wrf, bits_setBits_other _ _ h h32 hd]

/-- A source that is raised reads 1. -/
theorem State.bit_raise (s : State) (p : Page) {b : Nat} (h : b < 32) : bit ((s.raise p b).rd p HDR.IRQ_STS) b = true := by
  simp [State.raise, State.wrf, bit_setBits _ _ (Nat.le_refl b) h]

/-- Two ways to name a register name one when their addresses agree. -/
theorem State.rd_key (s t : State) (p : Page) (o : Nat) (h : t.regs = s.regs) : t.rd p o = s.rd p o := by
  simp [State.rd, h]

/-- A register that the write at `key p o` does not touch keeps its value. -/
theorem keepsRegs_wr {s t : State} {ks : List Nat} (p : Page) (o : Nat) (w : Word) (h : keepsRegs s t ks)
    (hk : key p o ∈ ks) : keepsRegs s (t.wr p o w) ks := by
  intro k hk' hn
  have hne : k ≠ key p o := fun e => hn (e ▸ hk)
  rw [State.get_wr_other t p o w 0 hne]
  exact h k hk' hn

theorem keepsRegs_refl (s : State) (ks : List Nat) : keepsRegs s s ks := fun _ _ _ => rfl

theorem keepsRegs_of_regs {s t u : State} {ks : List Nat} (h : keepsRegs s t ks) (e : u.regs = t.regs) : keepsRegs s u ks := by
  intro k hk hn; rw [e]; exact h k hk hn

/-! ### Messages and guest sources (R66, R331) -/

@[simp] theorem State.rest_wr (s : State) (p : Page) (o : Nat) (w : Word) : (s.wr p o w).rest = s.rest := rfl
@[simp] theorem State.rest_wrf (s : State) (p : Page) (o hi lo v : Nat) : (s.wrf p o hi lo v).rest = s.rest := rfl
@[simp] theorem State.rest_wrn (s : State) (p : Page) (o v : Nat) : (s.wrn p o v).rest = s.rest := rfl
@[simp] theorem State.rest_wr2 (s : State) (p : Page) (o v : Nat) : (s.wr2 p o v).rest = s.rest := rfl
@[simp] theorem State.rest_bump (s : State) (p : Page) (o : Nat) : (s.bump p o).rest = s.rest := rfl
@[simp] theorem State.rest_bumpBy (s : State) (p : Page) (o n : Nat) : (s.bumpBy p o n).rest = s.rest := rfl
@[simp] theorem State.rest_bumpf (s : State) (p : Page) (o hi lo : Nat) : (s.bumpf p o hi lo).rest = s.rest := rfl
@[simp] theorem State.rest_raise (s : State) (p : Page) (b : Nat) : (s.raise p b).rest = s.rest := rfl
@[simp] theorem State.rest_raiseCell (s : State) (p : Page) (c b : Nat) : (s.raiseCell p c b).rest = s.rest := rfl
@[simp] theorem State.rest_out (s : State) (e : Emission) : (s.out e).rest = s.rest := by
  unfold State.out; split <;> rfl
@[simp] theorem State.rest_fire (s : State) (fn vec : Nat) : (s.fire fn vec).rest = s.rest := by
  unfold State.fire; split
  · rfl
  · exact State.rest_out s _

/-- `t` differs from `u` in the sources of guest control pages, the message bits and what has been sent only. -/
def onlyOut (u t : State) : Prop :=
  (t.rest = u.rest ∧ t.shadow = u.shadow) ∧ ∀ k d, ¬ guestSts k → Tbl.get d k t.regs = Tbl.get d k u.regs

theorem onlyOut_refl (s : State) : onlyOut s s := ⟨⟨rfl, rfl⟩, fun _ _ _ => rfl⟩

theorem onlyOut_trans {a b c : State} (h : onlyOut a b) (k : onlyOut b c) : onlyOut a c :=
  ⟨⟨k.1.1.trans h.1.1, k.1.2.trans h.1.2⟩, fun i d hi => (k.2 i d hi).trans (h.2 i d hi)⟩

theorem onlyOut_out (s : State) (e : Emission) : onlyOut s (s.out e) := by
  unfold State.out; split
  · exact onlyOut_refl s
  · exact ⟨⟨rfl, rfl⟩, fun _ _ _ => rfl⟩

theorem onlyOut_fire (s : State) (fn vec : Nat) : onlyOut s (s.fire fn vec) := by
  unfold State.fire; split
  · exact ⟨⟨rfl, rfl⟩, fun _ _ _ => rfl⟩
  · exact onlyOut_out s _

theorem key_guest (g p o : Nat) : key (.guest g p) o = g * 0x100_0000 + p * 0x1000 + o := by
  simp only [key, Page.base]

theorem State.get_raise_other (s : State) (p : Page) (b : Nat) (d : Word) {k : Nat} (h : k ≠ key p HDR.IRQ_STS) :
    Tbl.get d k (s.raise p b).regs = Tbl.get d k s.regs := State.get_wr_other s p HDR.IRQ_STS _ d h

theorem onlyOut_raise_guest (s : State) {g : Nat} (b : Nat) (h : 1 ≤ g) : onlyOut s (s.raise (.guest g 0) b) := by
  refine ⟨⟨State.rest_raise s _ b, State.raise_shadow s _ b⟩, fun k d hk => State.get_raise_other s _ b d ?_⟩
  rw [key_guest]
  rintro rfl
  apply hk
  simp only [guestSts, HDR.IRQ_STS]
  omega

theorem onlyOut_guestEvents (old new : State) : onlyOut new (guestEvents old new) := by
  have h0 : ∀ (l : List Nat) (t : State), (∀ g ∈ l, 1 ≤ g) → ∀ b, onlyOut t (l.foldl (fun t g => t.raise (.guest g 0) b) t) := by
    intro l
    induction l with
    | nil => exact fun t _ _ => onlyOut_refl t
    | cons g l ih =>
      intro t h b
      rw [List.foldl_cons]
      exact onlyOut_trans (onlyOut_raise_guest t b (h g List.mem_cons_self))
        (ih _ (fun x hx => h x (List.mem_cons_of_mem _ hx)) b)
  have h1 : ∀ (l : List Nat) (t : State) b, onlyOut t (l.foldl (fun t i => t.raise (.guest (i + 1) 0) b) t) := by
    intro l
    induction l with
    | nil => exact fun t _ => onlyOut_refl t
    | cons g l ih =>
      intro t b
      rw [List.foldl_cons]
      exact onlyOut_trans (onlyOut_raise_guest t b (by omega)) (ih _ b)
  unfold guestEvents
  split
  · exact onlyOut_refl new
  simp only
  have hA := h0 ((old.guests.map Prod.fst ++ (new.guests.map Prod.fst).filter (fun g => (Tbl.look g old.guests).isNone)).filter
    (fun g => decide (1 ≤ g) && decide (old.gview g ≠ new.gview g))) new (by
      intro g hg
      have := (List.mem_filter.mp hg).2
      simp at this
      exact this.1) 16
  split
  · exact hA
  · exact onlyOut_trans hA (h1 _ _ 17)

theorem onlyOut_settle (old new : State) : onlyOut new (settle old new) := by
  unfold settle
  simp only
  refine foldl_keeps (P := onlyOut new) _ _ ?_ (fun t e ht => ?_)
  · split
    · refine foldl_keeps (P := onlyOut new) _ _ (onlyOut_refl new) (fun t r ht => ?_)
      split
      · exact onlyOut_trans ht (onlyOut_fire t 0 r)
      · exact ht
    · exact onlyOut_refl new
  · split
    · exact onlyOut_trans ht (onlyOut_fire t e.1 e.2)
    · exact ht

/-- What settling does: messages, their pending bits, and sources of guest pages; nothing else. -/
theorem onlyOut_settled (s t : State) : onlyOut t (settled s t) :=
  onlyOut_trans (onlyOut_guestEvents s t) (onlyOut_settle s _)

theorem done_eq (s t : State) : done s t = .next (settled s t) := rfl

/-- A register that is no guest source reads after settling as before it. -/
theorem settled_rd (s t : State) (p : Page) (o : Nat) (h : ¬ guestSts (key p o)) : (settled s t).rd p o = t.rd p o :=
  (onlyOut_settled s t).2 _ _ h

theorem settled_rdf (s t : State) (p : Page) (o hi lo : Nat) (h : ¬ guestSts (key p o)) :
    (settled s t).rdf p o hi lo = t.rdf p o hi lo := by
  simp [State.rdf, settled_rd s t p o h]

theorem sameState_settled {s u t : State} (h : sameState u t) : sameState u (settled s t) :=
  (onlyOut_settled s t).1.1.trans h

theorem keepsRegs_settled {s t u : State} {ks : List Nat} (h : keepsRegs s t ks) : keepsRegs s (settled u t) ks := by
  intro k hk hn
  rw [(onlyOut_settled u t).2 k 0 hk]
  exact h k hk hn

/-- To show what a command ends in, it is enough to look at the state before settling. -/
theorem ends_done {i : Instr} {s u t : State} {ks : List Nat} {P : State → Prop} (he : exec i s = done s t)
    (hu : sameState u t) (hk : keepsRegs s t ks) (hP : P (settled s t)) : Ends i s u ks P :=
  ⟨settled s t, he, hP, keepsRegs_settled hk, sameState_settled hu⟩

theorem ends_next {i : Instr} {s u t : State} {ks : List Nat} {P : State → Prop} (he : exec i s = .next t)
    (hu : sameState u t) (hk : keepsRegs s t ks) (hP : P t) : Ends i s u ks P := ⟨t, he, hP, hk, hu⟩

theorem ends_weaken {i : Instr} {s u : State} {ks : List Nat} {P Q : State → Prop} (h : Ends i s u ks P)
    (hPQ : ∀ t, P t → Q t) : Ends i s u ks Q := by
  obtain ⟨t, h1, h2, h3, h4⟩ := h
  exact ⟨t, h1, hPQ t h2, h3, h4⟩

/-! ### A write that passes the checks (R58) -/

/-- An accepted write stores the word and takes the rule's action. -/
theorem writeReg_accept (s : State) (r : Rule) (src : Src) (p : Page) (o : Nat) (w : Word) (hr : s.reaches src p = true)
    (hv : s.verdict r src p o w = none) :
    s.writeReg r src p o w =
      if (wideRegs p).contains o then s.storeReg p o w
      else r.apply ((r.pre s src (s.written p o w)).storeReg p o w) src (s.written p o w) := by
  simp only [State.writeReg, hr, hv, not_true_eq_false, if_false]

/-- A rejected write is recorded and changes nothing else (R59). -/
theorem writeReg_reject (s : State) (r : Rule) (src : Src) (p : Page) (o : Nat) (w : Word) (c : Nat)
    (hr : s.reaches src p = true) (hv : s.verdict r src p o w = some c) :
    s.writeReg r src p o w = s.reject p (Page.base p % 0x100_0000 + o) src c := by
  simp only [State.writeReg, hr, hv, not_true_eq_false, if_false]

/-- A page out of reach of the source takes no write. -/
theorem writeReg_unreached (s : State) (r : Rule) (src : Src) (p : Page) (o : Nat) (w : Word) (hr : s.reaches src p = false) :
    s.writeReg r src p o w = s := by
  simp [State.writeReg, hr]

@[simp] theorem State.rest_shadow (s : State) (x : Tbl Word) : ({ s with shadow := x } : State).rest = s.rest := rfl

/-- Storing a word changes the register file and the words that wait for their high word, nothing else. -/
theorem sameState_storeReg (s : State) (p : Page) (o : Nat) (w : Word) : sameState s (s.storeReg p o w) := by
  unfold State.storeReg sameState
  simp only
  repeat' split
  all_goals simp only [State.rest_wr, State.rest_shadow]

/-- A stored word of a register that is neither IRQ_SET nor a high word touches that register alone. -/
theorem keepsRegs_storeReg {s t : State} {ks : List Nat} (p : Page) (o : Nat) (w : Word) (h : keepsRegs s t ks)
    (h1 : key p o ∈ ks) (h2 : ¬ ((wideRegs p).contains (o - 4) = true ∧ 4 ≤ o)) (h3 : o ≠ HDR.IRQ_SET) :
    keepsRegs s (t.storeReg p o w) ks := by
  unfold State.storeReg
  simp only [h2, h3, if_false]
  repeat' split
  all_goals first
    | exact h
    | exact keepsRegs_wr p o _ h h1

end Sys2Proof.Machine
end

