-- ==== Sys2Proof/WellFormed.lean ====
section
/-! DEFINITION. Sys2Proof/WellFormed.lean: the operands that name something the device has. -/
namespace Sys2Proof
open Machine

/-- An execution cell (R15: 16 blocks of 16 cells). -/
def okCell (c : Nat) : Bool := decide (c < 256)
/-- A guest, 1 to 255 (R200). -/
def okGuest (g : Nat) : Bool := decide (1 ≤ g ∧ g ≤ 255)
/-- An execution block (R15). -/
def okExb (n : Nat) : Bool := decide (n < 16)
/-- A stream context (R130). -/
def okContext (i : Nat) : Bool := decide (i < 4096)
/-- A publication (R110). -/
def okPub (i : Nat) : Bool := decide (i < 4096)
/-- A MAC address. -/
def okMac (a : Nat) : Bool := decide (a < 2 ^ 48)
/-- A second of local time (R71). -/
def okSecond (t : Nat) : Bool := decide (t < 2 ^ 48)
/-- A cycle index of 17 bits and its second (R203, R218). -/
def okCycle (c sec : Nat) : Bool := decide (c < 2 ^ 17) && okSecond sec
/-- An MSI-X vector of a function (R66): ten for the physical function, four for a virtual one. -/
def okVector (fn vec : Nat) : Bool := if fn = 0 then decide (vec < 10) else okGuest fn && decide (vec < 4)
/-- A register access of 1, 2, 4 or 8 bytes (R37). -/
def okSize (a : Access) : Bool := [1, 2, 4, 8].contains a.bytes

/-- Whether every operand of a command names something the device has. A command that names something else stands for
nothing that happens on the hardware. -/
def Instr.wellFormed (i : Instr) : Bool :=
  match i with
  | .regWrite _ a => okSize a
  | .latchingRead _ a => a % 4 == 0
  | .gCycCRead _ => true
  | .lgHeadRead _ => true
  | .softReset _ p => Page.real p
  | .softResetDone p => Page.real p
  | .pageEnableChg _ p _ => Page.real p
  | .pageContainChg _ p _ => Page.real p
  | .pageErrClear _ p => Page.real p
  | .irqSetWrite _ p _ => Page.real p
  | .irqStsClear _ p _ => Page.real p
  | .msixUnmask fn vec => okVector fn vec
  | .faultInject _ p _ _ => Page.real p
  | .ledgerCtlWrite _ p _ => Page.real p
  | .counterClear _ p _ => Page.real p
  | .eccCorrected p _ => Page.real p
  | .eccUncorrectable p _ => Page.real p
  | .stuckState p _ => Page.real p
  | .noRetireTimeout _ _ => true
  | .cellNoResponse p _ => Page.real p
  | .sharedResourceFault p => Page.real p
  | .blockNoResponse p => Page.real p
  | .segmentFault _ => true
  | .topOfSecond => true
  | .gridTick => true
  | .slewWrite _ _ => true
  | .slewDone => true
  | .stepCmd _ _ => true
  | .stepApply => true
  | .snapCmd _ => true
  | .syncReport _ _ => true
  | .syncTimeout => true
  | .holdoverExpiry => true
  | .txtsPop _ _ => true
  | .txtsClrLost _ _ => true
  | .tioEdge pin _ _ => decide (pin ≤ 32)
  | .capPop _ => true
  | .capClrLost _ => true
  | .tioCfgWrite _ _ _ => true
  | .schEnq _ _ _ => true
  | .schFlush _ _ => true
  | .schFire => true
  | .ppsOutRise => true
  | .ppsOutFall => true
  | .portCtlWrite _ _ _ => true
  | .linkDown _ => true
  | .linkUp _ => true
  | .frameRx _ _ _ => true
  | .ddAgeExpiry _ src => okMac src
  | .nonschedTx _ _ => true
  | .txqPiWrite _ _ => true
  | .pubDoorbell _ _ => true
  | .pubDone => true
  | .launch _ => true
  | .gooseRepeat i => okPub i
  | .sdtBaseWrite _ _ => true
  | .sdtZeroDone => true
  | .descDoorbell _ _ => true
  | .descDone => true
  | .sdtStateWriteback i => okContext i
  | .ruleAdd _ _ => true
  | .ruleRemove _ => true
  | .ruleDone => true
  | .hmacJobStart _ => true
  | .verifyDone _ _ => true
  | .verifyDeadline _ => true
  | .talExpired i => okContext i
  | .discSourceAge src => okMac src
  | .asduPlace l => decide (l < 4)
  | .cutOff i => okContext i
  | .ctxSel _ _ => true
  | .cycleStart g => okGuest g
  | .freezeClose g late => okGuest g && late.all (fun c => decide (c < 256))
  | .commitDeadline g late => okGuest g && late.all (fun c => decide (c < 256))
  | .commitPoint gs late => gs.all okGuest && late.all (fun c => decide (c < 256))
  | .add c _ _ _ => okCell c
  | .sub c _ _ _ => okCell c
  | .and c _ _ _ => okCell c
  | .or c _ _ _ => okCell c
  | .xor c _ _ _ => okCell c
  | .shl c _ _ _ => okCell c
  | .shr c _ _ _ => okCell c
  | .sar c _ _ _ => okCell c
  | .ror c _ _ _ => okCell c
  | .slt c _ _ _ => okCell c
  | .sltu c _ _ _ => okCell c
  | .min c _ _ _ => okCell c
  | .max c _ _ _ => okCell c
  | .minu c _ _ _ => okCell c
  | .maxu c _ _ _ => okCell c
  | .mul c _ _ _ => okCell c
  | .mulhs c _ _ _ => okCell c
  | .mulhu c _ _ _ => okCell c
  | .divs c _ _ _ => okCell c
  | .divu c _ _ _ => okCell c
  | .rems c _ _ _ => okCell c
  | .remu c _ _ _ => okCell c
  | .clz c _ _ => okCell c
  | .popc c _ _ => okCell c
  | .addi c _ _ _ => okCell c
  | .andi c _ _ _ => okCell c
  | .ori c _ _ _ => okCell c
  | .xori c _ _ _ => okCell c
  | .shi c _ _ _ _ => okCell c
  | .slti c _ _ _ => okCell c
  | .cset c _ _ _ => okCell c
  | .cput c _ _ _ => okCell c
  | .ldbu c _ _ _ => okCell c
  | .ldbs c _ _ _ => okCell c
  | .ldhu c _ _ _ => okCell c
  | .ldhs c _ _ _ => okCell c
  | .ldwu c _ _ _ => okCell c
  | .ldws c _ _ _ => okCell c
  | .ldd c _ _ _ => okCell c
  | .stb c _ _ _ => okCell c
  | .sth c _ _ _ => okCell c
  | .stw c _ _ _ => okCell c
  | .std c _ _ _ => okCell c
  | .vld c _ _ _ => okCell c
  | .vst c _ _ _ => okCell c
  | .beq c _ _ _ => okCell c
  | .bne c _ _ _ => okCell c
  | .blt c _ _ _ => okCell c
  | .bge c _ _ _ => okCell c
  | .bltu c _ _ _ => okCell c
  | .bgeu c _ _ _ => okCell c
  | .jmp c _ => okCell c
  | .call c _ => okCell c
  | .jreg c _ _ _ => okCell c
  | .fadd c _ _ _ _ => okCell c
  | .fsub c _ _ _ _ => okCell c
  | .fmul c _ _ _ _ => okCell c
  | .fdiv c _ _ _ _ => okCell c
  | .fsqrt c _ _ _ => okCell c
  | .fmin c _ _ _ _ => okCell c
  | .fmax c _ _ _ _ => okCell c
  | .feq c _ _ _ _ => okCell c
  | .flt c _ _ _ _ => okCell c
  | .fle c _ _ _ _ => okCell c
  | .fabs c _ _ _ => okCell c
  | .fneg c _ _ _ => okCell c
  | .ftoi c _ _ _ => okCell c
  | .itof c _ _ _ => okCell c
  | .widen c _ _ => okCell c
  | .narrow c _ _ => okCell c
  | .fma c _ _ _ _ _ => okCell c
  | .fms c _ _ _ _ _ => okCell c
  | .vadd c _ _ _ _ => okCell c
  | .vsub c _ _ _ _ => okCell c
  | .vmul c _ _ _ _ => okCell c
  | .vdiv c _ _ _ _ => okCell c
  | .vmin c _ _ _ _ => okCell c
  | .vmax c _ _ _ _ => okCell c
  | .vabs c _ _ _ => okCell c
  | .vneg c _ _ _ => okCell c
  | .vand c _ _ _ => okCell c
  | .vor c _ _ _ => okCell c
  | .vxor c _ _ _ => okCell c
  | .vcmplt c _ _ _ _ => okCell c
  | .vcmpeq c _ _ _ _ => okCell c
  | .vfma c _ _ _ _ _ => okCell c
  | .vget c _ _ _ => okCell c
  | .vput c _ _ _ => okCell c
  | .vsplat c _ _ => okCell c
  | .vsumd c _ _ => okCell c
  | .vsumi c _ _ => okCell c
  | .tmr c _ _ _ => okCell c
  | .edg c _ _ _ _ => okCell c
  | .endCell c => okCell c
  | .barrier c => okCell c
  | .barrierRelease g => okGuest g
  | .rdfps c _ => okCell c
  | .clrfps c => okCell c
  | .rdcyc c _ => okCell c
  | .illegalInstruction c _ => okCell c
  | .ptRead _ => true
  | .ptWrite _ => true
  | .ptDone => true
  | .gcmdLoad _ n g => okExb n && okGuest g
  | .gcmdStart _ n g => okExb n && okGuest g
  | .gcmdStop _ n g => okExb n && okGuest g
  | .restartWarm _ n g => okExb n && okGuest g
  | .restartCold _ n g => okExb n && okGuest g
  | .gcmdUnload _ n g => okExb n && okGuest g
  | .gcmdExchange _ n g => okExb n && okGuest g
  | .gcmdDone n => okExb n
  | .patchCmd _ n g count => okExb n && okGuest g && decide (count ≤ 64)
  | .patchChecked n => okExb n
  | .hingeLaneLoss n errs => decide (n < 4) && decide (errs < 2 ^ 32)
  | .hingeLinkUp => true
  | .hingeTx => true
  | .hingeHbSend => true
  | .netHbSend => true
  | .heartbeat _ _ => true
  | .hbMiss => true
  | .netSlotEnd => true
  | .judgeDeadline => true
  | .verdict _ g _ c sec => okGuest g && okCycle c sec
  | .ctlGuestCommand _ seq g op mask exb c sec => okGuest g && okCycle c sec && decide (op < 8 ∧ mask < 65536 ∧ exb < 16 ∧ seq < 2 ^ 32)
  | .ctlPatchSet _ seq g entries _ => okGuest g && decide (entries.length ≤ 64 ∧ seq < 2 ^ 32)
  | .ctlPublicationEntry _ seq g index _ c sec => okGuest g && okPub index && okCycle c sec && decide (seq < 2 ^ 32)
  | .ctlImageChunk _ seq g _ _ => okGuest g && decide (seq < 2 ^ 32)
  | .ctlAddressCounts _ seq _ => decide (seq < 2 ^ 32)
  | .ctlAllowanceEntry _ seq g _ _ c sec => okGuest g && okCycle c sec && decide (seq < 2 ^ 32)
  | .ack _ _ _ => true
  | .controlRetry seq => decide (seq < 2 ^ 32)
  | .resyncReq _ => true
  | .resyncGo _ code held => decide (code < 256) && held.all okGuest
  | .enter _ sec => okSecond sec
  | .demote _ sec => okSecond sec
  | .lines _ g c sec _ => okGuest g && okCycle c sec
  | .image _ g _ _ c sec _ => okGuest g && okCycle c sec
  | .commit _ g _ _ c sec _ => okGuest g && okCycle c sec
  | .bulk _ _ _ => true
  | .resyncRetry => true
  | .pubHoldEnd => true
  | .allowWrite _ g _ => okGuest g
  | .roleCmdResync _ => true
  | .roleCmdDemote _ => true
  | .modeCmdRun _ => true
  | .modeCmdConfigure _ => true
  | .modeCmdTest _ => true
  | .modeCmdEndTest _ => true
  | .modeCmdGoActive _ => true
  | .modeCmdSafe _ => true
  | .modeCmdCold _ => true
  | .modeDone => true
  | .pwExpiry => true
  | .resetRelease _ _ => true
  | .bootDone _ _ _ => true
  | .bootFail _ _ _ => true
  | .debugUnlock _ => true
  | .dbgLockout _ => true
  | .debugResetReq => true
  | .bypass => true
  | .idcode => true
  | .samplePreload => true
  | .extest => true
  | .extestPulse => true
  | .extestTrain => true
  | .clamp => true
  | .highz => true
  | .tapReset => true
  | .sqPiWrite _ _ _ => true
  | .sqEn _ _ _ => true
  | .qShareWrite _ _ _ => true
  | .segmentStart _ _ => true
  | .segmentDone _ _ _ => true
  | .hostFault _ n _ _ => decide (n < 256)
  | .flr _ => true
  | .gFreset _ => true
  | .fnReset _ => true
  | .vfEnableClear => true
  | .fnResetDone _ => true
  | .strSel _ _ _ => true
  | .lvSel _ _ => true
  | .generate _ => true
  | .derive _ => true
  | .importKey _ => true
  | .krLoad _ => true
  | .revoke _ => true
  | .erase _ => true
  | .krCommit _ => true
  | .krCmdDone => true
  | .krCommitWrite => true
  | .krCommitDone _ => true
  | .plainLock _ => true
  | .remask => true
  | .entropyFail test => decide (test < 3)
  | .ledgerWriterStart => true
  | .ledgerWrite => true
  | .lgCfgWrite _ _ _ => true
  | .lgSel _ _ => true
  | .lgClear _ => true
  | .lgClearDone => true
  | .histSel _ _ => true
  | .metCfgWrite _ _ _ => true
  | .histSample p c m _ => Page.real p && decide (c < 16 ∧ m < 7)
  | .ckGo _ _ _ _ => true
  | .ckAbort _ _ => true
  | .ckDone _ => true
  | .adcSample _ _ _ => true
  | .adcScanTrigger _ => true
  | .coreSwtrig _ _ => true
  | .adcScanDone _ => true
  | .vrefMeasure _ => true
  | .calSel _ _ => true
  | .calZero _ => true
  | .calFull _ => true
  | .calApply _ => true
  | .calAbort _ => true
  | .calAvgDone => true
  | .calTimeout => true
  | .coefLoad _ _ _ _ => true
  | .fcCfgWrite _ _ _ => true
  | .fcSwap _ _ => true
  | .fcSync _ _ => true
  | .filtPointWrite _ => true
  | .auCfgWrite _ _ _ => true
  | .acqArmed _ => true
  | .auRel _ _ => true
  | .auSwtrig _ _ => true
  | .acqBlockWrite _ => true
  | .acqRedHalve _ => true
  | .acqRecordClose _ => true
  | .scrubRead _ _ => true
  | .ckptGo _ => true
  | .flRead _ => true
  | .slotWrite _ _ => true
  | .flashOpDone _ => true
  | .pcieLinkDown => true
  | .pcieReset => true
  | .refFail _ => true
  | .refReturn => true
  | .refFailClear => true
  | .sdPllLockLoss _ => true
  | .sdPllLock _ => true
  | .rootPllLockLoss => true
  | .powerOn => true
  | .porst => true
  | .rstGo _ => true
  | .railBelowWarn _ _ _ => true
  | .railBelowReset _ _ => true
  | .pwrWarnClear => true
  | .tempWarn _ _ => true
  | .thermalTrip _ => true
  | .pcieLinkUp _ _ => true
  | .vfEnableSet => true
  | .busMasterEnableChg _ _ => true
  | .d3hotTransition _ _ => true
  | .msixMask fn vec => okVector fn vec
  | .railAboveWarn _ _ _ => true
  | .frameErr _ => true

end Sys2Proof
end

