-- ==== Sys2Proof/Tests/Slice0.lean ====
section
/-! SUPPORT. Sys2Proof/Tests/Slice0.lean: tests of the model against words and values taken from the spec, terms that the check of
well-formedness refuses, and for every obligation that has hypotheses a witness: a theorem wit_<name> that shows, clause by
clause in the obligation's order, states and operands that meet the clause's hypotheses together. -/
set_option Elab.async false
namespace Sys2Proof.Tests
open Sys2Proof Sys2Proof.Machine

/-! ### States -/

def up : State := { State.reset with role := { mode := .configure } }
theorem accepts_of {s : State} {src p o w} (h : (s.reaches src p && (s.verdict (ruleFor p o) src p o w).isNone) = true) : s.accepts src p o w := by
  simp only [Bool.and_eq_true, Option.isNone_iff_eq_none] at h; exact h
def img0 : Image := { n := 2, cells := 1, budget := 0, xch := 4096, build := 0, len := 0, code := [], data := [], inputs := [], outs := [], safes := [], rets := [], patches := [] }
def guest1 : Guest := { exb := 0, mask := 1, img := img0, st := .running }
def cellOn : Cell := { guest := 1, run := .running, g := [(2, 0xFFFF_FFFF_FFFF_FFF5), (3, 7), (4, 0x1000_0040), (5, 0x2000_0040)], v := [(1, 12345), (2, 0xFFFFFFFFFFFFFFFF0000000000000003)], dsram := [(64, 5), (72, 1), (73, 2)] }
def isa : State := { up with cells := [(0, cellOn)], guests := [(1, guest1)] }
def barred : State := { isa with cells := [(0, { cellOn with run := .barrier })] }
def minCell : State := { isa with cells := [(0, { cellOn with g := [(2, 0x8000000000000000), (3, 0xFFFFFFFFFFFFFFFF)] })] }
def pcOut : State := { isa with cells := [(0, { cellOn with pc := 0x10000 })] }
def kindBad : State := { isa with cells := [(0, { cellOn with dsram := [(72, 9)] })] }
def slewed : State := { up with time := { clock := 100, elapsed := 100, slewPend := 5 } }
def jobbed : State := { up with time := { clock := 100, elapsed := 100, job := some ⟨true, false, 5, 7⟩ } }
def jobbedA : State := { up with role := { mode := .active }, time := { clock := 100, elapsed := 100, job := some ⟨false, false, 0, 7⟩ } }
def lockd : State := { up with time := { sync := .locked }, regs := [(key .timeu TIMEU.SYNC_CFG, 0x00050005)] }
def held : State := { up with time := { sync := .holdover } }
def lock0 : State := { up with time := { sync := .locked }, regs := [(key .timeu TIMEU.SYNC_CFG, 0x00000005)] }
def w4 (a d : Nat) : Access := ⟨a, 4, true, BitVec.ofNat 64 d⟩
def tst : State := { State.reset with role := { mode := .test } }
def resetting (p : Page) : State := { up with srst := [(Page.base p, true)], regs := [(key p HDR.IRQ_EN, 5)] }
def jobbedF : State := { jobbedA with time := { jobbedA.time with job := some ⟨false, false, 0, 70000000⟩ } }
def popd : State := { up with time := { capFifo := [⟨5, false, 0, true, 3, 0⟩], txts := [(2, [⟨5, false, 0, 0, 0, 0⟩])] } }
def outOn : State := { up with regs := [(key .timeu TIMEU.SCH_S_LO, 5), (key .timeu (TIMEU.TIO_CFG 3), 2)], time := { sched := [⟨3, 5, true⟩] , tio := [(3, 1)] } }
def vfs : State := { up with courier := { up.courier with vfEnable := true } }
def linkOn : State := { up with link := [(0, true), (4, true)], nsq := [(0, [⟨2, ⟨1, 2, none, none, [8, 0], none, 0⟩, none, none, false⟩]), (4, [⟨2, ⟨1, 2, none, none, [8, 0], none, 0⟩, none, none, false⟩])] }
def rx0 : RxFrame := { dst := 5, src := 7, vlan := none, red := none, fcsOk := true, len := 64, body := [0x88, 0xB5] ++ List.replicate 44 1, app := .none }
def mg : State := { up with link := [(0, true), (4, true)], regs := [(key .mgmt PORT.PORT_CTL, 0x30)] }
def mgQ : State := { up with link := [(4, true)], regs := [(key .porter (PORTER.Q_CFG 1), 0x10004), (key .mgmt PORT.PORT_CTL, 0x30)] }
def txOn : State := { linkOn with regs := [(key (.port 0) PORT.PORT_CTL, 0x31), (key .hinge HINGE.HINGE_CTL, 2)], role := { mode := .active } }
def dueF : DueFrame := ⟨0, 1, false, 0, 5, none, 9, [8, 0], none, false, [0, 1], 0⟩
def dueOn : State := { txOn with due := [dueF] }
def dueSk : State := { txOn with due := [{ dueF with skip := true }] }
def pubbed : State := { up with pubJob := some 3 }
def pubSafe : State := { pubbed with role := { mode := .safe } }
def pubRes : State := { pubbed with dram := [(192, 128)] }
def pubBad : State := { pubbed with dram := [(192, 1)] }
def repP : Pub := { entry := ⟨0, false, true, false, false, 5, 1, 0, 0, false, 1, 1, 64, 0, 512, 1, 20, 24, 28, 32, 10, 100, 0⟩, repeatAt := some 5, interval := 10 }
def repub : State := { up with role := { mode := .active }, guests := [(1, guest1)], pubs := [(3, repP)], regs := [(key .egress EGRESS.EGR_CTL, 1)] }
def zero : State := { up with porter := { zeroing := true, sdtSet := true } }
def sdtOn : State := { up with porter := { sdtSet := true } }
def descd : State := { up with dram := [(4, 1)], porter := { sdtSet := true, descJob := some 3 } }
def descBad : State := { descd with dram := [(0, 3), (2, 4)] }
def sd : StreamDesc := { descOf [] with valid := true, cls := 1, guest := 1, policy := 1 }
def cached : State := { up with porter := { ctxs := [(3, ⟨sd, { rxOk := 5 }⟩)], cache := [(3, [3])] } }
def ruled : State := { up with porter := { ruleJob := some (1, 1, [1, 2]) } }
def ruledH : State := { up with porter := { ruleJob := some (1, 1, [1, 2]), mt := [(0, ⟨[1, 2], none, 1⟩)] } }
def ruledR : State := { up with porter := { ruleJob := some (2, 0, [1, 2]), mt := [(0, ⟨[1, 2], none, 1⟩)] } }
def ruledN : State := { up with porter := { ruleJob := some (2, 0, [1, 3]), mt := [(0, ⟨[1, 2], none, 1⟩)] } }
def txq : State := { up with link := [(2, true)], regs := [(key .porter (PORTER.Q_CFG 3), 0x10004)], dram := [(0, 64), (2, 4), (32, 1), (44, 8)] }
def infr : InFrame := ⟨0, { rx0 with app := .goose [] 1 5 6 1000 [] none }, 0, 0, 0, 0, false, none, 0⟩
def vj (hm : Bool) : VJob := { id := 4, ctx := 3, d := sd, fr := infr, hmac := hm, slot := 2, deadline := 9, engine := none }
def ver (hm late : Bool) (e : Option Nat) : State := { up with porter := { ctxs := [(3, ⟨sd, { rxOk := 5, lastStNum := 4 }⟩)], jobs := [{ vj hm with engine := e, late := late }] } }
def sdS : StreamDesc := { sd with cls := 0, rate := 4000, asduN := 1, chanN := 2, pointCount := 64, guest := 1 }
def las : LaneAsdu := ⟨3, sdS, 0, 0, 0, ⟨5, 2, [(7, 0), (8, 0)]⟩⟩
def lane (a : AlignCtx) (l : LaneAsdu) : State := { up with porter := { ctxs := [(3, ⟨sdS, {}⟩)] }, align := { ctxs := [(3, a)], lanes := [(1, [l])] } }
def img288 : Image := { img0 with n := 288, budget := 1000 }
def gst (p : GPhase) : Guest := { guest1 with img := img288, phase := p, first := true }
def act1 (x : Guest) (c : Cell) : State := { State.reset with role := { mode := .active }, guests := [(1, x)], cells := [(0, c)], regs := [(key .egress EGRESS.EGR_CTL, 1)] }
def imgD : List (Nat × Byte) := [(0, 86), (1, 67), (2, 73), (3, 49), (4, 1), (6, 1), (8, 88), (12, 63), (13, 138), (14, 172), (15, 224), (16, 32), (17, 1), (18, 1), (20, 232), (21, 3), (26, 1), (28, 64), (32, 7), (64, 1), (68, 80), (72, 8)]
def ex : State := act1 (gst .idle) cellOn
def exF : State := act1 (gst .freeze) cellOn
def exE : State := act1 (gst .execute) { cellOn with run := .finished }
def exW : State := act1 (gst .execute) cellOn
def outG (f : Nat) : Guest := { gst .commit with staged := [(8, 5)], fail := f, img := { img288 with outs := [⟨8, false, 0, 0⟩], safes := [9] } }
def exC (f : Nat) : State := act1 (outG f) cellOn
def cfg1 : State := { up with guests := [(1, { guest1 with img := img288, st := .loaded })] }
def gc (op : Nat) (s : State) : State := { s with gcmds := [(0, ⟨op, 1, 1, 0⟩)] }
def load : State := { gc 1 up with dram := imgD, regs := [(key .chip 0x7FC, 0)] }
def pj (s : State) : State := { s with patchJobs := [(0, ⟨1, [], none, 0, 1⟩)] }
def pjG : Guest := { gst .idle with img := { img288 with patches := [⟨0, 0, 0, 0, 4⟩] } }
def ptw (w : Bool) : State := { exC 0 with pointJob := some (w, 8, 77), poison := if w then [] else [(1, true)] }
def pt0 (w : Bool) : State := { up with pointJob := some (w, 8, 77) }
def hOn : State := { up with hinge := { link := true, lock := 15, queue := [⟨1, 0, .ack 5 false⟩] } }
def hEn : State := { up with regs := [(key .hinge HINGE.HINGE_CTL, 3)] }
def hB : HHead := ⟨true, true, 4⟩
def sb : State := { exF with role := { mode := .hotStandby, hbUp := true }, hinge := { link := true, lock := 15 } }
def rsy : State := { up with role := { mode := .resync }, hinge := { link := true, lock := 15, bulk := { state := 2 } }, regs := [(key .hinge (HINGE.BULK_LEN_LO 3), 4096)] }
def bs : State := { hOn with hinge := { link := true, bulk := { state := 1, chunk := 8 } } }
def cw (n : Nat) : CtlWait := ⟨7, ⟨3, 0, .ack 1 false⟩, n⟩
def wt (n : Nat) (m : Mode) : State := { up with hinge := { link := true, wait := [cw n] }, role := { mode := m, hbUp := true, netUp := true } }
def miss3 : State := { up with role := { mode := .configure, hbMiss := 3, hbUp := true } }
def net3 : State := { up with role := { mode := .active, netMiss := 15, netUp := true } }
def jdg (m : Mode) (a : Bool) : State := { up with role := { mode := m, judge := some ⟨5, a⟩ } }
def hA : State := { hOn with role := { mode := .active, partnerDigest := 5 } }
def hAd : State := { hA with role := { mode := .active, partnerDigest := hA.cfgDigest } }
def cold : State := { hOn with role := { mode := .coldStandby, resyncAsked := true } }
def asks : State := { hOn with role := { mode := .coldStandby, hbUp := true, partnerSeen := true, partnerMode := .active }, regs := [(key .role ROLE.ROLE_CTL, 1)] }
def dmt : State := { hOn with role := { mode := .active, hbUp := true, netUp := true, partnerSeen := true, partnerMode := .hotStandby } }
def hld : State := { up with role := { mode := .active, holdFrom := some 5, lastPubRx := some 7 }, time := { elapsed := 500000000 * nsU + 7 }, pubs := [(1, { entry := pubOfBytes [] })] }
def md (m : Mode) (op : Nat) : State := { State.reset with role := { mode := m, modeJob := some (op, 0) }, guests := if op = 2 then [(1, guest1)] else [] }
def mdP : State := { State.reset with role := { mode := .coldStandby, modeJob := some (5, 0), hbUp := true, partnerSeen := true, partnerMode := .active } }
def pw (c : Word) : State := { State.reset with role := { mode := .coldStandby, pwRunning := true }, regs := [(key .role ROLE.ROLE_STS, c), (key .chip CHIP.CHIP_CTL, 1)] }
def hotT : State := { up with regs := [(key .pwrmon PWRMON.TEMP_CFG, 100), (key .pwrmon PWRMON.TEMP_STS, 0x00640000)] }
def clkBad : State := { up with regs := [(key .clkrst CLKRST.CLK_STS, 0xFF)] }
def dbgOn : State := { up with regs := [(key .debug DEBUG.DBG_STS, 1)] }
def rel : State := { up with clk := { released := true }, regs := [(key .clkrst CLKRST.RST_KEY, 0)] }
def bootR : State := { State.reset with clk := { released := true } }
def bimg : List Byte := [88, 66, 84, 49, 64, 1, 0, 0, 0, 0, 0, 0, 204, 109, 88, 242] ++ List.replicate 304 0
def clk1 : State := { up with regs := [(key .clkrst CLKRST.CLK_STS, 4)] }
def dip : State := { up with regs := [(key .pwrmon PWRMON.PWR_STS, 0x80000008)] }
def hot : State := { up with regs := [(key .pwrmon PWRMON.TEMP_CFG, 100), (key .pwrmon PWRMON.TEMP_STS, 0x00640000)] }
def qon : State := { up with regs := [(key .courier (qOfs 0 GQ.SQ_CFG), 0x10008), (key .courier (qOfs 0 GQ.SQ_PI), 1), (key .hostif HOSTIF.HI_LINK, 1)], courier := { fns := [(0, { bme := true })] } }
def dsc : BitVec 256 := BitVec.ofNat 256 (1 + 77 * 2 ^ 32 + 0x1000 * 2 ^ 64 + 0x2000 * 2 ^ 128 + 8192 * 2 ^ 192)
def dscB : BitVec 256 := BitVec.ofNat 256 (1 + 77 * 2 ^ 32 + 0x1000 * 2 ^ 64 + 0x2000 * 2 ^ 128)
def run0 : DescRun := ⟨courierDesc dsc, 1, 0x2000, 4096, 1, 0, 0⟩
def qrun (r : DescRun) (dr : Bool) : State := { qon with courier := { fns := [(0, { bme := true })], queues := [(0, { runs := [r], fetch := 2 })], engines := [(3, ⟨0, 1, 1, 0x1000, 0x2000, 4, dr, false⟩)] } }
def vf5 : State := { up with courier := { vfEnable := true, queues := [(5, { resetting := true, cause := 1 })] } }
def vf : State := { up with courier := { vfEnable := true }, regs := [(key .hostif HOSTIF.FN_SEL, 5)] }
def sd5 : StreamDesc := { descOf [] with guest := 5 }
def str5 : State := { up with courier := { vfEnable := true }, porter := { ctxs := [(3, ⟨sd5, { rxOk := 5 }⟩)] }, pubs := [(4, { entry := { pubOfBytes [] with guest := 5 }, count := 9 })], ledger := { idx := [⟨0, 0, 32, 5, false⟩] } }
def ks5 : KSlot := ⟨0x0002003F, 9, 0x1234, 0⟩
def krJ (j : KJob) : State := { up with keyring := { slots := [(5, ks5), (6, { ks5 with attr := 0x0004053F }), (7, { ks5 with attr := 0x0002009F })], job := some j } }
def jGen : KJob := ⟨1, 9, 0, 3, 7, []⟩
def jRev : KJob := ⟨5, 5, 0, 0, 0, []⟩
def jEra : KJob := ⟨6, 7, 0, 0, 0, []⟩
def jCom : KJob := ⟨7, 7, 0, 0, 0, []⟩
def krRed : State := { up with regs := [(key .keyring KEYRING.KR_STS, 4)] }
def rec0 : LRec := ⟨0x20, 5, 3, 7, 0, [1, 2, 3, 4], 0⟩
def wrt : State := { up with ledger := { running := true, started := true, own := [rec0] } }
def lgx : State := { up with ledger := { headSeq := 5, idx := [⟨3, 0, 32, 5, false⟩] }, dram := [(4, 7)] }
def hst : State := { isa with ledger := { hists := [(sourceOf (.exb 0) 0 * 16, { count := 4 })] } }
def hse : State := { isa with regs := [(key (.exb 0) HDR.LEDGER_CTL, 2)] }
def scn : State := { up with scans := [(2, { busy := true, addr := 64, len := 5 })], dram := [(66, 3)] }
def scp : State := { scn with poison := [(1, true)] }
def adcOnly : State := { up with regs := [(key .filt HDR.PAGE_CTL, 0), (key .acq HDR.PAGE_CTL, 0), (key .adc ADC.ADC_CTL, 1), (key .adc (ADC.PAIR_CFG 0), 1)], analog := { streams := [(0, { on := true, fresh := true, index := 4 })] } }
def adcSeq : State := { up with regs := [(key .filt HDR.PAGE_CTL, 0), (key .acq HDR.PAGE_CTL, 0), (key .adc ADC.ADC_CTL, 1), (key .adc (win 1 ADCW.CORE_CFG), 1)], analog := { streams := [(3, { on := true, index := 4, settle := 9 })], cores := [(1, { scan := true, prev := some (0, 2) })] } }
def swT (k : Word) : State := { up with regs := [(key .adc ADC.ADC_CTL, 1), (key .adc (win 1 ADCW.CORE_CFG), k)] }
def sw : State := swT 1
def sw4 : State := swT 4
def swOff : State := { up with regs := [(key .adc (win 1 ADCW.CORE_CFG), 4)] }
def swB4 : State := { sw4 with analog := { cores := [(1, { scan := true })] } }
def swD : State := { sw with analog := { cores := [(1, { scan := true, entry := 1 })], streams := [(3, { on := true })] } }
def cfi : State := { sw with analog := { cores := [(1, { prev := some (0, 2) })] } }
def noAdc : State := { up with regs := [(key .adc HDR.PAGE_CTL, 0)] }
def bad (g : Option Nat) (e : Nat) : State := { up with regs := [(key .adc ADC.ADC_STS, 1)], analog := { refGood := g }, time := { elapsed := e } }
def calSt (n : Word) (c : CalSt) : State := { up with regs := [(key .adc ADC.CAL_STS, n)], analog := { cal := c } }
def cs1 : State := calSt 0x80000000 { op := 1, count := 65536, sum := 65536 * 3 }
def cs1b : State := calSt 0x80000000 { op := 1, count := 65536, sum := 65536 * 3000 }
def cs2 : State := { calSt 0x80000100 { op := 2, count := 65536, sum := 65536 * 16384 } with regs := [(key .adc ADC.CAL_REF, 1875000), (key .adc ADC.CAL_STS, 0x80000100)] }
def cs2b : State := calSt 0x80000100 { op := 2, count := 65536, sum := 65536 * 3000 }
def fOn : State := { up with regs := [(key .acq HDR.PAGE_CTL, 0), (key .filt (win 3 FILTW.FC_CFG), 1)], analog := { filt := [(3, { state := 1, k := 4 })] } }
def fs0 : FSample := ⟨5, 1, 7, 3, false, 0, 9, 0⟩
def fHeld (w : Word) : State := { up with regs := [(key .filt (win 3 FILTW.FC_OUT), w)], analog := { filt := [(3, { state := 1, held := some fs0 })] } }
def aReg : Tbl Word := [(key .acq ACQ.ACQ_WIN_LEN, 64), (key .acq (auWin 1 ACQW.AU_NSEG), 2), (key .acq (auWin 1 ACQW.AU_SEG_LEN), 2), (key .acq (auWin 1 ACQW.AU_PRE), 4), (key .acq (auWin 1 ACQW.AU_POST), 20)]
def aOff : State := { up with regs := aReg }
def aOn (x : AcqUnit) : State := { up with regs := Tbl.put (key .acq (auWin 1 ACQW.AU_CFG)) 1 aReg, analog := { acq := [(1, x)] } }
def r1 : AcqRec := { seg := 1, base := 0x2000, units := 5 }
def blk1 : AcqBlk := { bseq := 0, no := 0, eff := 1, red := false, gen := 0, start := true, index := 3, words := [⟨7, 5, 5, 5⟩], retrig := false, stepped := false, gap := false }
def scrubOn : State := { up with regs := [(key (.dramc 1) DRAMC.SCRUB_CTL, 1)] }
def scrubEnd : State := { scrubOn with scrub := [(1, { pos := scrubLines - 1 })] }
def fl (m : Mode) : State := { State.reset with role := { mode := m }, regs := [(key .flash FLASH.FL_STS, 0x1C0001)] }
def flJ (n : Nat) : State := { fl .active with flashJob := some (.slotWrite 1 64 n), dram := [(68, 4)] }
def fo (p : Page) (o : Nat) : List Fld := (regFields p o).getD []
def jobbedQ : State := { up with role := { mode := .active }, time := { clock := 100, elapsed := 100, job := some ⟨false, false, 0, 70000000⟩ }, regs := [(key .timeu TIMEU.TIME_CTL, 0)] }
def jobbedR : State := { up with role := { mode := .active }, time := { clock := 100, elapsed := 100, job := some ⟨false, false, 1, 70000000⟩ }, regs := [(key .timeu TIMEU.TIME_CTL, 1)] }
def tout : State := { up with time := { sync := .locked, elapsed := 6000000 * nsU }, regs := [(key .timeu TIMEU.SYNC_CFG, 0x00050005)] }
def tout0 : State := { tout with regs := [(key .timeu TIMEU.SYNC_CFG, 0x00000005)] }
def hoex : State := { up with time := { sync := .holdover, elapsed := 6000000 * nsU }, regs := [(key .timeu TIMEU.SYNC_CFG, 0x00000005)] }
def capOn' (n : Nat) : State := { up with time := { capFifo := List.replicate n ⟨5, false, 0, true, 3, 0⟩, pinCfg := [(3, [(0, 0x31)])] } }
def tioM : State := { up with regs := [(key .timeu (TIMEU.TIO_CFG 3), 0x1002)] }
def tioN : State := { tioM with time := { tio := [(3, 1)], pinCfg := [(3, [(0, 0x1002)])] } }
def tioO : State := { tioM with regs := [(key .timeu (TIMEU.TIO_CFG 3), 0x31)], time := { tio := [(3, 1)] } }
def ppsS : State := { up with regs := [(key .timeu TIMEU.PPS_CTL, 1), (key .timeu TIMEU.PPS_OFS, 2), (key .timeu TIMEU.PPS_WIDTH, 1)], time := { clock := nsU, elapsed := nsU } }
def ppsF : State := { up with regs := [(key .timeu TIMEU.PPS_WIDTH, 1)], time := { clock := 1000 * nsU, elapsed := 1000 * nsU, pps := true } }
def clk0 : State := { clkBad with regs := [(key .clkrst CLKRST.CLK_STS, 0xFF)] }
def isa0 : State := { isa with guests := [] }
def isoC : State := { up with regs := [(key (.region 7) HDR.FAULT_STS, 1 <<< (Page.block .courier))] }
def pubG (v : Nat) (m : Bool) : State := { up with pubJob := some 3, guests := [(1, guest1)], pubs := [(3, repP)], role := if m then { mode := .active, hbUp := true, partnerSeen := true, partnerMode := .hotStandby } else { mode := .active }, hinge := if m then { link := true, lock := 15 } else {}, dram := if v = 0 then [] else [(192, 0x11), (193, 5), (194, 1), (206, 128), (209, 0x10), (217, 0x20), (224, 1), (226, 20), (228, 36), (230, 40), (232, 44), (234, 10), (236, 100), (8192, 1), (8196, 64)] }
def lane' (a : AlignCtx) (l : LaneAsdu) : State := { lane a l with time := { clock := 2 ^ 32 * 10 ^ 9, elapsed := 2 ^ 32 * 10 ^ 9 } }
def verN (hm : Bool) : State := { ver hm false none with regs := [(key .crypto (win 5 CRYPTOW.ENG_JOBS), 4)], keyring := { slots := [(2, { attr := 0x01020003, label := 9, masked := 0x1234, mask := 0 })] } }
def lateT (s : State) : State := { s with time := { s.time with clock := 3600 * 10 ^ 9 * 2 ^ 32, elapsed := 3600 * 10 ^ 9 * 2 ^ 32 } }
def clrTag : ClrSt := { token := [0, 0, 0, 0, 0, 0, 2, 0] ++ List.replicate 40 1, deadline := 3, id := 1 }
def verT : State := { verN true with ledger := { clr := some clrTag }, keyring := { slots := [(2, { attr := 0x00020005, label := 9, masked := 0x1234, mask := 0 })] } }
def fullMt : Tbl MtEnt := (List.range 4).flatMap (fun b => (List.range 4).map (fun k => ([660, 7496, 11380, 13032].getD b 0 + k, (⟨[3], none, 1⟩ : MtEnt)))) ++ (List.range 32).map (fun k => (16384 + k, ⟨[3], none, 1⟩))
def cells (a : Nat) (l : List Byte) : List Host.Cell := (l.zip (List.range l.length)).filterMap (fun e => if e.1 = 0xFF then none else some (a + e.2, e.1))
def ckImg : List Byte := [88, 67, 75, 49, 1, 0, 0, 0, 64, 0, 0, 0, 0, 0, 0, 0, 3, 0, 0, 0, 0, 0, 0, 0, 209, 17, 147, 168] ++ List.replicate 36 0
def mdL (f : List Host.Cell) (gs : Tbl Guest) : State := { State.reset with role := { mode := .configure, modeJob := some (1, 0) }, guests := gs, flash := f, regs := [(key .chip CHIP.CHIP_CTL, 2), (key .flash FLASH.FL_STS, 0x1C0001)] }
def bootS : State := { State.reset with clk := { released := true }, flash := cells 0 bimg }
def rstG : State := { up with clk := { keyAt := some 0 } }
def hUp : State := { hEn with regs := [(key .hinge HINGE.HINGE_CTL, 3), (key .clkrst CLKRST.CLK_STS, 0x10)] }
def blk : State := { hOn with hinge := { link := true, lock := 15, bulk := { state := 1, todo := [(3, 0, 0)] } } }
def retrySt (auto : Bool) : State := { asks with role := { mode := .coldStandby, hbUp := true, partnerSeen := true, partnerMode := .active, retryAt := some 0 }, regs := if auto then [(key .role ROLE.ROLE_CTL, 1)] else [] }
def runX : Guest := { guest1 with img := img288 }
def ends3 (op : Nat) (x : Guest) : State := { gc op up with guests := [(1, x)], role := { mode := .active } }
def hAg : State := { hA with guests := [(1, guest1)], regs := [(key .hinge (HINGE.ALLOW_LO 1), 0x01000000), (key .hinge (HINGE.ALLOW_HI 1), 0x80000002)] }
def hAgd : State := { hAg with role := { mode := .active, partnerDigest := hAg.cfgDigest } }
def bootSS : State := { bootS with flash := cells 0 bimg ++ cells 0x100000 bimg }
def padT : State := { up with padsTaken := true }
def dbgOff : State := { up with regs := [(key .debug HDR.PAGE_CTL, 0)] }
def qEng (r : DescRun) (g : Segment) : State := { qrun r false with courier := { (qrun r false).courier with engines := [(3, g)] } }
def sgm (op : Nat) : Segment := ⟨0, 1, op, 0x1000, 0x2000, 4, false, false⟩
def cfgUE : State := { gc 2 up with guests := [(1, { guest1 with img := { img288 with len := 64 }, st := .loaded })], poison := [((gc 2 up).imgStore 1 / 64, true)] }
def pendX : Guest := { runX with st := .loaded, runPend := some false }
def refAway : State := { clkBad with time := { elapsed := 20000000 * nsU } }
def sup (w : Word) : State := { up with regs := [(key .pwrmon PWRMON.PWR_STS, w)], time := { elapsed := 200000 * nsU } }
def pwOff : State := { up with regs := [(key .pwrmon HDR.PAGE_CTL, 0)] }
def tokT : Tbl Word := [(0, 0x31434C58), (1, 0x00050300), (2, 1), (4, 4)]
def ks4 : KSlot := ⟨0x0000000F, 9, 0x1234, 0⟩
def clrGo (jobs : List VJob) : State := { up with ledger := { token := tokT, headSeq := 5 }, keyring := { slots := [(5, ks4)] }, porter := { jobs := jobs } }
def clrX (c : ClrSt) : State := { clrGo [] with ledger := { token := tokT, headSeq := 5, clr := some c, idx := [⟨3, 0, 32, 5, false⟩, ⟨5, 32, 32, 5, false⟩], hists := [(3, { count := 4 })] } }
def cl0 : ClrSt := { token := (clrGo []).tokenBytes, deadline := 9, id := 1 }
def comF (c : KCommit) (f : List Host.Cell) : State := { up with keyring := { slots := [(5, ks5)], commit := some c }, flash := f, flashRun := some .keys, regs := [(key .flash FLASH.FL_STS, 0x1C0001)] }
def stF : List Host.Cell := cells 0x210000 ([88, 75, 83, 49, 0, 0, 1, 0, 2, 0, 0, 0, 0, 0, 0, 0, 56, 79, 231, 219] ++ List.replicate 44 0)
def ckOff : State := { up with regs := [(key .check HDR.PAGE_CTL, 0)] }
def ckQ : State := { up with regs := [(key .check HDR.FAULT_STS, 4)] }
def dcells (a : Nat) (l : List Byte) : List Host.Cell := (l.zip (List.range l.length)).filterMap (fun e => if e.1 = 0 then none else some (a + e.2, e.1))
def trigd (k : Word) (y : CoreSt) : State := { swT k with analog := { cores := [(1, y)] } }
def adcCoef : State := { adcOnly with regs := Tbl.put (key .adc (win 1 ADCW.CORE_CFG)) 1 adcOnly.regs }
def scanOff : State := { up with regs := [(key .acq HDR.PAGE_CTL, 0), (key .adc ADC.ADC_CTL, 1)], analog := { cores := [(1, { scan := true, entry := 1 })], streams := [(3, { on := true, index := 7 })] } }
def calLate : State := { calSt 0x80000000 { op := 1 } with time := { elapsed := 2000000000 * nsU } }
def fRecent : State := { fHeld 0 with analog := { filt := [(3, { state := 1, held := some fs0, wrote := some 0 })] } }
def au17 (w : Word) : Tbl Word := Tbl.put (key .acq (auWin 1 ACQW.AU_CFG)) w aReg
def aOver : State := { up with regs := au17 0x10001, analog := { acq := [(1, { state := 1, full := [0, 1] })] } }
def aRed (c : Option AcqBlk) : State := { aOn { state := 2, red := 4, rec_ := some r1, cur := c } with time := { elapsed := 200 * usU } }
def r3 : AcqRec := { r1 with trig := some ⟨5, 0, some 0, 0, none⟩ }
def keyF (st : Nat) (nm : List Byte) : State := comF ⟨[(5, ks5)], some (1, 2, nm), st⟩ []
def kname : List Byte := List.replicate 32 9
def flI (m : Mode) : State := { fl m with flashJob := some (.slotWrite 1 64 0), dram := dcells 64 bimg }
def ckS (m : Mode) (n : Nat) : State := { fl m with ckpt := { state := 3, stage := n, second := some 5, target := if n = 3 then some (0, 1, 67648) else none } }
def aRedA : State := { aOn { state := 2, red := 4, rec_ := some r1, acc := [fs0] } with time := { elapsed := 200 * usU } }
def nearSec : State := { up with time := { clock := secU - 100 * nsU, elapsed := 7 } }
def x4 : State := { up with regs := [(key (.region 7) HDR.FAULT_STS, 1 <<< (Page.block .courier))] }
def x7 : Access := w4 (Page.base .timeu + 0x7F0) 5
def x8 : State := resetting .pwrmon
def x9 : StepJob := ⟨true, false, 5, 7⟩
def x10 : StepJob := ⟨false, false, 0, 7⟩
def x11 : StepJob := ⟨false, false, 0, 70000000⟩
def x12 : StepJob := ⟨false, false, 1, 70000000⟩
def x13 : SchEntry := ⟨3, 5, true⟩
def x14 : RxFrame := { rx0 with fcsOk := false }
def x15 : RxFrame := { rx0 with len := 60 }
def x16 : RxFrame := { rx0 with body := [0x88, 0x08, 0, 1] ++ List.replicate 42 0 }
def x17 : RxFrame := { rx0 with body := [0x88, 0xA8, 0, 1] ++ List.replicate 42 0 }
def x18 : State := { up with dd := [(0, [(5, ⟨some (1, 1), none, none, 0⟩)])], regs := [(key .redun REDUN.DD_AGE, 20)] }
def x19 : DdEntry := ⟨some (1, 1), none, none, 0⟩
def x20 : State := { up with dd := [(0, [(5, ⟨some (1, 1), none, none, 0⟩), (6, ⟨some (1, 1), none, none, 0⟩)])], time := { elapsed := 500000000 * nsU } }
def x21 : NsFrame := ⟨2, ⟨1, 2, none, none, [8, 0], none, 0⟩, none, none, false⟩
def x22 : State := { dueOn with nsq := [(0, [⟨2, ⟨1, 2, none, none, [8, 0], none, 0⟩, none, none, true⟩])] }
def x23 : NsFrame := ⟨2, ⟨1, 2, none, none, [8, 0], none, 0⟩, none, none, true⟩
def x24 : State := { dueOn with due := [{ dueF with at_ := 1000 * nsU }] }
def x25 : State := { dueOn with wire := [(0, [(0, 0)])] }
def x26 : DueFrame := { dueF with skip := true }
def x27 : State := { repub with pubs := [(3, { repP with repeatAt := none })] }
def x28 : Pub := { repP with repeatAt := none }
def x29 : State := { repub with pubs := [(3, { repP with stopped := true })] }
def x30 : Pub := { repP with stopped := true }
def x31 : State := { repub with time := { clock := 9000000 * nsU, elapsed := 9000000 * nsU } }
def x32 : CtxEnt := ⟨sd, { rxOk := 5 }⟩
def x33 : State := { ruled with porter := { ruled.porter with mt := fullMt } }
def x34 : Tbl MtEnt := (ruled.mtInsert [] ⟨[1, 2], none, 1⟩).getD []
def x35 : State := { lateT up with porter := { disc := [(4, ⟨0, 5⟩), (5, ⟨3, 7⟩)] } }
def x36 : State := { ver true false (some 5) with porter := { (ver true false (some 5)).porter with jobs := [{ vj true with engine := some 5 }] } }
def x37 : KSlot := { attr := 0x00020005, label := 9, masked := 0x1234, mask := 0 }
def x38 : State := ver true false (some 5)
def x39 : VJob := { vj true with engine := some 5 }
def x40 : CtxEnt := ⟨sd, { rxOk := 5, lastStNum := 4 }⟩
def x41 : State := ver true true (some 5)
def x42 : VJob := { vj true with engine := some 5, late := true }
def x43 : State := ver true false none
def x44 : State := { lane {} las with porter := {} }
def x45 : State := { lane {} las with porter := { ctxs := [(3, ⟨sd, {}⟩)] } }
def x46 : CtxEnt := ⟨sd, {}⟩
def x47 : State := (lane { state := 1, next := 20 } las)
def x48 : CtxEnt := ⟨sdS, {}⟩
def x49 : LaneAsdu := { las with asdu := ⟨100, 2, [(7, 0), (8, 0)]⟩ }
def x50 : State := lane { state := 1 } las
def x51 : Placed := ⟨0, 1, []⟩
def x52 : State := (lane { state := 3, next := 20, late := 4 } las)
def x53 : State := { ex with time := { clock := 100000 * nsU } }
def x54 : Guest := gst .idle
def x55 : Guest := gst .execute
def x56 : GCmd := ⟨2, 1, 1, 0⟩
def x57 : State := gc 2 up
def x58 : State := gc 3 ex
def x59 : GCmd := ⟨3, 1, 1, 0⟩
def x60 : State := gc 2 cfg1
def x61 : Guest := { guest1 with img := img288, st := .loaded }
def x62 : Guest := { runX with st := .loaded }
def x63 : State := gc 6 cfg1
def x64 : GCmd := ⟨6, 1, 1, 0⟩
def x65 : GCmd := ⟨1, 1, 1, 0⟩
def x66 : State := { pj (act1 pjG cellOn) with patchPend := [(0, ⟨1, [], some 3, 0, 1⟩)] }
def x67 : PatchSet := ⟨1, [], none, 0, 1⟩
def x68 : State := pj up
def x69 : State := pj (act1 pjG cellOn)
def x70 : State := ptw true
def x71 : State := pt0 true
def x72 : State := pt0 false
def x73 : State := ptw false
def x74 : State := { hOn with hinge := { lock := 15 } }
def x75 : HFrame := ⟨1, 0, .ack 5 false⟩
def x76 : State := { hOn with hinge := { link := true } }
def x77 : Nat × Nat × Nat := (3, 0, 0)
def x78 : HHead := ⟨false, true, 4⟩
def x80 : Guest := gst .freeze
def x81 : State := { sb with guests := [(1, { gst .commit with cycS := 5, cycC := 3 })] }
def x82 : Guest := { gst .commit with cycS := 5, cycC := 3 }
def x85 : State := { sb with hinge := { sb.hinge with seen := [(7, true)] } }
def x86 : State := { hOn with role := { mode := .active, isolated := true } }
def x87 : State := wt 2 .active
def x88 : CtlWait := cw 2
def x89 : State := wt 4 .hotStandby
def x90 : CtlWait := cw 4
def x91 : HHead := ⟨true, false, 4⟩
def x92 : State := jdg .hotStandby true
def x93 : Judge := ⟨5, true⟩
def x94 : State := jdg .active false
def x95 : Judge := ⟨5, false⟩
def x96 : State := { hA with role := { mode := .resync, enterAsked := true } }
def x97 : State := { hA with role := { mode := .hotStandby } }
def x98 : State := { retrySt true with regs := [(key .role ROLE.ROLE_CTL, 0)] }
def x99 : State := { up with role := { mode := .coldStandby } }
def x100 : State := { hld with time := { elapsed := 9 } }
def x101 : State := md .configure 2
def x102 : State := { mdL [] [] with role := { mode := .configure, modeJob := some (1, 1) } }
def x103 : State := md .configure 1
def x104 : State := md .test 2
def x105 : State := md .configure 3
def x106 : State := md .coldStandby 5
def x107 : State := md .active 6
def x108 : State := pw 64
def x109 : State := pw 0
def x110 : State := { clkBad with link := [(1, true)], hinge := { link := true } }
def x111 : State := { up with padsTaken := true }
def x112 : State := qrun run0 false
def x113 : Desc := courierDesc dsc
def x114 : Desc := courierDesc dscB
def x115 : Segment := ⟨0, 1, 1, 0x1000, 0x2000, 4, true, false⟩
def x116 : State := { qrun run0 false with regs := Tbl.put (key .courier HDR.PAGE_CTL) 0 (qrun run0 false).regs }
def x117 : DescRun := { run0 with next := 8192 }
def x118 : DescRun := { run0 with open_ := 2 }
def x119 : Pub := { entry := { pubOfBytes [] with guest := 5 }, count := 9 }
def x120 : CtxEnt := ⟨sd5, { rxOk := 5 }⟩
def x121 : State := { str5 with ledger := {} }
def x122 : RingEnt := ⟨0, 0, 32, 5, false⟩
def x123 : State := (krJ ⟨6, 0, 0, 0, 0, []⟩)
def x124 : KJob := ⟨6, 0, 0, 0, 0, []⟩
def x125 : State := krJ jGen
def x126 : State := krJ jRev
def x127 : State := krJ jEra
def x128 : State := krJ jCom
def x129 : KCommit := ⟨[(5, ks5)], some (1, 2, []), 6⟩
def x130 : KCommit := ⟨[(5, ks5)], none, 1⟩
def x131 : LedgerSt := { running := true, started := true }
def x132 : RingEnt := ⟨3, 0, 32, 5, false⟩
def x133 : ClrSt := { cl0 with code := 4 }
def x134 : ClrSt := { cl0 with engine := some 5 }
def x135 : ClrSt := { cl0 with engine := some 5, pass := true }
def x136 : Word := BitVec.ofNat 32 (sourceOf (.exb 0) 0 * 65536)
def x137 : State := { isa with regs := [(key (.exb 0) HDR.LEDGER_CTL, 0)] }
def x138 : State := bad (some 5) 9
def x139 : State := bad none 9
def x140 : State := bad (some 5) (5 + 100000 * nsU)
def x141 : State := calSt 0x100 {}
def x142 : State := calSt 0x300 {}
def x143 : State := calSt 0x80000000 { op := 1 }
def x144 : State := fHeld 0
def x145 : State := fHeld 0x80000010
def x146 : State := aOn { state := 1 }
def x147 : State := (aOn { state := 2, rec_ := some r1 })
def x148 : State := (aOn { state := 1, full := [0, 1] })
def x149 : State := (aOn { state := 4, full := [1] })
def x150 : State := (aOn { state := 3, rec_ := some { r1 with trig := some ⟨5, 0, none, 0, none⟩ } })
def x151 : AcqRec := { r1 with trig := some ⟨5, 0, none, 0, none⟩ }
def x152 : State := (aOn { state := 2, rec_ := some r1, fifo := [(0x2000, 1, blk1)] })
def x153 : State := (aOn { state := 1, closing := [{ r1 with trig := some ⟨5, 0, some 0, 0, none⟩, blocks := [blk1] }] })
def x154 : AcqRec := { r1 with trig := some ⟨5, 0, some 0, 0, none⟩, blocks := [blk1] }
def x155 : State := fl .configure
def x156 : State := { fl .active with regs := [(key .flash FLASH.FL_STS, 0x160001)] }
def x157 : State := fl .active
def x158 : State := { up with flashJob := some (.read 0 64 4) }
def x159 : State := { fl .active with flashJob := some (.read 0 64 4), flash := [(2, 7)] }
def x160 : State := { flJ 0 with regs := [(key .flash FLASH.FL_STS, 0)] }
def x161 : State := flJ 0
def x162 : State := flJ 1
def x163 : State := flJ 2
theorem crcRun_append (c : Crc) (r : Nat) (l m : List Byte) : crcRun c r (l ++ m) = crcRun c (crcRun c r l) m := List.foldl_append
def z76 : List Byte := List.replicate 76 0
theorem bimg_crc : crc32c (bimg.take 12 ++ [0, 0, 0, 0] ++ bimg.drop 16) = leAt bimg 12 4 := by
  have e : bimg.take 12 ++ [0, 0, 0, 0] ++ bimg.drop 16 =
      (((([88, 66, 84, 49, 64, 1, 0, 0, 0, 0, 0, 0] ++ [0, 0, 0, 0]) ++ z76) ++ z76) ++ z76) ++ z76 := by decide +kernel
  have a : crcRun (crcOf 1) (crcOf 1).init ([88, 66, 84, 49, 64, 1, 0, 0, 0, 0, 0, 0] ++ [0, 0, 0, 0]) = 1990764917 := by decide +kernel
  have b : crcRun (crcOf 1) 1990764917 z76 = 1494068377 := by decide +kernel
  have c : crcRun (crcOf 1) 1494068377 z76 = 2625349604 := by decide +kernel
  have d : crcRun (crcOf 1) 2625349604 z76 = 3650061086 := by decide +kernel
  have f : crcRun (crcOf 1) 3650061086 z76 = 3427394992 := by decide +kernel
  rw [crc32c, e, crcRun_append, crcRun_append, crcRun_append, crcRun_append, a, b, c, d, f]
  decide +kernel
theorem bimg_image : bootImageOk bimg = true := by
  have e : bimg.take (leAt bimg 4 4) = bimg := by decide +kernel
  rw [bootImageOk, e, bimg_crc]; decide +kernel
theorem bimg_ok : bootLayoutOk bimg = true := by
  rw [bootLayoutOk, bimg_image]; decide +kernel


theorem bootS_image : bootS.bootImage 0 = bimg := by decide +kernel
theorem bootSS_images : bootSS.bootImage 0 = bimg ∧ bootSS.bootImage 1 = bimg := by and_intros <;> decide +kernel
theorem bootS_first : bootS.bootFirst = 1 := by decide +kernel
theorem bootSS_first : bootSS.bootFirst = 0 := by decide +kernel
theorem bootS_try : (bootS.bootTry 0 true).code = 0 := by
  unfold State.bootTry; simp only [bootS_image, bimg_ok]; decide +kernel
theorem bootSS_try : (bootSS.bootTry 0 true).code = 0 := by
  unfold State.bootTry; simp only [bootSS_images.1, bimg_ok]; decide +kernel
theorem bootS_blank : bootLayoutOk (bootS.bootImage 1) = false := by decide +kernel
theorem bootS_second : bootS.bootTry 1 true = ⟨E_BOOTIMG, 0, 0, bootS⟩ := by
  unfold State.bootTry; simp only [bootS_blank]; rfl
theorem bootS_tries : bootS.bootTries true true = (0, some ⟨E_BOOTIMG, 0, 0, bootS⟩, bootS.bootTry 0 true) := by
  unfold State.bootTries; simp only [bootS_first, bootS_second]; rfl
theorem bootSS_tries : bootSS.bootTries true true = (0, none, bootSS.bootTry 0 true) := by
  unfold State.bootTries; simp only [bootSS_first, bootSS_try, if_pos]
theorem flI_image : (flI .active).readMem 64 (min 1048576 ((flI .active).leMem (64 + 4) 4)) = bimg := by decide +kernel

/-! ### Instruction words written out from R230 to R234 -/

theorem test_word_add : isaDecode 3 0b000001_00001_00010_00011_00000000000 = some (.add 3 1 2 3) := by decide +kernel
theorem test_word_addi : isaDecode 0 0b000010_00101_00110_1111111111111111 = some (.addi 0 5 6 (-1)) := by decide +kernel
theorem test_word_std : isaDecode 0 0b011011_00111_01000_0000000000010000 = some (.std 0 7 8 16) := by decide +kernel
theorem test_word_beq : isaDecode 0 0b100000_00001_00010_0000000000000100 = some (.beq 0 1 2 4) := by decide +kernel
theorem test_word_jmp : isaDecode 0 0b100110_00000_00000_0000000000000001 = some (.jmp 0 1) := by decide +kernel
theorem test_word_fsqrt : isaDecode 0 0b110000_00001_00010_00000_1_0000000100 = some (.fsqrt 0 .double 1 2) := by decide +kernel
theorem test_word_fma : isaDecode 0 0b110001_00001_00010_00011_00100_00000_1 = some (.fma 0 .double 1 2 3 4) := by decide +kernel
theorem test_word_vadd : isaDecode 0 0b111000_00001_00010_00011_01_000000000 = some (.vadd 0 .single 1 2 3) := by decide +kernel
theorem test_word_vget : isaDecode 0 0b111010_00001_00010_00000_101_00000_000 = some (.vget 0 1 2 5) := by decide +kernel
theorem test_word_tmr : isaDecode 0 0b111100_00001_00010_00011_00000000000 = some (.tmr 0 1 2 3) := by decide +kernel
theorem test_word_end : isaDecode 0 0b111110_00000_00000_0000000000000000 = some (.endCell 0) := by decide +kernel
/-- R235: the word of zeros, a one-operand function with b ≠ 0, CSET with a[2] set and VEC with lane type 0b11 are illegal. -/
theorem test_word_illegal : isaDecode 0 0 = none ∧ isaDecode 0 0b000001_00001_00010_00011_00000011100 = none ∧
    isaDecode 0 0b001000_00001_00100_0000000000000000 = none ∧ isaDecode 0 0b111000_00001_00010_00011_11_000000000 = none := by
  decide +kernel

/-! ### Terms that the check refuses, one for each of its parts -/

theorem test_wf_cell : (Instr.add 256 1 2 3).wellFormed = false := by decide
theorem test_wf_guest : (Instr.cycleStart 0).wellFormed = false ∧ (Instr.cycleStart 256).wellFormed = false := by decide
theorem test_wf_context : (Instr.cutOff 4096).wellFormed = false := by decide
theorem test_wf_publication : (Instr.gooseRepeat 4096).wellFormed = false := by decide
theorem test_wf_mac : (Instr.discSourceAge (2 ^ 48)).wellFormed = false := by decide
theorem test_wf_vector : (Instr.msixUnmask 0 10).wellFormed = false ∧ (Instr.msixUnmask 5 4).wellFormed = false := by decide
theorem test_wf_size : (Instr.regWrite .pf ⟨0, 3, true, 0⟩).wellFormed = false := by decide
theorem test_wf_latch : (Instr.latchingRead .pf 2).wellFormed = false := by decide
theorem test_wf_page : (Instr.softResetDone (.exb 16)).wellFormed = false := by decide
theorem test_wf_block : (Instr.gcmdLoad .pf 16 1).wellFormed = false := by decide
theorem test_wf_patches : (Instr.patchCmd .pf 0 1 65).wellFormed = false := by decide
theorem test_wf_second : (Instr.enter ⟨true, false, 0⟩ (2 ^ 48)).wellFormed = false := by decide
theorem test_wf_cycle : (Instr.lines ⟨true, false, 0⟩ 1 (2 ^ 17) 0 []).wellFormed = false := by decide

/-! ### Single steps -/

/-- The general register `r` of cell 0 after a command; 0 where it does not answer a next state. -/
def g0After (i : Instr) (s : State) (r : RegNo) : DWord := match exec i s with | .next t => (t.cell 0).rd r | _ => 0

/-- R232: −11 + 7, with a source that is also the destination. -/
theorem test_add : g0After (.add 0 3 2 3) isa 3 = 0xFFFFFFFFFFFFFFFC := by decide +kernel
/-- R196, R232: −11 / 7 = −1, remainder −4. -/
theorem test_divs : g0After (.divs 0 1 2 3) isa 1 = 0xFFFFFFFFFFFFFFFF ∧ g0After (.rems 0 1 2 3) isa 1 = 0xFFFFFFFFFFFFFFFC := by
  decide +kernel
/-- R196: a division by zero gives all ones, with a remainder equal to a. -/
theorem test_div_zero : g0After (.divu 0 1 3 0) isa 1 = 0xFFFFFFFFFFFFFFFF ∧ g0After (.remu 0 1 3 0) isa 1 = 7 := by decide +kernel
/-- R233: 1.0 + 2.0 = 3.0 in binary64. -/
theorem test_fadd : g0After (.fadd 0 .double 1 6 7)
    { isa with cells := [(0, { cellOn with g := [(6, 0x3FF0000000000000), (7, 0x4000000000000000)] })] } 1 = 0x4008000000000000 := by
  decide +kernel
/-- R229: a write to g0 is discarded. -/
theorem test_g0 : g0After (.addi 0 0 3 1) isa 0 = 0 := by decide +kernel
/-- R235: the word of zeros ends the cell in a program fault (R198). -/
theorem test_zero_word : (match exec (.illegalInstruction 0 0) isa with | .next t => (t.cell 0).run | _ => .running) ≠ .running := by
  decide +kernel

/-! ### The witnesses -/

theorem wit_StepRunsFront : ({ up with pending := [.topOfSecond, .gridTick] } : State).pending = [.topOfSecond, .gridTick] := rfl

theorem wit_WordsAndEncodings : isaEncode (.add 3 1 2 3) = some (3, 0b000001_00001_00010_00011_00000000000) ∧
    isaDecode 3 0b000001_00001_00010_00011_00000000000 = some (.add 3 1 2 3) := by decide +kernel
theorem wit_IntegerWords :
    (isa.issues 0) ∧
    ((isa.cell 0).issue.rd 0 = 0 ∧ isa.issues 0) ∧
    ((isa.cell 0).issue.rd 3 ≠ 0 ∧ isa.issues 0) ∧
    (BitVec.toInt ((minCell.cell 0).issue.rd 2) = -2 ^ 63 ∧ BitVec.toInt ((minCell.cell 0).issue.rd 3) = -1 ∧ minCell.issues 0) := by
  and_intros <;> decide +kernel
theorem wit_ImmediateResults :
    isa.issues 0 := by
  and_intros <;> decide +kernel
theorem wit_Loads :
    (isa.place? (isa.cell 0).issue ((isa.cell 0).issue.ea 4 0) 1 false = some (Place.data 64) ∧ isa.issues 0) ∧
    ((isa.cell 0).issue.ea 4 0 % 2 = 0 ∧ isa.place? (isa.cell 0).issue ((isa.cell 0).issue.ea 4 0) 2 false = some (Place.data 64) ∧ isa.issues 0) ∧
    ((isa.cell 0).issue.ea 4 0 % 4 = 0 ∧ isa.place? (isa.cell 0).issue ((isa.cell 0).issue.ea 4 0) 4 false = some (Place.data 64) ∧ isa.issues 0) ∧
    ((isa.cell 0).issue.ea 5 0 % 4 = 0 ∧ isa.place? (isa.cell 0).issue ((isa.cell 0).issue.ea 5 0) 4 false = some (Place.xch 64) ∧ isa.issues 0) ∧
    ((isa.cell 0).issue.ea 5 0 % 8 = 0 ∧ isa.place? (isa.cell 0).issue ((isa.cell 0).issue.ea 5 0) 8 false = some (Place.xch 64) ∧ isa.issues 0) ∧
    ((isa.cell 0).issue.ea 4 0 % 64 = 0 ∧ isa.place? (isa.cell 0).issue ((isa.cell 0).issue.ea 4 0) 64 false = some (Place.data 64) ∧ isa.issues 0) := by
  and_intros <;> decide +kernel
theorem wit_Stores :
    ((isa.cell 0).issue.ea 4 0 % 64 = 0 ∧ isa.place? (isa.cell 0).issue ((isa.cell 0).issue.ea 4 0) 64 true = some (Place.data 64) ∧ isa.issues 0) ∧
    ((isa.cell 0).issue.ea 5 0 % 64 = 0 ∧ isa.place? (isa.cell 0).issue ((isa.cell 0).issue.ea 5 0) 64 true = some (Place.xch 64) ∧ isa.guest (isa.cell 0).issue.guest = some guest1 ∧ isa.issues 0) := by
  and_intros <;> decide +kernel
theorem wit_AddressesAndFaults :
    (0 < 8) ∧
    ((isa.cell 0).issue.ea 4 1 % 2 ≠ 0 ∧ isa.issues 0) ∧
    ((isa.cell 0).issue.ea 3 0 % 1 = 0 ∧ isa.place? (isa.cell 0).issue ((isa.cell 0).issue.ea 3 0) 1 false = none ∧ isa.issues 0) := by
  and_intros <;> decide +kernel
theorem wit_Branches :
    (¬(isa.cell 0).issue.rd 2 = (isa.cell 0).issue.rd 3 ∧ isa.issues 0) ∧
    (↑16 = ↑(isa.cell 0).issue.pc + 4 * (4 : BitVec 16).toInt ∧ inIsram 16 = true ∧ isa.issues 0) ∧
    (↑24 = ↑(isa.cell 0).issue.pc + 4 * (6 : BitVec 26).toInt ∧ inIsram 24 = true ∧ isa.issues 0) ∧
    (↑20 = (BitVec.toInt ((isa.cell 0).issue.rd 0) + 4 * (5 : BitVec 16).toInt) % 2 ^ 64 ∧ inIsram 20 = true ∧ isa.issues 0) := by
  and_intros <;> decide +kernel
theorem wit_ProgramFaults :
    (0 < 16 ∧ 0 < 3 ∧ 3 < 16 ∧ (isa.cell (16 * 0 + 0)).guest = 1 ∧ isa.guest 1 = some guest1) ∧
    ((isa.cell 0).run = Run.running ∧ inIsram (isa.cell 0).pc = true ∧ isaDecode 0 4294967295 = none) ∧
    ((pcOut.cell 0).run = Run.running ∧ inIsram (pcOut.cell 0).pc = false) ∧
    ((isa.cell 0).run = Run.running ∧ inIsram (isa.cell 0).pc = true) ∧
    ((isa.cell 0).run = Run.running ∧ inIsram (isa.cell 0).pc = true ∧ ↑134217724 = ↑(isa.cell 0).issue.pc + 4 * (33554431 : BitVec 26).toInt ∧ inIsram 134217724 = false) ∧
    ((isa.cell 0).run = Run.running ∧ inIsram (isa.cell 0).pc = true ∧ ↑(isa.cell 0).issue.pc + 4 * (67108863 : BitVec 26).toInt < 0) ∧
    ((isa.cell 0).run = Run.running ∧ inIsram (isa.cell 0).pc = true ∧ ↑131068 = ↑(isa.cell 0).issue.pc + 4 * (32767 : BitVec 16).toInt ∧ inIsram 131068 = false) ∧
    ((isa.cell 0).run = Run.running ∧ inIsram (isa.cell 0).pc = true ∧ inIsram (BitVec.toNat ((isa.cell 0).issue.rd 4 + 4 * BitVec.signExtend 64 (5 : BitVec 16))) = false) :=
  by decide +kernel
theorem wit_SystemWords :
    (isa.issues 0) ∧
    (barred.guest 1 = some guest1 ∧ (∀ (k : Nat), k ∈ guest1.cellList → (barred.cell k).run = Run.barrier)) := by
  and_intros <;> decide +kernel
theorem wit_TimersAndEdges :
    (isa.guest (isa.cell 0).guest = some guest1 ∧ BitVec.toNat ((isa.cell 0).issue.rd 3) % 8 ≠ 0 ∧ isa.issues 0) ∧
    (isa.guest (isa.cell 0).guest = some guest1 ∧ BitVec.toNat ((isa.cell 0).issue.rd 4) % 8 = 0 ∧ isa.place? (isa.cell 0).issue (BitVec.toNat ((isa.cell 0).issue.rd 4)) 16 true = some (Place.data 64) ∧ BitVec.toNat (Tbl.get 0 (64 + 8) (isa.cell 0).issue.dsram) ≤ 2 ∧ isa.issues 0) ∧
    (isa.guest (isa.cell 0).guest = some guest1 ∧ BitVec.toNat ((isa.cell 0).issue.rd 0) % 8 = 0 ∧ isa.issues 0 ∧ (∀ (o : Nat), isa.place? (isa.cell 0).issue (BitVec.toNat ((isa.cell 0).issue.rd 0)) 16 true ≠ some (Place.data o))) ∧
    (kindBad.guest (kindBad.cell 0).guest = some guest1 ∧ BitVec.toNat ((kindBad.cell 0).issue.rd 4) % 8 = 0 ∧ kindBad.place? (kindBad.cell 0).issue (BitVec.toNat ((kindBad.cell 0).issue.rd 4)) 16 true = some (Place.data 64) ∧ 2 < BitVec.toNat (Tbl.get 0 (64 + 8) (kindBad.cell 0).issue.dsram) ∧ kindBad.issues 0) ∧
    (BitVec.toNat ((isa.cell 0).issue.rd 4) % 8 = 0 ∧ isa.place? (isa.cell 0).issue (BitVec.toNat ((isa.cell 0).issue.rd 4)) 8 true = some (Place.data 64) ∧ isa.issues 0) :=
  ⟨⟨by decide +kernel, by decide +kernel, ⟨by decide +kernel, by decide +kernel⟩⟩, ⟨by decide +kernel, by decide +kernel, by decide +kernel, by decide +kernel, ⟨by decide +kernel, by decide +kernel⟩⟩, ⟨by decide +kernel, by decide +kernel, ⟨by decide +kernel, by decide +kernel⟩, by intro l h; cases h⟩, ⟨by decide +kernel, by decide +kernel, by decide +kernel, by decide +kernel, ⟨by decide +kernel, by decide +kernel⟩⟩, ⟨by decide +kernel, by decide +kernel, ⟨by decide +kernel, by decide +kernel⟩⟩⟩
theorem wit_FloatWords :
    isa.issues 0 := by
  and_intros <;> decide +kernel
theorem wit_VectorWords :
    isa.issues 0 := by
  and_intros <;> decide +kernel
theorem wit_StepKeepsForm :
    up.wf = true :=
  by decide +kernel
theorem wit_FieldAccess :
    4 ≤ 11 ∧ 11 < 32 :=
  by decide +kernel
theorem wit_AcceptedWrite :
    ((w4 (Page.base Page.timeu + TIMEU.STEP_NS) 5).full = true ∧ (w4 (Page.base Page.timeu + TIMEU.STEP_NS) 5).bytes = 4 ∧ (w4 (Page.base Page.timeu + TIMEU.STEP_NS) 5).addr % 4 = 0 ∧ pageFor Src.pf (w4 (Page.base Page.timeu + TIMEU.STEP_NS) 5).addr = some (Page.timeu, TIMEU.STEP_NS) ∧
      up.accepts Src.pf Page.timeu TIMEU.STEP_NS 5 ∧ regFields Page.timeu TIMEU.STEP_NS = some (fo Page.timeu TIMEU.STEP_NS) ∧ 0x040 ≤ TIMEU.STEP_NS ∧ (∀ t src v, (ruleFor Page.timeu TIMEU.STEP_NS).pre t src v = t) ∧ (∀ t src v, (ruleFor Page.timeu TIMEU.STEP_NS).apply t src v = t) ∧ waits Page.timeu TIMEU.STEP_NS = false ∧ (wideRegs Page.timeu).contains (TIMEU.STEP_NS - 4) = false) ∧
    ((w4 (Page.base Page.timeu + TIMEU.STEP_S_LO) 5).full = true ∧ (w4 (Page.base Page.timeu + TIMEU.STEP_S_LO) 5).bytes = 4 ∧ (w4 (Page.base Page.timeu + TIMEU.STEP_S_LO) 5).addr % 4 = 0 ∧ pageFor Src.pf (w4 (Page.base Page.timeu + TIMEU.STEP_S_LO) 5).addr = some (Page.timeu, TIMEU.STEP_S_LO) ∧
      up.accepts Src.pf Page.timeu TIMEU.STEP_S_LO 5 ∧ regFields Page.timeu TIMEU.STEP_S_LO = some (fo Page.timeu TIMEU.STEP_S_LO) ∧ 0x040 ≤ TIMEU.STEP_S_LO ∧ (∀ t src v, (ruleFor Page.timeu TIMEU.STEP_S_LO).pre t src v = t) ∧ (∀ t src v, (ruleFor Page.timeu TIMEU.STEP_S_LO).apply t src v = t) ∧ waits Page.timeu TIMEU.STEP_S_LO = true ∧ (wideRegs Page.timeu).contains TIMEU.STEP_S_LO = true) ∧
    ((w4 (Page.base Page.timeu + TIMEU.STEP_S_HI) 5).full = true ∧ (w4 (Page.base Page.timeu + TIMEU.STEP_S_HI) 5).bytes = 4 ∧ (w4 (Page.base Page.timeu + TIMEU.STEP_S_HI) 5).addr % 4 = 0 ∧ pageFor Src.pf (w4 (Page.base Page.timeu + TIMEU.STEP_S_HI) 5).addr = some (Page.timeu, TIMEU.STEP_S_HI) ∧
      up.accepts Src.pf Page.timeu TIMEU.STEP_S_HI 5 ∧ regFields Page.timeu TIMEU.STEP_S_HI = some (fo Page.timeu TIMEU.STEP_S_HI) ∧ 0x040 ≤ TIMEU.STEP_S_HI ∧ (∀ t src v, (ruleFor Page.timeu TIMEU.STEP_S_HI).pre t src v = t) ∧ (∀ t src v, (ruleFor Page.timeu TIMEU.STEP_S_HI).apply t src v = t) ∧ waits Page.timeu TIMEU.STEP_S_HI = false ∧ (wideRegs Page.timeu).contains (TIMEU.STEP_S_HI - 4) = true) := by
  and_intros <;> first | decide +kernel | exact accepts_of (by decide +kernel) | exact fun _ _ _ => rfl
theorem wit_EmptyQueueIsOneEdge :
    up.pending = [] ∧ up.time.slewPend = 0 ∧ up.time.job = none ∧ up.quiet up.incr := by
  and_intros <;> first | decide +kernel | exact accepts_of (by decide +kernel) | (unfold State.unpinned; decide +kernel) | (unfold State.quiet; decide +kernel) | exact fun _ h => nomatch h | exact Or.inr (Or.inr rfl)
theorem wit_WriteCheckOrder :
    (HDR.PAGE_ERR = HDR.PAGE_ERR) ∧
    (8064 ≠ HDR.PAGE_ERR ∧ noWindow Page.align 8064 = true) ∧
    (64 ≠ HDR.PAGE_ERR ∧ noWindow Page.align 64 = false ∧ State.reset.role.mode = Mode.boot ∧ Page.align ≠ Page.chip ∧ Page.align ≠ Page.boot ∧ Src.pf ≠ Src.boot) ∧
    (64 ≠ HDR.PAGE_ERR ∧ noWindow Page.courier 64 = false ∧ (x4.role.mode ≠ Mode.boot ∨ Page.courier = Page.chip ∨ Page.courier = Page.boot ∨ Src.pf = Src.boot) ∧ x4.isolated Page.courier = true ∧ openWhenIsolated 64 = false) ∧
    (2032 ≠ HDR.PAGE_ERR ∧ noWindow Page.timeu 2032 = false ∧ (up.role.mode ≠ Mode.boot ∨ Page.timeu = Page.chip ∨ Page.timeu = Page.boot ∨ Src.pf = Src.boot) ∧ (up.isolated Page.timeu = false ∨ openWhenIsolated 2032 = true) ∧ regFields Page.timeu 2032 = none) ∧
    (TIMEU.JUMP_LIMIT ≠ HDR.PAGE_ERR ∧ noWindow Page.timeu TIMEU.JUMP_LIMIT = false ∧ (up.role.mode ≠ Mode.boot ∨ Page.timeu = Page.chip ∨ Page.timeu = Page.boot ∨ Src.pf = Src.boot) ∧ (up.isolated Page.timeu = false ∨ openWhenIsolated TIMEU.JUMP_LIMIT = true) ∧ regFields Page.timeu TIMEU.JUMP_LIMIT = some (fo Page.timeu TIMEU.JUMP_LIMIT) ∧ lowest (up.illegalLow Page.timeu TIMEU.JUMP_LIMIT ++ up.illegal (fo Page.timeu TIMEU.JUMP_LIMIT) (up.view Page.timeu TIMEU.JUMP_LIMIT) 4294967295 ++ (ruleFor Page.timeu TIMEU.JUMP_LIMIT).legal up Src.pf (up.written Page.timeu TIMEU.JUMP_LIMIT 4294967295)) = some E_RANGE) ∧
    (TIMEU.SNAP_CMD ≠ HDR.PAGE_ERR ∧ noWindow Page.timeu TIMEU.SNAP_CMD = false ∧ ((resetting Page.timeu).role.mode ≠ Mode.boot ∨ Page.timeu = Page.chip ∨ Page.timeu = Page.boot ∨ Src.pf = Src.boot) ∧ ((resetting Page.timeu).isolated Page.timeu = false ∨ openWhenIsolated TIMEU.SNAP_CMD = true) ∧ regFields Page.timeu TIMEU.SNAP_CMD = some (fo Page.timeu TIMEU.SNAP_CMD) ∧ lowest ((resetting Page.timeu).illegalLow Page.timeu TIMEU.SNAP_CMD ++ (resetting Page.timeu).illegal (fo Page.timeu TIMEU.SNAP_CMD) ((resetting Page.timeu).view Page.timeu TIMEU.SNAP_CMD) 1 ++ (ruleFor Page.timeu TIMEU.SNAP_CMD).legal (resetting Page.timeu) Src.pf ((resetting Page.timeu).written Page.timeu TIMEU.SNAP_CMD 1)) = none ∧ (Tbl.get false (Page.base Page.timeu) (resetting Page.timeu).srst = true ∧ 64 ≤ TIMEU.SNAP_CMD ∨ (ruleFor Page.timeu TIMEU.SNAP_CMD).busy (resetting Page.timeu) Src.pf ((resetting Page.timeu).written Page.timeu TIMEU.SNAP_CMD 1) = true)) ∧
    (TIMEU.SNAP_CMD ≠ HDR.PAGE_ERR ∧ noWindow Page.timeu TIMEU.SNAP_CMD = false ∧ (up.role.mode ≠ Mode.boot ∨ Page.timeu = Page.chip ∨ Page.timeu = Page.boot ∨ Src.pf = Src.boot) ∧ (up.isolated Page.timeu = false ∨ openWhenIsolated TIMEU.SNAP_CMD = true) ∧ regFields Page.timeu TIMEU.SNAP_CMD = some (fo Page.timeu TIMEU.SNAP_CMD) ∧ lowest (up.illegalLow Page.timeu TIMEU.SNAP_CMD ++ up.illegal (fo Page.timeu TIMEU.SNAP_CMD) (up.view Page.timeu TIMEU.SNAP_CMD) 1 ++ (ruleFor Page.timeu TIMEU.SNAP_CMD).legal up Src.pf (up.written Page.timeu TIMEU.SNAP_CMD 1)) = none ∧ (¬(Tbl.get false (Page.base Page.timeu) up.srst = true ∧ 64 ≤ TIMEU.SNAP_CMD ∨ (ruleFor Page.timeu TIMEU.SNAP_CMD).busy up Src.pf (up.written Page.timeu TIMEU.SNAP_CMD 1) = true))) := by
  and_intros <;> first | decide +kernel | exact accepts_of (by decide +kernel) | (unfold State.unpinned; decide +kernel) | (unfold State.quiet; decide +kernel) | exact fun _ h => nomatch h | exact Or.inr (Or.inr rfl)
theorem wit_RejectedWrite :
    x7.full = true ∧ x7.bytes = 4 ∧ x7.addr % 4 = 0 ∧ pageFor Src.pf x7.addr = some (Page.timeu, 2032) ∧ up.reaches Src.pf Page.timeu = true ∧ up.verdict (ruleFor Page.timeu 2032) Src.pf Page.timeu 2032 (BitVec.setWidth 32 x7.data) = some E_RESERVED := by
  and_intros <;> first | decide +kernel | exact accepts_of (by decide +kernel) | (unfold State.unpinned; decide +kernel) | (unfold State.quiet; decide +kernel) | exact fun _ h => nomatch h | exact Or.inr (Or.inr rfl)
theorem wit_LatchingReads :
    ((Page.base Page.timeu + TIMEU.STEP_S_LO) % 4 = 0 ∧ pageFor Src.pf (Page.base Page.timeu + TIMEU.STEP_S_LO) = some (Page.timeu, TIMEU.STEP_S_LO) ∧ pageFor Src.pf (Page.base Page.timeu + TIMEU.STEP_S_LO + 4) = some (Page.timeu, TIMEU.STEP_S_LO + 4) ∧ up.reaches Src.pf Page.timeu = true ∧ up.role.mode ≠ Mode.boot ∧ up.isolated Page.timeu = false ∧ 64 ≤ TIMEU.STEP_S_LO ∧ latchSet Page.timeu TIMEU.STEP_S_LO = [TIMEU.STEP_S_LO + 4] ∧ Tbl.look (srcKey Src.pf * 2 ^ 33 + Page.base Page.timeu + TIMEU.STEP_S_LO) up.latch = none ∧ regFields Page.timeu (TIMEU.STEP_S_LO + 4) = some (fo Page.timeu TIMEU.STEP_S_HI)) ∧
    (10485760 % 4 = 0 ∧ pageFor Src.pf 10485760 = none) ∧
    ((Page.base Page.timeu + TIMEU.STEP_S_LO) % 4 = 0 ∧ pageFor Src.pf (Page.base Page.timeu + TIMEU.STEP_S_LO) = some (Page.timeu, TIMEU.STEP_S_LO) ∧ (State.reset.reaches Src.pf Page.timeu = false ∨ State.reset.role.mode = Mode.boot ∧ Page.timeu ≠ Page.chip ∧ Page.timeu ≠ Page.boot ∧ Src.pf ≠ Src.boot)) ∧
    (vfs.reaches (Src.fn 5) (Page.guest 5 0) = true ∧ vfs.role.mode ≠ Mode.boot ∧ vfs.isolated (Page.guest 5 0) = false ∧ Tbl.look (srcKey (Src.fn 5) * 2 ^ 33 + Page.base (Page.guest 5 0) + GCTL.G_CYC_C) vfs.latch = none) ∧
    (up.reaches Src.pf Page.ledger = true ∧ up.role.mode ≠ Mode.boot ∧ up.isolated Page.ledger = false ∧ Tbl.look (srcKey Src.pf * 2 ^ 33 + Page.base Page.ledger + LEDGER.LG_HEAD_LO) up.latch = none) := by
  and_intros <;> first | decide +kernel | exact accepts_of (by decide +kernel) | (unfold State.unpinned; decide +kernel) | (unfold State.quiet; decide +kernel) | exact fun _ h => nomatch h | exact Or.inr (Or.inr rfl)
theorem wit_PageControl :
    (Page.isGuest Page.courier = false ∧ bit (up.rd Page.courier HDR.PAGE_CTL) 1 = false ∧ up.accepts Src.pf Page.courier HDR.PAGE_CTL (up.rd Page.courier HDR.PAGE_CTL ||| 2)) ∧
    (Page.isGuest Page.courier = false ∧ bit (up.rd Page.courier HDR.PAGE_CTL) 1 = false ∧ up.accepts Src.pf Page.courier HDR.PAGE_CTL (setBits (up.rd Page.courier HDR.PAGE_CTL) 5 4 1)) ∧
    (Page.isGuest Page.courier = false ∧ bit (up.rd Page.courier HDR.PAGE_CTL) 1 = false ∧ up.accepts Src.pf Page.courier HDR.PAGE_CTL (setBit (up.rd Page.courier HDR.PAGE_CTL) 0 true) ∧ bit (up.rd Page.courier HDR.PAGE_CTL) 0 = true) ∧
    (Page.isGuest Page.courier = false ∧ bit (up.rd Page.courier HDR.PAGE_CTL) 1 = false ∧ up.accepts Src.pf Page.courier HDR.PAGE_CTL (setBit (up.rd Page.courier HDR.PAGE_CTL) 0 false) ∧ bit (up.rd Page.courier HDR.PAGE_CTL) 0 ≠ false) := by
  and_intros <;> first | decide +kernel | exact accepts_of (by decide +kernel) | (unfold State.unpinned; decide +kernel) | (unfold State.quiet; decide +kernel) | exact fun _ h => nomatch h | exact Or.inr (Or.inr rfl)
theorem wit_SoftResetEnds :
    (Tbl.get false (Page.base Page.courier) up.srst = false) ∧
    (Page.isBlock Page.pwrmon = true ∧ Tbl.get false (Page.base Page.pwrmon) x8.srst = true) := by
  and_intros <;> first | decide +kernel | exact accepts_of (by decide +kernel) | (unfold State.unpinned; decide +kernel) | (unfold State.quiet; decide +kernel) | exact fun _ h => nomatch h | exact Or.inr (Or.inr rfl)
theorem wit_HeaderAndCounters_1 :
    (up.accepts Src.pf Page.timeu HDR.IRQ_SET 65536) ∧
    (up.reaches Src.pf Page.timeu = true) ∧
    (regFields Page.timeu HDR.IRQ_STS = some (fo Page.timeu HDR.IRQ_STS) ∧ up.accepts Src.pf Page.timeu HDR.IRQ_STS (setBits 65536 15 0 (bits (up.view Page.timeu HDR.IRQ_STS) 15 0))) ∧
    (regFields Page.timeu HDR.LEDGER_CTL = some (fo Page.timeu HDR.LEDGER_CTL) ∧ Page.isGuest Page.timeu = false ∧ up.accepts Src.pf Page.timeu HDR.LEDGER_CTL 1) ∧
    (0 < 4 ∧ up.accepts Src.pf (Page.port 0) PORT.CNT_CLR 1 ∧ cntClr (Page.port 0) 0 = some PORT.CNT_CLR) ∧
    (up.accepts Src.pf Page.porter PORTER.CNT_CLR 1 ∧ cntClr Page.porter 0 = some PORTER.CNT_CLR) ∧
    (up.accepts Src.pf Page.point POINT.CNT_CLR 1 ∧ cntClr Page.point 0 = some POINT.CNT_CLR) ∧
    (up.accepts Src.pf Page.role ROLE.CNT_CLR 1 ∧ cntClr Page.role 0 = some ROLE.CNT_CLR) := by
  and_intros <;> first | decide +kernel | exact accepts_of (by decide +kernel) | (unfold State.unpinned; decide +kernel) | (unfold State.quiet; decide +kernel) | exact fun _ h => nomatch h | exact Or.inr (Or.inr rfl)
theorem wit_HeaderAndCounters_2 :
    (up.accepts Src.pf Page.keyring KEYRING.CNT_CLR 1 ∧ cntClr Page.keyring 0 = some KEYRING.CNT_CLR) ∧
    (up.accepts Src.pf Page.mgmt PORT.CNT_CLR 1 ∧ cntClr Page.mgmt 0 = some PORT.CNT_CLR) ∧
    (up.accepts Src.pf Page.redun (win 0 REDUNW.CNT_CLR) 1 ∧ cntClr Page.redun 0 = some (win 0 REDUNW.CNT_CLR)) ∧
    (up.accepts Src.pf Page.align ALIGN.CNT_CLR 1 ∧ cntClr Page.align 0 = some ALIGN.CNT_CLR) ∧
    (0 < 16 ∧ up.accepts Src.pf (Page.exb 0) EXB.CNT_CLR 1 ∧ cntClr (Page.exb 0) 0 = some EXB.CNT_CLR) ∧
    (0 < 16 ∧ up.accepts Src.pf (Page.pcache 0) PCACHE.CNT_CLR 1 ∧ cntClr (Page.pcache 0) 0 = some PCACHE.CNT_CLR) ∧
    (up.accepts Src.pf Page.hinge HINGE.CNT_CLR 1 ∧ cntClr Page.hinge 0 = some HINGE.CNT_CLR) ∧
    (up.accepts Src.pf Page.check CHECK.CNT_CLR 1 ∧ cntClr Page.check 0 = some CHECK.CNT_CLR) := by
  and_intros <;> first | decide +kernel | exact accepts_of (by decide +kernel) | (unfold State.unpinned; decide +kernel) | (unfold State.quiet; decide +kernel) | exact fun _ h => nomatch h | exact Or.inr (Or.inr rfl)
theorem wit_HeaderAndCounters_3 :
    (up.accepts Src.pf Page.ledger LEDGER.CNT_CLR 1 ∧ cntClr Page.ledger 0 = some LEDGER.CNT_CLR) ∧
    (0 < 4 ∧ up.accepts Src.pf (Page.dramc 0) DRAMC.CNT_CLR 1 ∧ cntClr (Page.dramc 0) 0 = some DRAMC.CNT_CLR) ∧
    (up.accepts Src.pf Page.hostif HOSTIF.HI_CNT_CLR 1 ∧ cntClr Page.hostif 0 = some HOSTIF.HI_CNT_CLR) ∧
    (up.accepts Src.pf Page.clkrst CLKRST.CNT_CLR 1 ∧ cntClr Page.clkrst 0 = some CLKRST.CNT_CLR) ∧
    (up.accepts Src.pf Page.adc ADC.CNT_CLR 1 ∧ cntClr Page.adc 0 = some ADC.CNT_CLR) ∧
    (up.accepts Src.pf Page.filt 64 1 ∧ cntClr Page.filt 0 = some 64) ∧
    (up.accepts Src.pf Page.acq ACQ.CNT_CLR 1 ∧ cntClr Page.acq 0 = some ACQ.CNT_CLR) ∧
    (up.accepts Src.pf Page.pwrmon PWRMON.CNT_CLR 1) := by
  and_intros <;> first | decide +kernel | exact accepts_of (by decide +kernel) | (unfold State.unpinned; decide +kernel) | (unfold State.quiet; decide +kernel) | exact fun _ h => nomatch h | exact Or.inr (Or.inr rfl)
theorem wit_HeaderAndCounters_4 :
    (up.accepts Src.pf Page.crypto CRYPTO.CNT_CLR 1) ∧
    (up.accepts Src.pf Page.courier COURIER.CNT_CLR 1) := by
  and_intros <;> first | decide +kernel | exact accepts_of (by decide +kernel) | (unfold State.unpinned; decide +kernel) | (unfold State.quiet; decide +kernel) | exact fun _ h => nomatch h | exact Or.inr (Or.inr rfl)
theorem wit_VectorMasks :
    (msixOk 1000 0 = false) ∧
    (msixOk 0 3 = true) := by
  and_intros <;> first | decide +kernel | exact accepts_of (by decide +kernel) | (unfold State.unpinned; decide +kernel) | (unfold State.quiet; decide +kernel) | exact fun _ h => nomatch h | exact Or.inr (Or.inr rfl)
theorem wit_CellFaults_1 :
    (up.isolated Page.porter = false ∧ Page.real Page.porter = true ∧ 2 < Page.cells Page.porter ∧ up.quarantined Page.porter 2 = false ∧ (∀ (n : Nat), Page.porter ≠ Page.dramc n)) ∧
    (up.isolated Page.porter = false ∧ Page.real Page.porter = true ∧ 2 < Page.cells Page.porter ∧ up.quarantined Page.porter 2 = false) ∧
    (up.isolated Page.porter = false ∧ 2 < Page.cells Page.porter ∧ up.quarantined Page.porter 2 = false ∧ Page.porter ∈ [Page.porter, Page.align, Page.egress, Page.timeu, Page.redun, Page.courier]) ∧
    (up.isolated (Page.exb 2) = false ∧ Page.exb 2 = Page.exb 2 ∧ up.quarantined (Page.exb 2) 3 = false ∧ up.guests = []) ∧
    (isa0.isolated (Page.exb 0) = false ∧ Page.exb 0 = Page.exb 0 ∧ isa0.quarantined (Page.exb 0) 0 = false ∧ isa0.guests = [] ∧ (isa0.cell (16 * 0 + 0)).run = Run.running) ∧
    (up.isolated (Page.exb 2) = false ∧ Page.exb 2 = Page.exb 2 ∧ up.quarantined (Page.exb 2) 3 = false ∧ up.guests = [] ∧ (up.cell (16 * 2 + 3)).run ≠ Run.running) ∧
    (up.isolated Page.porter = false ∧ (Page.cells Page.porter ≤ 9 ∨ up.quarantined Page.porter 9 = true)) ∧
    (2 < 16 ∧ up.isolated (Page.exb 2) = false ∧ up.quarantined (Page.exb 2) 3 = false) := by
  and_intros <;> first | decide +kernel | exact accepts_of (by decide +kernel) | (unfold State.unpinned; decide +kernel) | (unfold State.quiet; decide +kernel) | exact fun _ h => nomatch h | exact Or.inr (Or.inr rfl)
theorem wit_CellFaults_2 :
    (2 < 16 ∧ tst.isolated (Page.exb 2) = false ∧ tst.quarantined (Page.exb 2) 3 = false ∧ tst.accepts Src.pf (Page.exb 2) HDR.FAULT_CTL (BitVec.ofNat 32 (256 + 3))) ∧
    (1 ≠ 0 ∧ Page.isRegion Page.porter = false ∧ Page.isGuest Page.porter = false ∧ tst.accepts Src.pf Page.porter HDR.FAULT_CTL (BitVec.ofNat 32 (256 + 16 * 1 + 2)) ∧ tst.quarantined Page.porter 2 = false) := by
  and_intros <;> first | decide +kernel | exact accepts_of (by decide +kernel) | (unfold State.unpinned; decide +kernel) | (unfold State.quiet; decide +kernel) | exact fun _ h => nomatch h | exact Or.inr (Or.inr rfl)
theorem wit_BlockFaults :
    (Page.isBlock Page.courier = true ∧ Page.courier ≠ Page.chip ∧ up.isolated Page.courier = false) ∧
    (up.chipLost = false ∧ up.role.mode ≠ Mode.boot) ∧
    (isoC.isolated Page.courier = true ∧ (∀ (n : Nat), Page.courier ≠ Page.pcache n)) ∧
    (up.isolated Page.courier = false ∧ bits (up.rd Page.courier HDR.PAGE_CTL) 5 4 = 0) ∧
    (State.reset.role.mode = Mode.boot) ∧
    (up.role.mode ≠ Mode.boot) := by
  and_intros <;> first | decide +kernel | exact accepts_of (by decide +kernel) | (unfold State.unpinned; decide +kernel) | (unfold State.quiet; decide +kernel) | exact fun _ h => nomatch h | exact Or.inr (Or.inr rfl)
theorem wit_SlewsAndSteps_1 :
    (up.accepts Src.pf Page.timeu TIMEU.SLEW_LO 100#32 ∧ ({ up with shadow := Tbl.put (key Page.timeu TIMEU.SLEW_LO) (100#32) up.shadow } : State).accepts Src.pf Page.timeu TIMEU.SLEW_HI (BitVec.ofNat 32 (100 / 2 ^ 32))) ∧
    ((up.time.slewPend = 0 ∨ up.slewStep < up.time.slewPend.natAbs)) ∧
    ((((slewed.incr + 5 : Nat) : Int)) = ↑slewed.incr + slewed.time.slewPend ∧ slewed.time.slewPend ≠ 0 ∧ slewed.time.slewPend.natAbs ≤ slewed.slewStep ∧ slewed.time.job = none ∧ slewed.quiet (slewed.incr + 5)) ∧
    (slewed.accepts Src.pf Page.timeu TIMEU.SNAP_CMD 1) ∧
    (up.accepts Src.pf Page.timeu TIMEU.STEP_CMD 5) ∧
    (up.time.job = none) ∧
    (jobbed.time.job = some x9 ∧ jobbed.time.slewPend = 0 ∧ jobbed.quiet jobbed.incr ∧ jobbed.time.sched = [] ∧ jobbed.porter.ctxs = [] ∧ (jobbed.role.mode = Mode.configure ∨ x9.force = true)) ∧
    (jobbedA.time.job = some x10 ∧ jobbedA.time.slewPend = 0 ∧ jobbedA.quiet jobbedA.incr ∧ jobbedA.time.sched = [] ∧ jobbedA.porter.ctxs = [] ∧ jobbedA.role.mode ≠ Mode.configure ∧ x10.force = false ∧ (if x10.abs = true then sDiff ((x10.secs % 2 ^ 48 * secU + x10.ns.toNat * nsU) / secU) ((jobbedA.time.clock + jobbedA.incr) / secU) * ↑secU + ((((x10.secs % 2 ^ 48 * secU + x10.ns.toNat * nsU) % secU : Nat) : Int)) - ((((jobbedA.time.clock + jobbedA.incr) % secU : Nat) : Int)) else (signed 48 x10.secs * 1000000000 + x10.ns) * ↑nsU).natAbs ≤ jobbedA.rdf Page.timeu TIMEU.JUMP_LIMIT 19 0 * nsU ∧ (if x10.abs = true then sDiff ((x10.secs % 2 ^ 48 * secU + x10.ns.toNat * nsU) / secU) ((jobbedA.time.clock + jobbedA.incr) / secU) * ↑secU + ((((x10.secs % 2 ^ 48 * secU + x10.ns.toNat * nsU) % secU : Nat) : Int)) - ((((jobbedA.time.clock + jobbedA.incr) % secU : Nat) : Int)) else (signed 48 x10.secs * 1000000000 + x10.ns) * ↑nsU).natAbs ≤ secU) := by
  and_intros <;> first | decide +kernel | exact accepts_of (by decide +kernel) | (unfold State.unpinned; decide +kernel) | (unfold State.quiet; decide +kernel) | exact fun _ h => nomatch h | exact Or.inr (Or.inr rfl)
theorem wit_SlewsAndSteps_2 :
    (jobbedQ.time.job = some x11 ∧ jobbedQ.time.slewPend = 0 ∧ jobbedQ.quiet jobbedQ.incr ∧ jobbedQ.time.sched = [] ∧ jobbedQ.porter.ctxs = [] ∧ jobbedQ.role.mode ≠ Mode.configure ∧ x11.force = false ∧ jobbedQ.rdf Page.timeu TIMEU.JUMP_LIMIT 19 0 * nsU < (if x11.abs = true then sDiff ((x11.secs % 2 ^ 48 * secU + x11.ns.toNat * nsU) / secU) ((jobbedQ.time.clock + jobbedQ.incr) / secU) * ↑secU + ((((x11.secs % 2 ^ 48 * secU + x11.ns.toNat * nsU) % secU : Nat) : Int)) - ((((jobbedQ.time.clock + jobbedQ.incr) % secU : Nat) : Int)) else (signed 48 x11.secs * 1000000000 + x11.ns) * ↑nsU).natAbs ∧ bit (jobbedQ.rd Page.timeu TIMEU.TIME_CTL) 0 = false) ∧
    (jobbedF.time.job = some x11 ∧ jobbedF.time.slewPend = 0 ∧ jobbedF.quiet jobbedF.incr ∧ jobbedF.time.sched = [] ∧ jobbedF.porter.ctxs = [] ∧ jobbedF.role.mode ≠ Mode.configure ∧ x11.force = false ∧ jobbedF.rdf Page.timeu TIMEU.JUMP_LIMIT 19 0 * nsU < (if x11.abs = true then sDiff ((x11.secs % 2 ^ 48 * secU + x11.ns.toNat * nsU) / secU) ((jobbedF.time.clock + jobbedF.incr) / secU) * ↑secU + ((((x11.secs % 2 ^ 48 * secU + x11.ns.toNat * nsU) % secU : Nat) : Int)) - ((((jobbedF.time.clock + jobbedF.incr) % secU : Nat) : Int)) else (signed 48 x11.secs * 1000000000 + x11.ns) * ↑nsU).natAbs ∧ bit (jobbedF.rd Page.timeu TIMEU.TIME_CTL) 0 = true ∧ (if x11.abs = true then sDiff ((x11.secs % 2 ^ 48 * secU + x11.ns.toNat * nsU) / secU) ((jobbedF.time.clock + jobbedF.incr) / secU) * ↑secU + ((((x11.secs % 2 ^ 48 * secU + x11.ns.toNat * nsU) % secU : Nat) : Int)) - ((((jobbedF.time.clock + jobbedF.incr) % secU : Nat) : Int)) else (signed 48 x11.secs * 1000000000 + x11.ns) * ↑nsU).natAbs ≤ secU) ∧
    (jobbedR.time.job = some x12 ∧ jobbedR.time.slewPend = 0 ∧ jobbedR.quiet jobbedR.incr ∧ jobbedR.time.sched = [] ∧ jobbedR.porter.ctxs = [] ∧ jobbedR.role.mode ≠ Mode.configure ∧ x12.force = false ∧ jobbedR.rdf Page.timeu TIMEU.JUMP_LIMIT 19 0 * nsU < (if x12.abs = true then sDiff ((x12.secs % 2 ^ 48 * secU + x12.ns.toNat * nsU) / secU) ((jobbedR.time.clock + jobbedR.incr) / secU) * ↑secU + ((((x12.secs % 2 ^ 48 * secU + x12.ns.toNat * nsU) % secU : Nat) : Int)) - ((((jobbedR.time.clock + jobbedR.incr) % secU : Nat) : Int)) else (signed 48 x12.secs * 1000000000 + x12.ns) * ↑nsU).natAbs ∧ bit (jobbedR.rd Page.timeu TIMEU.TIME_CTL) 0 = true ∧ secU < (if x12.abs = true then sDiff ((x12.secs % 2 ^ 48 * secU + x12.ns.toNat * nsU) / secU) ((jobbedR.time.clock + jobbedR.incr) / secU) * ↑secU + ((((x12.secs % 2 ^ 48 * secU + x12.ns.toNat * nsU) % secU : Nat) : Int)) - ((((jobbedR.time.clock + jobbedR.incr) % secU : Nat) : Int)) else (signed 48 x12.secs * 1000000000 + x12.ns) * ↑nsU).natAbs) := by
  and_intros <;> first | decide +kernel | exact accepts_of (by decide +kernel) | (unfold State.unpinned; decide +kernel) | (unfold State.quiet; decide +kernel) | exact fun _ h => nomatch h | exact Or.inr (Or.inr rfl)
theorem wit_SecondsAndTicks :
    (nearSec.time.job = none ∧ nearSec.time.slewPend = 0 ∧ nearSec.time.sync = Sync.free ∧ nearSec.role.mode = Mode.configure ∧ nearSec.role.demote = none ∧ nearSec.ckpt.state = 0 ∧ nearSec.hinge.later = [] ∧ nearSec.leapAt = 0 ∧ nearSec.incr ≠ 0 ∧ (∀ (u : Nat), u < 4 → bit (nearSec.au u ACQW.AU_CFG) 0 = false) ∧ nearSec.time.sched.length ≤ 64 ∧ nearSec.time.clock < (secOf nearSec.time.clock + 1) * secU ∧ (secOf nearSec.time.clock + 1) * secU + nearSec.incr ≤ clockU) ∧
    (nearSec.time.job = none ∧ nearSec.time.slewPend = 0 ∧ nearSec.time.sync = Sync.free ∧ nearSec.role.mode = Mode.configure ∧ nearSec.role.demote = none ∧ nearSec.ckpt.state = 0 ∧ nearSec.hinge.later = [] ∧ nearSec.leapAt = 0 ∧ nearSec.incr ≠ 0 ∧ (∀ (u : Nat), u < 4 → bit (nearSec.au u ACQW.AU_CFG) 0 = false) ∧ nearSec.time.sched.length ≤ 64 ∧ nearSec.time.clock < clockOfTick (absTick nearSec.time.clock + 1) ∧ clockOfTick (absTick nearSec.time.clock + 1) + nearSec.incr ≤ clockU) := by
  and_intros <;> first | decide +kernel | exact accepts_of (by decide +kernel) | (unfold State.unpinned; decide +kernel) | (unfold State.quiet; decide +kernel) | exact fun _ h => nomatch h | exact Or.inr (Or.inr rfl)
theorem wit_Synchronisation_1 :
    (lockd.accepts Src.pf Page.timeu TIMEU.SYNC_REPORT 1 ∧ lockd.time.sync = Sync.locked) ∧
    (held.accepts Src.pf Page.timeu TIMEU.SYNC_REPORT 1 ∧ held.time.sync ≠ Sync.locked) ∧
    (lockd.accepts Src.pf Page.timeu TIMEU.SYNC_REPORT 0 ∧ lockd.time.sync = Sync.locked ∧ lockd.rdf Page.timeu TIMEU.SYNC_CFG 27 16 ≠ 0) ∧
    (lock0.accepts Src.pf Page.timeu TIMEU.SYNC_REPORT 0 ∧ lock0.time.sync = Sync.locked ∧ (¬lock0.rdf Page.timeu TIMEU.SYNC_CFG 27 16 ≠ 0)) ∧
    (held.accepts Src.pf Page.timeu TIMEU.SYNC_REPORT 0 ∧ held.time.sync ≠ Sync.locked) ∧
    (tout.time.sync = Sync.locked ∧ tout.time.reported = false ∧ tout.timeoutDue = true ∧ tout.rdf Page.timeu TIMEU.SYNC_CFG 27 16 ≠ 0) ∧
    (tout0.time.sync = Sync.locked ∧ tout0.time.reported = false ∧ tout0.timeoutDue = true ∧ (¬tout0.rdf Page.timeu TIMEU.SYNC_CFG 27 16 ≠ 0)) ∧
    (hoex.time.sync = Sync.holdover ∧ hoex.time.reported = false ∧ hoex.holdoverDue = true) := by
  and_intros <;> first | decide +kernel | exact accepts_of (by decide +kernel) | (unfold State.unpinned; decide +kernel) | (unfold State.quiet; decide +kernel) | exact fun _ h => nomatch h | exact Or.inr (Or.inr rfl)
theorem wit_Synchronisation_2 :
    ((lockd.time.sync ≠ Sync.locked ∨ lockd.time.reported = true ∨ lockd.timeoutDue = false)) ∧
    ((lockd.time.sync ≠ Sync.holdover ∨ lockd.time.reported = true ∨ lockd.holdoverDue = false)) := by
  and_intros <;> first | decide +kernel | exact accepts_of (by decide +kernel) | (unfold State.unpinned; decide +kernel) | (unfold State.quiet; decide +kernel) | exact fun _ h => nomatch h | exact Or.inr (Or.inr rfl)
theorem wit_CapturesAndTimestamps_1 :
    ((captures 3 (up.pinAt 3 (up.time.elapsed - 0 * 2 ^ 30)) true = false ∨ 0 + 9 < 10 * bits (up.pinAt 3 (up.time.elapsed - 0 * 2 ^ 30)) 11 8)) ∧
    (captures 3 ((capOn' 1).pinAt 3 ((capOn' 1).time.elapsed - 0 * 2 ^ 30)) true = true ∧ 10 * bits ((capOn' 1).pinAt 3 ((capOn' 1).time.elapsed - 0 * 2 ^ 30)) 11 8 ≤ 0 + 9 ∧ (capOn' 1).time.capFifo.length < 256) ∧
    (captures 3 ((capOn' 1).pinAt 3 ((capOn' 1).time.elapsed - 0 * 2 ^ 30)) true = true ∧ 10 * bits ((capOn' 1).pinAt 3 ((capOn' 1).time.elapsed - 0 * 2 ^ 30)) 11 8 ≤ 0 + 9 ∧ (capOn' 1).time.capFifo.length < 256 ∧ (3 = 32 ∨ (∀ (u : Nat), u < 4 → bit ((capOn' 1).au u ACQW.AU_CFG) 0 = false) ∧ ∀ (k : Nat), k < 4 → (capOn' 1).coreTrig k ≠ 3)) ∧
    (captures 3 ((capOn' 256).pinAt 3 ((capOn' 256).time.elapsed - 0 * 2 ^ 30)) true = true ∧ 10 * bits ((capOn' 256).pinAt 3 ((capOn' 256).time.elapsed - 0 * 2 ^ 30)) 11 8 ≤ 0 + 9 ∧ 256 ≤ (capOn' 256).time.capFifo.length) ∧
    (captures 3 ((capOn' 256).pinAt 3 ((capOn' 256).time.elapsed - 0 * 2 ^ 30)) true = true ∧ 10 * bits ((capOn' 256).pinAt 3 ((capOn' 256).time.elapsed - 0 * 2 ^ 30)) 11 8 ≤ 0 + 9 ∧ 256 ≤ (capOn' 256).time.capFifo.length ∧ (3 = 32 ∨ (∀ (u : Nat), u < 4 → bit ((capOn' 256).au u ACQW.AU_CFG) 0 = false) ∧ ∀ (k : Nat), k < 4 → (capOn' 256).coreTrig k ≠ 3)) ∧
    (popd.accepts Src.pf Page.timeu TIMEU.CAP_POP 1) ∧
    (popd.accepts Src.pf Page.timeu TIMEU.CAP_POP 2) ∧
    (popd.accepts Src.pf Page.timeu (tsWin 2 TIMEUW.TXTS_POP) 1) := by
  and_intros <;> first | decide +kernel | exact accepts_of (by decide +kernel) | (unfold State.unpinned; decide +kernel) | (unfold State.quiet; decide +kernel) | exact fun _ h => nomatch h | exact Or.inr (Or.inr rfl)
theorem wit_CapturesAndTimestamps_2 :
    popd.accepts Src.pf Page.timeu (tsWin 2 TIMEUW.TXTS_POP) 2 := by
  and_intros <;> first | decide +kernel | exact accepts_of (by decide +kernel) | (unfold State.unpinned; decide +kernel) | (unfold State.quiet; decide +kernel) | exact fun _ h => nomatch h | exact Or.inr (Or.inr rfl)
theorem wit_ScheduledOutputs_1 :
    (up.accepts Src.pf Page.timeu (TIMEU.TIO_CFG 3) 4098 ∧ regFields Page.timeu (TIMEU.TIO_CFG 3) = some (fo Page.timeu (TIMEU.TIO_CFG 3))) ∧
    (3 < 32 ∧ bits (tioM.rd Page.timeu (TIMEU.TIO_CFG 3)) 2 0 = 2 ∧ Tbl.get 0 3 tioM.time.tio = 0) ∧
    (3 < 32 ∧ bits (tioN.rd Page.timeu (TIMEU.TIO_CFG 3)) 2 0 = 2 ∧ Tbl.get 0 3 tioN.time.tio ≠ 0) ∧
    (3 < 32 ∧ bits (tioO.rd Page.timeu (TIMEU.TIO_CFG 3)) 2 0 ≠ 2) ∧
    (3 < 32) ∧
    (outOn.accepts Src.pf Page.timeu TIMEU.SCH_CMD (BitVec.ofNat 32 (2 ^ 15 + b2n true * 256 + 3))) ∧
    (outOn.accepts Src.pf Page.timeu TIMEU.SCH_CMD (BitVec.ofNat 32 (2 ^ 16 + 3))) ∧
    (up.time.slewPend = 0 ∧ (up.time.sched = [] ∨ ∃ e, e ∈ up.time.sched.head? ∧ qDiff (stampOf (up.time.clock + up.incr)) e.time < 0)) := by
  and_intros <;> first | decide +kernel | exact accepts_of (by decide +kernel) | (unfold State.unpinned; decide +kernel) | (unfold State.quiet; decide +kernel) | exact fun _ h => nomatch h | exact Or.inr (Or.inr rfl)
theorem wit_ScheduledOutputs_2 :
    (up.time.slewPend = 0 ∧ secOf (up.ppsLine ((up.time.clock + up.incr) % clockU)) = secOf (up.ppsLine up.time.clock)) ∧
    (up.time.slewPend = 0 ∧ (up.time.pps = false ∨ up.time.elapsed + up.incr < up.time.ppsAt + up.ppsWidth)) ∧
    (outOn.time.slewPend = 0 ∧ outOn.time.sched = [x13] ∧ 0 ≤ qDiff (stampOf (outOn.time.clock + outOn.incr)) x13.time ∧ outOn.time.job = none ∧ ({ outOn with time := { outOn.time with sched := [] } } : State).quiet outOn.incr) ∧
    (ppsS.time.slewPend = 0 ∧ secOf (ppsS.ppsLine (ppsS.time.clock + ppsS.incr)) ≠ secOf (ppsS.ppsLine ppsS.time.clock) ∧ ppsS.ppsOpen = true ∧ ppsS.time.pps = false ∧ ppsS.time.job = none ∧ ppsS.time.clock + ppsS.incr < clockU ∧ secOf (ppsS.time.clock + ppsS.incr) = secOf ppsS.time.clock ∧ absTick (ppsS.time.clock + ppsS.incr) = absTick ppsS.time.clock ∧ ppsS.time.sync = Sync.free ∧ ppsS.time.cfgWait = [] ∧ ppsS.time.sched = [] ∧ (ppsS.time.elapsed + ppsS.incr) / (1000000 * nsU) = ppsS.time.elapsed / (1000000 * nsU) ∧ ppsS.ppsLine (ppsS.time.clock + ppsS.incr) % secU ≤ ppsS.time.elapsed + ppsS.incr ∧ ppsS.ppsLine (ppsS.time.clock + ppsS.incr) % secU < ppsS.ppsWidth) ∧
    (ppsF.time.slewPend = 0 ∧ ppsF.time.pps = true ∧ ppsF.time.ppsAt + ppsF.ppsWidth ≤ ppsF.time.elapsed + ppsF.incr ∧ ppsF.time.job = none ∧ ({ ppsF with time := { ppsF.time with pps := false } } : State).quiet ppsF.incr) := by
  and_intros <;> first | decide +kernel | exact accepts_of (by decide +kernel) | (unfold State.unpinned; decide +kernel) | (unfold State.quiet; decide +kernel) | exact fun _ h => nomatch h | exact Or.inr (Or.inr rfl)
theorem wit_PortLinks :
    (up.accepts Src.pf (portPage 0) PORT.PORT_CTL 65585 ∧ regFields (portPage 0) PORT.PORT_CTL = some (fo (Page.port 0) PORT.PORT_CTL) ∧ (65585 % 16 = up.rdf (portPage 0) PORT.PORT_CTL 3 0 ∨ up.linkOf 0 = false)) ∧
    (linkOn.accepts Src.pf (portPage 0) PORT.PORT_CTL 65585 ∧ regFields (portPage 0) PORT.PORT_CTL = some (fo (Page.port 0) PORT.PORT_CTL) ∧ 65585 % 16 ≠ linkOn.rdf (portPage 0) PORT.PORT_CTL 3 0 ∧ linkOn.linkOf 0 = true) ∧
    (linkOn.linkOf 0 = true) ∧
    (linkOn.linkOf 1 = false) ∧
    (clk0.linkOf 0 = false ∧ clk0.portOn 0 = true ∧ clk0.sdLocked 0 = true) ∧
    ((linkOn.linkOf 0 = true ∨ linkOn.portOn 0 = false ∨ linkOn.sdLocked 0 = false)) := by
  and_intros <;> first | decide +kernel | exact accepts_of (by decide +kernel) | (unfold State.unpinned; decide +kernel) | (unfold State.quiet; decide +kernel) | exact fun _ h => nomatch h | exact Or.inr (Or.inr rfl)
theorem wit_FrameReception :
    ((¬(up.portOn 4 = true ∧ bit (up.rd (portPage 4) PORT.PORT_CTL) 5 = true ∧ up.linkOf 4 = true))) ∧
    ((mg.portOn 4 = true ∧ bit (mg.rd (portPage 4) PORT.PORT_CTL) 5 = true ∧ mg.linkOf 4 = true) ∧ x14.fcsOk = false) ∧
    ((mg.portOn 4 = true ∧ bit (mg.rd (portPage 4) PORT.PORT_CTL) 5 = true ∧ mg.linkOf 4 = true) ∧ x15.fcsOk = true ∧ mg.pairMode 4 = 0 ∧ (x15.len < 64 ∨ mg.rdf (portPage 4) PORT.PORT_MTU 13 0 < x15.len)) ∧
    ((mg.portOn 4 = true ∧ bit (mg.rd (portPage 4) PORT.PORT_CTL) 5 = true ∧ mg.linkOf 4 = true) ∧ x16.fcsOk = true ∧ mg.pairMode 4 = 0 ∧ 64 ≤ x16.len ∧ x16.len ≤ mg.rdf (portPage 4) PORT.PORT_MTU 13 0 ∧ (etherType x16.unstripped = 34824 ∧ (ofBe (List.take 2 (List.drop 2 x16.unstripped)) = 1 ∨ ofBe (List.take 2 (List.drop 2 x16.unstripped)) = 257))) ∧
    ((mg.portOn 4 = true ∧ bit (mg.rd (portPage 4) PORT.PORT_CTL) 5 = true ∧ mg.linkOf 4 = true) ∧ x17.fcsOk = true ∧ mg.pairMode 4 = 0 ∧ 64 ≤ x17.len ∧ x17.len ≤ mg.rdf (portPage 4) PORT.PORT_MTU 13 0 ∧ (¬(etherType x17.unstripped = 34824 ∧ (ofBe (List.take 2 (List.drop 2 x17.unstripped)) = 1 ∨ ofBe (List.take 2 (List.drop 2 x17.unstripped)) = 257))) ∧ x17.vlan = none ∧ etherType x17.unstripped = 34984) ∧
    ((mg.portOn 4 = true ∧ bit (mg.rd (portPage 4) PORT.PORT_CTL) 5 = true ∧ mg.linkOf 4 = true) ∧ rx0.fcsOk = true ∧ mg.pairMode 4 = 0 ∧ 64 ≤ rx0.len ∧ rx0.len ≤ mg.rdf (portPage 4) PORT.PORT_MTU 13 0 ∧ (¬(etherType rx0.unstripped = 34824 ∧ (ofBe (List.take 2 (List.drop 2 rx0.unstripped)) = 1 ∨ ofBe (List.take 2 (List.drop 2 rx0.unstripped)) = 257))) ∧ 4 = 4 ∧ (rx0.vlan = none → etherType rx0.unstripped ≠ 34984) ∧ bit (mg.rd (portPage 4) PORT.PORT_CTL) 6 = false ∧ (mg.qOn 1 = false ∨ (BitVec.toNat (mg.rd Page.porter (PORTER.Q_PI 1)) + 1) % mg.qRing 1 = BitVec.toNat (mg.rd Page.porter (PORTER.Q_CI 1)) % mg.qRing 1)) ∧
    ((mgQ.portOn 4 = true ∧ bit (mgQ.rd (portPage 4) PORT.PORT_CTL) 5 = true ∧ mgQ.linkOf 4 = true) ∧ rx0.fcsOk = true ∧ mgQ.pairMode 4 = 0 ∧ 64 ≤ rx0.len ∧ rx0.len ≤ mgQ.rdf (portPage 4) PORT.PORT_MTU 13 0 ∧ (¬(etherType rx0.unstripped = 34824 ∧ (ofBe (List.take 2 (List.drop 2 rx0.unstripped)) = 1 ∨ ofBe (List.take 2 (List.drop 2 rx0.unstripped)) = 257))) ∧ 4 = 4 ∧ (rx0.vlan = none → etherType rx0.unstripped ≠ 34984) ∧ bit (mgQ.rd (portPage 4) PORT.PORT_CTL) 6 = false ∧ (¬(mgQ.qOn 1 = false ∨ (BitVec.toNat (mgQ.rd Page.porter (PORTER.Q_PI 1)) + 1) % mgQ.qRing 1 = BitVec.toNat (mgQ.rd Page.porter (PORTER.Q_CI 1)) % mgQ.qRing 1)) ∧ mgQ.ringInDram 1 = true ∧ mgQ.poison = []) := by
  and_intros <;> first | decide +kernel | exact accepts_of (by decide +kernel) | (unfold State.unpinned; decide +kernel) | (unfold State.quiet; decide +kernel) | exact fun _ h => nomatch h | exact Or.inr (Or.inr rfl)
theorem wit_Transmission_1 :
    (Tbl.look 7 (up.ddTab 1) = none) ∧
    (Tbl.look 5 (x18.ddTab 0) = some x19 ∧ x18.time.elapsed < x19.seen + x18.rdf Page.redun REDUN.DD_AGE 15 0 * 1000000 * nsU) ∧
    (Tbl.look 5 (x20.ddTab 0) = some x19 ∧ x19.seen + x20.rdf Page.redun REDUN.DD_AGE 15 0 * 1000000 * nsU ≤ x20.time.elapsed) ∧
    ((nextNs (up.nsOf 1) = none ∨ up.canSend 1 = false ∨ up.time.elapsed < up.wireFree 1)) ∧
    (nextNs (txOn.nsOf 0) = some x21 ∧ txOn.canSend 0 = true ∧ txOn.wireFree 0 ≤ txOn.time.elapsed ∧ (∀ (l : Nat), txOn.nextLaunch 0 = some l → cDiff (txOn.time.clock + wireTime (txOn.speed 0) x21.frame.len * nsU / 100) l < 0)) ∧
    (nextNs (txOn.nsOf 0) = some x21 ∧ txOn.canSend 0 = true ∧ txOn.wireFree 0 ≤ txOn.time.elapsed ∧ (∀ (l : Nat), txOn.nextLaunch 0 = some l → cDiff (txOn.time.clock + wireTime (txOn.speed 0) x21.frame.len * nsU / 100) l < 0) ∧ x21.ingress = none ∧ txOn.ptpOf 0 x21.frame.body = none) ∧
    (nextNs (x22.nsOf 0) = some x23 ∧ x22.canSend 0 = true ∧ x22.wireFree 0 ≤ x22.time.elapsed ∧ (¬∀ (l : Nat), x22.nextLaunch 0 = some l → cDiff (x22.time.clock + wireTime (x22.speed 0) x23.frame.len * nsU / 100) l < 0) ∧ (x23.held = true ∨ 4 ≤ 0)) ∧
    (nextNs (dueOn.nsOf 0) = some x21 ∧ dueOn.canSend 0 = true ∧ dueOn.wireFree 0 ≤ dueOn.time.elapsed ∧ (¬∀ (l : Nat), dueOn.nextLaunch 0 = some l → cDiff (dueOn.time.clock + wireTime (dueOn.speed 0) x21.frame.len * nsU / 100) l < 0) ∧ x21.held = false ∧ 0 < 4) := by
  and_intros <;> first | decide +kernel | exact accepts_of (by decide +kernel) | (unfold State.unpinned; decide +kernel) | (unfold State.quiet; decide +kernel) | exact fun _ h => nomatch h | exact Or.inr (Or.inr rfl)
theorem wit_Transmission_2 :
    ((State.reset.role.mode = Mode.boot ∨ bit (State.reset.rd Page.hinge HINGE.HINGE_CTL) 1 = false)) ∧
    (txOn.role.mode ≠ Mode.boot ∧ bit (txOn.rd Page.hinge HINGE.HINGE_CTL) 1 = true) ∧
    (txOn.role.mode ≠ Mode.boot ∧ bit (txOn.rd Page.hinge HINGE.HINGE_CTL) 1 = true ∧ txOn.pairMode 0 = 0 ∧ txOn.pairMode 2 = 0) ∧
    (List.foldl sooner none (List.map (fun d => d.at_) (List.filter (fun d => d.ports.contains 2) up.due)) = none) ∧
    (List.foldl sooner none (List.map (fun d => d.at_) (List.filter (fun d => d.ports.contains 0) x24.due)) = some (1000 * nsU) ∧ cDiff x24.time.clock (1000 * nsU) < 0) ∧
    (List.foldl sooner none (List.map (fun d => d.at_) (List.filter (fun d => d.ports.contains 0) dueOn.due)) = some 0 ∧ 0 ≤ cDiff dueOn.time.clock 0) ∧
    (List.foldl sooner none (List.map (fun d => d.at_) (List.filter (fun d => d.ports.contains 0) x25.due)) = some 0 ∧ 0 ≤ cDiff x25.time.clock 0 ∧ dueAt (List.filter (fun d => d.at_ == 0) x25.due) 0 = [dueF] ∧ dueF.skip = false ∧ x25.canSend 0 = true ∧ dueF.sign = none ∧ x25.wireFree 0 = x25.time.elapsed) ∧
    (List.foldl sooner none (List.map (fun d => d.at_) (List.filter (fun d => d.ports.contains 0) dueSk.due)) = some 0 ∧ 0 ≤ cDiff dueSk.time.clock 0 ∧ dueAt (List.filter (fun d => d.at_ == 0) dueSk.due) 0 = [x26] ∧ (x26.skip = true ∨ dueSk.canSend 0 = false)) := by
  and_intros <;> first | decide +kernel | exact accepts_of (by decide +kernel) | (unfold State.unpinned; decide +kernel) | (unfold State.quiet; decide +kernel) | exact fun _ h => nomatch h | exact Or.inr (Or.inr rfl)
theorem wit_Publications_1 :
    (up.accepts Src.pf Page.egress EGRESS.PUB_DOORBELL 5) ∧
    (up.pubJob = none) ∧
    (pubSafe.pubJob = some 3 ∧ pubSafe.role.mode = Mode.safe) ∧
    (pubRes.pubJob = some 3 ∧ pubRes.role.mode ≠ Mode.safe ∧ pubRes.rd2 Page.egress EGRESS.PUB_BASE_LO + 64 * 3 + 64 ≤ dramSize ∧ pubReserved (pubRes.readMem (pubRes.rd2 Page.egress EGRESS.PUB_BASE_LO + 64 * 3) 64) = true) ∧
    (pubbed.pubJob = some 3 ∧ pubbed.role.mode ≠ Mode.safe ∧ pubbed.rd2 Page.egress EGRESS.PUB_BASE_LO + 64 * 3 + 64 ≤ dramSize ∧ pubReserved (pubbed.readMem (pubbed.rd2 Page.egress EGRESS.PUB_BASE_LO + 64 * 3) 64) = false ∧ (pubbed.readMem (pubbed.rd2 Page.egress EGRESS.PUB_BASE_LO + 64 * 3) 64).headD 0 &&& 1 = 0 ∧ pubbed.guest     (match Tbl.look 3 pubbed.pubs with     | some u => u.entry.guest     | none => 0) =   none) ∧
    ((pubG 0 false).pubJob = some 3 ∧ (pubG 0 false).role.mode ≠ Mode.safe ∧ (pubG 0 false).rd2 Page.egress EGRESS.PUB_BASE_LO + 64 * 3 + 64 ≤ dramSize ∧ pubReserved ((pubG 0 false).readMem ((pubG 0 false).rd2 Page.egress EGRESS.PUB_BASE_LO + 64 * 3) 64) = false ∧ ((pubG 0 false).readMem ((pubG 0 false).rd2 Page.egress EGRESS.PUB_BASE_LO + 64 * 3) 64).headD 0 &&& 1 = 0 ∧ ((pubG 0 false).guest       (match Tbl.look 3 (pubG 0 false).pubs with       | some u => u.entry.guest       | none => 0)).isSome =   true ∧ (pubG 0 false).mirrored = false) ∧
    ((pubG 0 true).pubJob = some 3 ∧ (pubG 0 true).role.mode ≠ Mode.safe ∧ (pubG 0 true).rd2 Page.egress EGRESS.PUB_BASE_LO + 64 * 3 + 64 ≤ dramSize ∧ pubReserved ((pubG 0 true).readMem ((pubG 0 true).rd2 Page.egress EGRESS.PUB_BASE_LO + 64 * 3) 64) = false ∧ ((pubG 0 true).readMem ((pubG 0 true).rd2 Page.egress EGRESS.PUB_BASE_LO + 64 * 3) 64).headD 0 &&& 1 = 0 ∧ ((pubG 0 true).guest       (match Tbl.look 3 (pubG 0 true).pubs with       | some u => u.entry.guest       | none => 0)).isSome =   true ∧ (pubG 0 true).mirrored = true) ∧
    (pubBad.pubJob = some 3 ∧ pubBad.role.mode ≠ Mode.safe ∧ pubBad.rd2 Page.egress EGRESS.PUB_BASE_LO + 64 * 3 + 64 ≤ dramSize ∧ pubReserved (pubBad.readMem (pubBad.rd2 Page.egress EGRESS.PUB_BASE_LO + 64 * 3) 64) = false ∧ (pubBad.readMem (pubBad.rd2 Page.egress EGRESS.PUB_BASE_LO + 64 * 3) 64).headD 0 &&& 1 ≠ 0 ∧ (pubOfBytes (pubBad.readMem (pubBad.rd2 Page.egress EGRESS.PUB_BASE_LO + 64 * 3) 64)).mapAddr + 8 * (pubOfBytes (pubBad.readMem (pubBad.rd2 Page.egress EGRESS.PUB_BASE_LO + 64 * 3) 64)).mapCount ≤ dramSize ∧ (pubOfBytes (pubBad.readMem (pubBad.rd2 Page.egress EGRESS.PUB_BASE_LO + 64 * 3) 64)).tmplAddr + (pubOfBytes (pubBad.readMem (pubBad.rd2 Page.egress EGRESS.PUB_BASE_LO + 64 * 3) 64)).tmplLen ≤ dramSize ∧ pubBad.pubCheck 3 (pubBad.readMem (pubBad.rd2 Page.egress EGRESS.PUB_BASE_LO + 64 * 3) 64) = some E_RANGE) := by
  and_intros <;> first | decide +kernel | exact accepts_of (by decide +kernel) | (unfold State.unpinned; decide +kernel) | (unfold State.quiet; decide +kernel) | exact fun _ h => nomatch h | exact Or.inr (Or.inr rfl)
theorem wit_Publications_2 :
    ((pubG 1 false).pubJob = some 3 ∧ (pubG 1 false).role.mode ≠ Mode.safe ∧ (pubG 1 false).rd2 Page.egress EGRESS.PUB_BASE_LO + 64 * 3 + 64 ≤ dramSize ∧ pubReserved ((pubG 1 false).readMem ((pubG 1 false).rd2 Page.egress EGRESS.PUB_BASE_LO + 64 * 3) 64) = false ∧ ((pubG 1 false).readMem ((pubG 1 false).rd2 Page.egress EGRESS.PUB_BASE_LO + 64 * 3) 64).headD 0 &&& 1 ≠ 0 ∧ (pubOfBytes ((pubG 1 false).readMem ((pubG 1 false).rd2 Page.egress EGRESS.PUB_BASE_LO + 64 * 3) 64)).mapAddr + 8 * (pubOfBytes ((pubG 1 false).readMem ((pubG 1 false).rd2 Page.egress EGRESS.PUB_BASE_LO + 64 * 3) 64)).mapCount ≤ dramSize ∧ (pubOfBytes ((pubG 1 false).readMem ((pubG 1 false).rd2 Page.egress EGRESS.PUB_BASE_LO + 64 * 3) 64)).tmplAddr + (pubOfBytes ((pubG 1 false).readMem ((pubG 1 false).rd2 Page.egress EGRESS.PUB_BASE_LO + 64 * 3) 64)).tmplLen ≤ dramSize ∧ (pubG 1 false).pubCheck 3 ((pubG 1 false).readMem ((pubG 1 false).rd2 Page.egress EGRESS.PUB_BASE_LO + 64 * 3) 64) = none ∧ (pubG 1 false).mirrored = false) ∧
    ((pubG 1 true).pubJob = some 3 ∧ (pubG 1 true).role.mode ≠ Mode.safe ∧ (pubG 1 true).rd2 Page.egress EGRESS.PUB_BASE_LO + 64 * 3 + 64 ≤ dramSize ∧ pubReserved ((pubG 1 true).readMem ((pubG 1 true).rd2 Page.egress EGRESS.PUB_BASE_LO + 64 * 3) 64) = false ∧ ((pubG 1 true).readMem ((pubG 1 true).rd2 Page.egress EGRESS.PUB_BASE_LO + 64 * 3) 64).headD 0 &&& 1 ≠ 0 ∧ (pubOfBytes ((pubG 1 true).readMem ((pubG 1 true).rd2 Page.egress EGRESS.PUB_BASE_LO + 64 * 3) 64)).mapAddr + 8 * (pubOfBytes ((pubG 1 true).readMem ((pubG 1 true).rd2 Page.egress EGRESS.PUB_BASE_LO + 64 * 3) 64)).mapCount ≤ dramSize ∧ (pubOfBytes ((pubG 1 true).readMem ((pubG 1 true).rd2 Page.egress EGRESS.PUB_BASE_LO + 64 * 3) 64)).tmplAddr + (pubOfBytes ((pubG 1 true).readMem ((pubG 1 true).rd2 Page.egress EGRESS.PUB_BASE_LO + 64 * 3) 64)).tmplLen ≤ dramSize ∧ (pubG 1 true).pubCheck 3 ((pubG 1 true).readMem ((pubG 1 true).rd2 Page.egress EGRESS.PUB_BASE_LO + 64 * 3) 64) = none ∧ (pubG 1 true).mirrored = true) ∧
    (Tbl.look 3 pubSafe.pubs = none) ∧
    (Tbl.look 3 x27.pubs = some x28 ∧ x27.guest x28.entry.guest = some guest1 ∧ x28.repeatAt = none) ∧
    (Tbl.look 3 x29.pubs = some x30 ∧ x29.guest x30.entry.guest = some guest1 ∧ x30.repeatAt = some 5 ∧ (x30.stopped = true ∨ x30.entry.typ ≠ 0 ∨ cDiff x29.time.clock (x29.instantOf guest1.img.n 5) < 0 ∨ x29.sendState guest1 = none)) ∧
    (Tbl.look 3 x31.pubs = some repP ∧ x31.guest repP.entry.guest = some guest1 ∧ repP.repeatAt = some 5 ∧ repP.stopped = false ∧ repP.entry.typ = 0 ∧ 0 ≤ cDiff x31.time.clock (x31.instantOf guest1.img.n 5) ∧ x31.sendState guest1 = some true ∧ x31.poison = []) := by
  and_intros <;> first | decide +kernel | exact accepts_of (by decide +kernel) | (unfold State.unpinned; decide +kernel) | (unfold State.quiet; decide +kernel) | exact fun _ h => nomatch h | exact Or.inr (Or.inr rfl)
theorem wit_Descriptors_1 :
    (up.accepts Src.pf Page.porter PORTER.SDT_BASE_LO 4096#32 ∧ ({ up with shadow := Tbl.put (key Page.porter PORTER.SDT_BASE_LO) (4096#32) up.shadow } : State).accepts Src.pf Page.porter PORTER.SDT_BASE_HI (BitVec.ofNat 32 (4096 / 2 ^ 32))) ∧
    (up.porter.zeroing = false) ∧
    (zero.porter.zeroing = true ∧ zero.sdtEntry 0 + 1048576 ≤ dramSize ∧ zero.poison = []) ∧
    (sdtOn.accepts Src.pf Page.porter PORTER.DESC_DOORBELL 5) ∧
    ((up.porter.descJob = none ∨ up.porter.zeroing = true)) ∧
    (descBad.porter.descJob = some 3 ∧ descBad.porter.zeroing = false ∧ descBad.rd2 Page.porter PORTER.DESC_STAGE_LO + 128 ≤ dramSize ∧ descBad.sdtEntry 0 + 1048576 ≤ dramSize ∧ descBad.descCheck 3 (descBad.leMem (descBad.sdtEntry 3 + 4) 2) (descBad.readMem (descBad.rd2 Page.porter PORTER.DESC_STAGE_LO) 128) = some E_RANGE) ∧
    (descd.porter.descJob = some 3 ∧ descd.porter.zeroing = false ∧ descd.rd2 Page.porter PORTER.DESC_STAGE_LO + 128 ≤ dramSize ∧ descd.sdtEntry 0 + 1048576 ≤ dramSize ∧ descd.descCheck 3 (descd.leMem (descd.sdtEntry 3 + 4) 2) (descd.readMem (descd.rd2 Page.porter PORTER.DESC_STAGE_LO) 128) = none) ∧
    ((descd.cacheSet 3).contains 3 = false) := by
  and_intros <;> first | decide +kernel | exact accepts_of (by decide +kernel) | (unfold State.unpinned; decide +kernel) | (unfold State.quiet; decide +kernel) | exact fun _ h => nomatch h | exact Or.inr (Or.inr rfl)
theorem wit_Descriptors_2 :
    (cached.cacheSet 3).contains 3 = true ∧ Tbl.look 3 cached.porter.ctxs = some x32 ∧ cached.sdtEntry 3 + 256 ≤ dramSize ∧ cached.poison = [] := by
  and_intros <;> first | decide +kernel | exact accepts_of (by decide +kernel) | (unfold State.unpinned; decide +kernel) | (unfold State.quiet; decide +kernel) | exact fun _ h => nomatch h | exact Or.inr (Or.inr rfl)
theorem wit_ManagerRulesAndQueue_1 :
    (up.accepts Src.pf Page.porter PORTER.RULE_CMD (BitVec.ofNat 32 (1 + 16 * 1))) ∧
    (up.accepts Src.pf Page.porter PORTER.RULE_CMD 2) ∧
    (up.porter.ruleJob = none) ∧
    (ruledH.porter.ruleJob = some (1, 1, [1, 2]) ∧ (List.any ruledH.porter.mt fun e => e.snd.key == [1, 2]) = true) ∧
    (x33.porter.ruleJob = some (1, 1, [1, 2]) ∧ (List.any x33.porter.mt fun e => e.snd.key == [1, 2]) = false ∧ x33.mtInsert x33.porter.mt { key := [1, 2], ctx := none, action := 1 } = none) ∧
    (ruled.porter.ruleJob = some (1, 1, [1, 2]) ∧ (List.any ruled.porter.mt fun e => e.snd.key == [1, 2]) = false ∧ ruled.mtInsert ruled.porter.mt { key := [1, 2], ctx := none, action := 1 } = some x34) ∧
    (ruledR.porter.ruleJob = some (2, 0, [1, 2]) ∧ 2 = 2 ∧ (List.any ruledR.porter.mt fun e => e.snd.key == [1, 2] && e.snd.ctx.isNone) = true) ∧
    (ruledN.porter.ruleJob = some (2, 0, [1, 3]) ∧ 2 = 2 ∧ (List.any ruledN.porter.mt fun e => e.snd.key == [1, 3] && e.snd.ctx.isNone) = false) := by
  and_intros <;> first | decide +kernel | exact accepts_of (by decide +kernel) | (unfold State.unpinned; decide +kernel) | (unfold State.quiet; decide +kernel) | exact fun _ h => nomatch h | exact Or.inr (Or.inr rfl)
theorem wit_ManagerRulesAndQueue_2 :
    (Option.any (fun e => decide (e.at_ + 10 * secU ≤ up.time.elapsed)) (Tbl.look 5 up.porter.disc) = false) ∧
    (Option.any (fun e => decide (e.at_ + 10 * secU ≤ x35.time.elapsed)) (Tbl.look 5 x35.porter.disc) = true) ∧
    (up.ringInDram 3 = true ∧ up.accepts Src.pf Page.porter (PORTER.Q_PI 3) 1 ∧ up.qOn 3 = false) ∧
    (txq.ringInDram 3 = true ∧ txq.accepts Src.pf Page.porter (PORTER.Q_PI 3) 1 ∧ txq.qOn 3 = true ∧ 2 < 5 ∧ 1 < 4096 ∧ txq.porter.txTaken < 4096 ∧ txq.rd Page.porter (PORTER.Q_PI 3) = BitVec.ofNat 32 txq.porter.txTaken ∧ 1 = (txq.porter.txTaken + 1) % txq.qRing 3 ∧ 1 ≠ txq.porter.txTaken ∧ txq.leMem (txq.rd2 Page.porter (PORTER.Q_BASE_LO 3) + txq.porter.txTaken * txq.qEntry 3) 2 ≤ txq.qEntry 3 - 32 ∧ txq.leMem (txq.rd2 Page.porter (PORTER.Q_BASE_LO 3) + txq.porter.txTaken * txq.qEntry 3) 2 ≤ txq.rdf (portPage 2) PORT.PORT_MTU 13 0 ∧ List.filter (fun m => (txq.leMem (txq.rd2 Page.porter (PORTER.Q_BASE_LO 3) + txq.porter.txTaken * txq.qEntry 3 + 2) 1).testBit m) (List.range 5) = [2] ∧ (txq.leMem (txq.rd2 Page.porter (PORTER.Q_BASE_LO 3) + txq.porter.txTaken * txq.qEntry 3 + 3) 1).testBit 0 = false ∧ txq.linkOf 2 = true ∧ txq.ptpOf 2 (List.drop 12 (txq.readMem (txq.rd2 Page.porter (PORTER.Q_BASE_LO 3) + txq.porter.txTaken * txq.qEntry 3 + 32) (txq.leMem (txq.rd2 Page.porter (PORTER.Q_BASE_LO 3) + txq.porter.txTaken * txq.qEntry 3) 2))) = none) := by
  and_intros <;> first | decide +kernel | exact accepts_of (by decide +kernel) | (unfold State.unpinned; decide +kernel) | (unfold State.quiet; decide +kernel) | exact fun _ h => nomatch h | exact Or.inr (Or.inr rfl)
theorem wit_Verification_1 :
    (((x36.porter.jobs.all fun j => j.engine != some (1 + 4)) && Option.all (fun c => c.engine != some (1 + 4)) x36.ledger.clr && !x36.quarantined Page.crypto (1 + 4) && x36.working Page.crypto) = false) ∧
    (up.hmacNext = none ∧ up.tagQueued = false) ∧
    ((verN true).hmacNext = some (vj true)) ∧
    ((verN true).hmacNext = some (vj true) ∧ vj true ∈ (verN true).hmacQueue) ∧
    ((((verN true).porter.jobs.all fun j => j.engine != some (1 + 4)) && Option.all (fun c => c.engine != some (1 + 4)) (verN true).ledger.clr && !(verN true).quarantined Page.crypto (1 + 4) && (verN true).working Page.crypto) = true ∧ ((verN true).tagQueued && Option.any (fun c => c.before (verN true).hmacNext) (verN true).ledger.clr) = false ∧ (verN true).hmacNext = some (vj true) ∧ (verN true).keyUse (vj true).slot (vj true).d.guest (vj true).d.alg false = none) ∧
    (((verT.porter.jobs.all fun j => j.engine != some (1 + 4)) && Option.all (fun c => c.engine != some (1 + 4)) verT.ledger.clr && !verT.quarantined Page.crypto (1 + 4) && verT.working Page.crypto) = true ∧ (verT.tagQueued && Option.any (fun c => c.before verT.hmacNext) verT.ledger.clr) = true ∧ verT.ledger.clr = some clrTag ∧ verT.keyUse (leAt clrTag.token 6 2) 0 2 true = none ∧ verT.kslot (leAt clrTag.token 6 2) = some x37) ∧
    (List.find? (fun j => j.id == 5) up.porter.jobs = none) ∧
    (List.find? (fun j => j.id == 4) x38.porter.jobs = some x39 ∧ x39.engine = some 5 ∧ x39.lost = false ∧ x39.revoked = false ∧ x39.removed = false ∧ x38.porter.held = [] ∧ x39.fr.red = none ∧ Tbl.look x39.ctx x38.porter.ctxs = some x40 ∧ 5 < 12 ∧ x39.late = false ∧ x38.role.mode ≠ Mode.safe ∧ x39.d.policy = 1) := by
  and_intros <;> first | decide +kernel | exact accepts_of (by decide +kernel) | (unfold State.unpinned; decide +kernel) | (unfold State.quiet; decide +kernel) | exact fun _ h => nomatch h | exact Or.inr (Or.inr rfl)
theorem wit_Verification_2 :
    (List.find? (fun j => j.id == 4) x41.porter.jobs = some x42 ∧ x42.engine = some 5 ∧ x42.lost = false ∧ x42.revoked = false ∧ x42.removed = false ∧ x41.porter.held = [] ∧ x42.fr.red = none ∧ Tbl.look x42.ctx x41.porter.ctxs = some x40 ∧ 5 < 12 ∧ x42.late = true) ∧
    (List.find? (fun j => j.id == 4) x38.porter.jobs = some x39 ∧ x39.engine = some 5 ∧ x39.lost = false ∧ x39.revoked = false ∧ x39.removed = false ∧ x38.porter.held = [] ∧ x39.fr.red = none ∧ Tbl.look x39.ctx x38.porter.ctxs = some x40 ∧ 5 < 12 ∧ x39.late = false ∧ x38.role.mode ≠ Mode.safe ∧ x39.fr.f.app = RxApp.goose [] 1 5 6 1000 [] none ∧ goNewer x40.st 5 6 = true) ∧
    (List.find? (fun j => j.id == 4) (verN true).porter.jobs = some (vj true) ∧ ((vj true).late = true ∨ (verN true).now < (vj true).deadline)) ∧
    (List.find? (fun j => j.id == 4) (verN true).porter.jobs = some (vj true) ∧ ((vj true).engine = none ∨ (vj true).lost = true)) ∧
    (List.find? (fun j => j.id == 4) (lateT (ver true false (some 5))).porter.jobs = some x39 ∧ x39.late = false ∧ x39.deadline ≤ (lateT (ver true false (some 5))).now ∧ x39.lost = false ∧ x39.removed = false ∧ (lateT (ver true false (some 5))).role.mode ≠ Mode.safe ∧ (lateT (ver true false (some 5))).porter.held = [] ∧ x39.fr.red = none ∧ x39.d.policy = 1 ∧ Tbl.look x39.ctx (lateT (ver true false (some 5))).porter.ctxs = some x40 ∧ x39.engine.isSome = true) ∧
    (List.find? (fun j => j.id == 4) (lateT (verN true)).porter.jobs = some (vj true) ∧ (vj true).late = false ∧ (vj true).deadline ≤ (lateT (verN true)).now ∧ (vj true).lost = false ∧ (vj true).removed = false ∧ (lateT (verN true)).role.mode ≠ Mode.safe ∧ (lateT (verN true)).porter.held = [] ∧ (vj true).fr.red = none ∧ (vj true).d.policy = 1 ∧ Tbl.look (vj true).ctx (lateT (verN true)).porter.ctxs = some x40 ∧ (vj true).engine = none ∧ (vj true).hmac = true) ∧
    (Tbl.look 3 x43.porter.ctxs = some x40 ∧ x40.d.cls = 1 ∧ x40.st.rxOk ≠ 0 ∧ x40.st.talEnd ≤ x43.time.elapsed ∧ x43.poison = [] ∧ x43.unpinned (x43.statusPoint 3)) ∧
    ((∀ (e : CtxEnt), Tbl.look 2 up.porter.ctxs = some e → e.d.cls ≠ 1 ∨ e.st.rxOk = 0 ∨ up.time.elapsed < e.st.talEnd)) := by
  and_intros <;> first | decide +kernel | exact accepts_of (by decide +kernel) | (unfold State.unpinned; decide +kernel) | (unfold State.quiet; decide +kernel) | exact fun _ h => nomatch h | exact Or.inr (Or.inr rfl)
theorem wit_Alignment_1 :
    ((up.quarantined Page.align 1 = true ∨ Tbl.get [] 1 up.align.lanes = [])) ∧
    (x44.quarantined Page.align 1 = false ∧ Tbl.get [] 1 x44.align.lanes = [las] ∧ Tbl.look las.ctx x44.porter.ctxs = none) ∧
    (x45.quarantined Page.align 1 = false ∧ Tbl.get [] 1 x45.align.lanes = [las] ∧ Tbl.look las.ctx x45.porter.ctxs = some x46 ∧ (x46.d.cls ≠ 0 ∨ las.d.restarts x46.d = true)) ∧
    (x47.quarantined Page.align 1 = false ∧ Tbl.get [] 1 x47.align.lanes = [las] ∧ Tbl.look las.ctx x47.porter.ctxs = some x48 ∧ x48.d.cls = 0 ∧ las.d.restarts x48.d = false ∧ las.asdu.smpSynch ≠ 0 ∧ (x47.actx las.ctx).free = false ∧ ((x47.actx las.ctx).state = 1 ∨ (x47.actx las.ctx).state = 2) ∧ (x47.actx las.ctx).relockPend = false ∧ (x47.locate las.d (x47.actx las.ctx) las false).fst < (x47.actx las.ctx).next) ∧
    ((lane { state := 1 } { las with asdu := { smpCnt := 100, smpSynch := 2, chans := [(7, 0), (8, 0)] } }).quarantined Page.align 1 = false ∧ Tbl.get [] 1 (lane { state := 1 } { las with asdu := { smpCnt := 100, smpSynch := 2, chans := [(7, 0), (8, 0)] } }).align.lanes = [x49] ∧ Tbl.look x49.ctx (lane { state := 1 } { las with asdu := { smpCnt := 100, smpSynch := 2, chans := [(7, 0), (8, 0)] } }).porter.ctxs = some x48 ∧ x48.d.cls = 0 ∧ x49.d.restarts x48.d = false ∧ x49.asdu.smpSynch ≠ 0 ∧ ((lane { state := 1 } { las with asdu := { smpCnt := 100, smpSynch := 2, chans := [(7, 0), (8, 0)] } }).actx x49.ctx).free = false ∧ (((lane { state := 1 } { las with asdu := { smpCnt := 100, smpSynch := 2, chans := [(7, 0), (8, 0)] } }).actx x49.ctx).state = 1 ∨ ((lane { state := 1 } { las with asdu := { smpCnt := 100, smpSynch := 2, chans := [(7, 0), (8, 0)] } }).actx x49.ctx).state = 2) ∧ ((lane { state := 1 } { las with asdu := { smpCnt := 100, smpSynch := 2, chans := [(7, 0), (8, 0)] } }).actx x49.ctx).relockPend = false ∧ ((lane { state := 1 } { las with asdu := { smpCnt := 100, smpSynch := 2, chans := [(7, 0), (8, 0)] } }).actx x49.ctx).next ≤ ((lane { state := 1 } { las with asdu := { smpCnt := 100, smpSynch := 2, chans := [(7, 0), (8, 0)] } }).locate x49.d ((lane { state := 1 } { las with asdu := { smpCnt := 100, smpSynch := 2, chans := [(7, 0), (8, 0)] } }).actx x49.ctx) x49 false).fst ∧ ((lane { state := 1 } { las with asdu := { smpCnt := 100, smpSynch := 2, chans := [(7, 0), (8, 0)] } }).actx x49.ctx).next + x49.d.depth / 2 ≤ ((lane { state := 1 } { las with asdu := { smpCnt := 100, smpSynch := 2, chans := [(7, 0), (8, 0)] } }).locate x49.d ((lane { state := 1 } { las with asdu := { smpCnt := 100, smpSynch := 2, chans := [(7, 0), (8, 0)] } }).actx x49.ctx) x49 false).fst) ∧
    ((lane { state := 1, ahead := [{ g := 5, auth := 1, chans := [] }] } las).quarantined Page.align 1 = false ∧ Tbl.get [] 1 (lane { state := 1, ahead := [{ g := 5, auth := 1, chans := [] }] } las).align.lanes = [las] ∧ Tbl.look las.ctx (lane { state := 1, ahead := [{ g := 5, auth := 1, chans := [] }] } las).porter.ctxs = some x48 ∧ x48.d.cls = 0 ∧ las.d.restarts x48.d = false ∧ las.asdu.smpSynch ≠ 0 ∧ ((lane { state := 1, ahead := [{ g := 5, auth := 1, chans := [] }] } las).actx las.ctx).free = false ∧ (((lane { state := 1, ahead := [{ g := 5, auth := 1, chans := [] }] } las).actx las.ctx).state = 1 ∨ ((lane { state := 1, ahead := [{ g := 5, auth := 1, chans := [] }] } las).actx las.ctx).state = 2) ∧ ((lane { state := 1, ahead := [{ g := 5, auth := 1, chans := [] }] } las).actx las.ctx).relockPend = false ∧ ((lane { state := 1, ahead := [{ g := 5, auth := 1, chans := [] }] } las).actx las.ctx).next ≤ ((lane { state := 1, ahead := [{ g := 5, auth := 1, chans := [] }] } las).locate las.d ((lane { state := 1, ahead := [{ g := 5, auth := 1, chans := [] }] } las).actx las.ctx) las false).fst ∧ ((lane { state := 1, ahead := [{ g := 5, auth := 1, chans := [] }] } las).locate las.d ((lane { state := 1, ahead := [{ g := 5, auth := 1, chans := [] }] } las).actx las.ctx) las false).fst < ((lane { state := 1, ahead := [{ g := 5, auth := 1, chans := [] }] } las).actx las.ctx).next + las.d.depth / 2 ∧ (((lane { state := 1, ahead := [{ g := 5, auth := 1, chans := [] }] } las).actx las.ctx).ahead.any fun p => p.g == ((lane { state := 1, ahead := [{ g := 5, auth := 1, chans := [] }] } las).locate las.d ((lane { state := 1, ahead := [{ g := 5, auth := 1, chans := [] }] } las).actx las.ctx) las false).fst) = true) ∧
    (x50.quarantined Page.align 1 = false ∧ Tbl.get [] 1 x50.align.lanes = [las] ∧ Tbl.look las.ctx x50.porter.ctxs = some x48 ∧ x48.d.cls = 0 ∧ las.d.restarts x48.d = false ∧ las.asdu.smpSynch ≠ 0 ∧ (x50.actx las.ctx).free = false ∧ ((x50.actx las.ctx).state = 1 ∨ (x50.actx las.ctx).state = 2) ∧ (x50.actx las.ctx).relockPend = false ∧ (x50.actx las.ctx).next ≤ (x50.locate las.d (x50.actx las.ctx) las false).fst ∧ (x50.locate las.d (x50.actx las.ctx) las false).fst < (x50.actx las.ctx).next + las.d.depth / 2 ∧ ((x50.actx las.ctx).ahead.any fun p => p.g == (x50.locate las.d (x50.actx las.ctx) las false).fst) = false ∧ x50.poison = []) ∧
    ((Tbl.look 1 up.porter.ctxs = none ∨ (up.actx 1).state = 0)) := by
  and_intros <;> first | decide +kernel | exact accepts_of (by decide +kernel) | (unfold State.unpinned; decide +kernel) | (unfold State.quiet; decide +kernel) | exact fun _ h => nomatch h | exact Or.inr (Or.inr rfl)
theorem wit_Alignment_2 :
    (Tbl.look 3 x47.porter.ctxs = some x48 ∧ Option.any (fun g => decide ((x47.actx 3).next ≤ g)) (x47.lastCut x48.d x47.time.clock) = false) ∧
    (Tbl.look 3 (lane' { state := 1, ahead := [{ g := 0, auth := 1, chans := [] }] } las).porter.ctxs = some x48 ∧ x48.d.cls = 0 ∧ ((lane' { state := 1, ahead := [{ g := 0, auth := 1, chans := [] }] } las).actx 3).state ≠ 0 ∧ Option.any (fun g => decide (((lane' { state := 1, ahead := [{ g := 0, auth := 1, chans := [] }] } las).actx 3).next ≤ g)) ((lane' { state := 1, ahead := [{ g := 0, auth := 1, chans := [] }] } las).lastCut x48.d (lane' { state := 1, ahead := [{ g := 0, auth := 1, chans := [] }] } las).time.clock) = true ∧ List.find? (fun p => p.g == ((lane' { state := 1, ahead := [{ g := 0, auth := 1, chans := [] }] } las).actx 3).next) ((lane' { state := 1, ahead := [{ g := 0, auth := 1, chans := [] }] } las).actx 3).ahead = some x51 ∧ (lane' { state := 1, ahead := [{ g := 0, auth := 1, chans := [] }] } las).poison = [] ∧ (lane' { state := 1, ahead := [{ g := 0, auth := 1, chans := [] }] } las).unpinned ((lane' { state := 1, ahead := [{ g := 0, auth := 1, chans := [] }] } las).statusPoint 3)) ∧
    (Tbl.look 3 (lane' { state := 1 } las).porter.ctxs = some x48 ∧ x48.d.cls = 0 ∧ ((lane' { state := 1 } las).actx 3).state ≠ 0 ∧ Option.any (fun g => decide (((lane' { state := 1 } las).actx 3).next ≤ g)) ((lane' { state := 1 } las).lastCut x48.d (lane' { state := 1 } las).time.clock) = true ∧ List.find? (fun p => p.g == ((lane' { state := 1 } las).actx 3).next) ((lane' { state := 1 } las).actx 3).ahead = none) ∧
    (x52.accepts Src.pf Page.align ALIGN.CTX_SEL 3) := by
  and_intros <;> first | decide +kernel | exact accepts_of (by decide +kernel) | (unfold State.unpinned; decide +kernel) | (unfold State.quiet; decide +kernel) | exact fun _ h => nomatch h | exact Or.inr (Or.inr rfl)
theorem wit_GuestCycles_1 :
    (up.hinge.later = [] ∧ up.poison = [] ∧ up.follows = false ∧ up.mirrored = false ∧ up.role.leaving = false ∧ up.guest 1 = none) ∧
    (x53.hinge.later = [] ∧ x53.poison = [] ∧ x53.follows = false ∧ x53.mirrored = false ∧ x53.role.leaving = false ∧ x53.guest 1 = some (gst GPhase.idle) ∧ (gst GPhase.idle).st = GState.running ∧ x53.classTick (gst GPhase.idle).img.n ≠ cycleTick (gst GPhase.idle).img.n (cycleAt (gst GPhase.idle).img.n (x53.classTick (gst GPhase.idle).img.n)).fst (cycleAt (gst GPhase.idle).img.n (x53.classTick (gst GPhase.idle).img.n)).snd) ∧
    (ex.hinge.later = [] ∧ ex.poison = [] ∧ ex.follows = false ∧ ex.mirrored = false ∧ ex.role.leaving = false ∧ ex.guest 1 = some x54 ∧ x54.st = GState.running ∧ ex.classTick x54.img.n = cycleTick x54.img.n (cycleAt x54.img.n (ex.classTick x54.img.n)).fst (cycleAt x54.img.n (ex.classTick x54.img.n)).snd ∧ x54.phase = GPhase.idle ∧ ex.runs = true ∧ (cycLt (x54.lastS, x54.lastC) (cycleAt x54.img.n (ex.classTick x54.img.n)) = true ∨ x54.first = true) ∧ ex.patchPend = []) ∧
    (ex.hinge.later = [] ∧ ex.poison = [] ∧ ex.follows = false ∧ ex.mirrored = false ∧ ex.role.leaving = false ∧ ex.guest 1 = some x54 ∧ x54.st = GState.running ∧ (x54.phase ≠ GPhase.freeze ∨ ex.time.elapsed < x54.began + windowU)) ∧
    ((lateT exF).hinge.later = [] ∧ (lateT exF).poison = [] ∧ (lateT exF).follows = false ∧ (lateT exF).mirrored = false ∧ (lateT exF).role.leaving = false ∧ (lateT exF).guest 1 = some (gst GPhase.freeze) ∧ (gst GPhase.freeze).st = GState.running ∧ (gst GPhase.freeze).phase = GPhase.freeze ∧ (gst GPhase.freeze).began + windowU ≤ (lateT exF).time.elapsed ∧ (gst GPhase.freeze).rxOf (gst GPhase.freeze).lastS (gst GPhase.freeze).lastC = none ∧ (gst GPhase.freeze).patched = [] ∧ bit ((lateT exF).rd (Page.exb (gst GPhase.freeze).exb) HDR.PAGE_CTL) 0 = true) ∧
    (ex.hinge.later = [] ∧ ex.poison = [] ∧ ex.follows = false ∧ ex.mirrored = false ∧ ex.role.leaving = false ∧ ex.guest 1 = some x54 ∧ x54.st = GState.running ∧ (x54.phase ≠ GPhase.execute ∨ cDiff (ex.time.clock + windowU) (ex.instantOf x54.img.n x54.cpTick) < 0)) ∧
    (exE.hinge.later = [] ∧ exE.poison = [] ∧ exE.follows = false ∧ exE.mirrored = false ∧ exE.role.leaving = false ∧ exE.guest 1 = some x55 ∧ x55.st = GState.running ∧ x55.phase = GPhase.execute ∧ 0 ≤ cDiff (exE.time.clock + windowU) (exE.instantOf x55.img.n x55.cpTick) ∧ x55.rxOf x55.cycS x55.cycC = none ∧ exE.watchdog x55 = 0) ∧
    (exW.hinge.later = [] ∧ exW.poison = [] ∧ exW.follows = false ∧ exW.mirrored = false ∧ exW.role.leaving = false ∧ exW.guest 1 = some x55 ∧ x55.st = GState.running ∧ x55.phase = GPhase.execute ∧ 0 ≤ cDiff (exW.time.clock + windowU) (exW.instantOf x55.img.n x55.cpTick) ∧ x55.rxOf x55.cycS x55.cycC = none ∧ exW.watchdog x55 ≠ 0) := by
  and_intros <;> first | decide +kernel | exact accepts_of (by decide +kernel) | (unfold State.unpinned; decide +kernel) | (unfold State.quiet; decide +kernel) | exact fun _ h => nomatch h | exact Or.inr (Or.inr rfl)
theorem wit_GuestCycles_2 :
    (ex.hinge.later = [] ∧ ex.poison = [] ∧ ex.follows = false ∧ ex.mirrored = false ∧ ex.role.leaving = false ∧ ex.guest 1 = some x54 ∧ x54.st = GState.running ∧ ex.cpOf x54 = none) ∧
    ((lateT (exC 0)).hinge.later = [] ∧ (lateT (exC 0)).poison = [] ∧ (lateT (exC 0)).follows = false ∧ (lateT (exC 0)).mirrored = false ∧ (lateT (exC 0)).role.leaving = false ∧ (lateT (exC 0)).guest 1 = some (outG 0) ∧ (outG 0).st = GState.running ∧ (lateT (exC 0)).cpOf (outG 0) = some 0 ∧ (outG 0).phase = GPhase.commit ∧ (outG 0).late = false ∧ (outG 0).stopReq = false ∧ (outG 0).storeFresh = false ∧ (outG 0).storeRets = [] ∧ (lateT (exC 0)).pubs = [] ∧ (lateT (exC 0)).pubAccept = [] ∧ (lateT (exC 0)).role.merge = none ∧ (lateT (exC 0)).ckpt.state = 0 ∧ (outG 0).fail = 0) ∧
    ((lateT (exC 1)).hinge.later = [] ∧ (lateT (exC 1)).poison = [] ∧ (lateT (exC 1)).follows = false ∧ (lateT (exC 1)).mirrored = false ∧ (lateT (exC 1)).role.leaving = false ∧ (lateT (exC 1)).guest 1 = some (outG 1) ∧ (outG 1).st = GState.running ∧ (lateT (exC 1)).cpOf (outG 1) = some 0 ∧ (outG 1).phase = GPhase.commit ∧ (outG 1).late = false ∧ (outG 1).stopReq = false ∧ (outG 1).storeFresh = false ∧ (outG 1).storeRets = [] ∧ (lateT (exC 1)).pubs = [] ∧ (lateT (exC 1)).pubAccept = [] ∧ (lateT (exC 1)).role.merge = none ∧ (lateT (exC 1)).ckpt.state = 0 ∧ (outG 1).fail ≠ 0) ∧
    ((lateT exF).hinge.later = [] ∧ (lateT exF).poison = [] ∧ (lateT exF).follows = false ∧ (lateT exF).mirrored = false ∧ (lateT exF).role.leaving = false ∧ (lateT exF).guest 1 = some (gst GPhase.freeze) ∧ (gst GPhase.freeze).st = GState.running ∧ 0 ∈ (gst GPhase.freeze).cellList ∧ (gst GPhase.freeze).exb < 16 ∧ (lateT exF).isolated (Page.exb (gst GPhase.freeze).exb) = false ∧ (lateT exF).quarantined (Page.exb (gst GPhase.freeze).exb) (0 % 16) = false ∧ (gst GPhase.freeze).phase = GPhase.freeze) ∧
    ((lateT exE).hinge.later = [] ∧ (lateT exE).poison = [] ∧ (lateT exE).follows = false ∧ (lateT exE).mirrored = false ∧ (lateT exE).role.leaving = false ∧ (lateT exE).guest 1 = some (gst GPhase.execute) ∧ (gst GPhase.execute).st = GState.running ∧ 0 ∈ (gst GPhase.execute).cellList ∧ (gst GPhase.execute).exb < 16 ∧ (lateT exE).isolated (Page.exb (gst GPhase.execute).exb) = false ∧ (lateT exE).quarantined (Page.exb (gst GPhase.execute).exb) (0 % 16) = false ∧ (gst GPhase.execute).phase = GPhase.execute) ∧
    ((lateT (exC 0)).hinge.later = [] ∧ (lateT (exC 0)).poison = [] ∧ (lateT (exC 0)).follows = false ∧ (lateT (exC 0)).mirrored = false ∧ (lateT (exC 0)).role.leaving = false ∧ (lateT (exC 0)).guest 1 = some (outG 0) ∧ (outG 0).st = GState.running ∧ 0 ∈ (outG 0).cellList ∧ (outG 0).exb < 16 ∧ (lateT (exC 0)).isolated (Page.exb (outG 0).exb) = false ∧ (lateT (exC 0)).quarantined (Page.exb (outG 0).exb) (0 % 16) = false ∧ (outG 0).phase = GPhase.commit) := by
  and_intros <;> first | decide +kernel | exact accepts_of (by decide +kernel) | (unfold State.unpinned; decide +kernel) | (unfold State.quiet; decide +kernel) | exact fun _ h => nomatch h | exact Or.inr (Or.inr rfl)
theorem wit_GuestAndPointCommands_1 :
    (0 < 16 ∧ 1 < 256 ∧ up.accepts Src.pf (Page.exb 0) EXB.GCMD (BitVec.ofNat 32 (1 * 256 + 1))) ∧
    (0 < 16 ∧ 1 < 256 ∧ up.accepts Src.pf (Page.exb 0) EXB.GCMD (BitVec.ofNat 32 (1 * 256 + 2))) ∧
    (0 < 16 ∧ 1 < 256 ∧ up.accepts Src.pf (Page.exb 0) EXB.GCMD (BitVec.ofNat 32 (1 * 256 + 3))) ∧
    (0 < 16 ∧ 1 < 256 ∧ up.accepts Src.pf (Page.exb 0) EXB.GCMD (BitVec.ofNat 32 (1 * 256 + 4))) ∧
    (0 < 16 ∧ 1 < 256 ∧ up.accepts Src.pf (Page.exb 0) EXB.GCMD (BitVec.ofNat 32 (1 * 256 + 5))) ∧
    (0 < 16 ∧ 1 < 256 ∧ up.accepts Src.pf (Page.exb 0) EXB.GCMD (BitVec.ofNat 32 (1 * 256 + 6))) ∧
    (0 < 16 ∧ 1 < 256 ∧ up.accepts Src.pf (Page.exb 0) EXB.GCMD (BitVec.ofNat 32 (1 * 256 + 7))) ∧
    (0 < 16 ∧ 1 < 256 ∧ 4 < 128 ∧ up.accepts Src.pf (Page.exb 0) EXB.PATCH_CMD (BitVec.ofNat 32 (1 * 256 + 4))) := by
  and_intros <;> first | decide +kernel | exact accepts_of (by decide +kernel) | (unfold State.unpinned; decide +kernel) | (unfold State.quiet; decide +kernel) | exact fun _ h => nomatch h | exact Or.inr (Or.inr rfl)
theorem wit_GuestAndPointCommands_2 :
    (0 < 16 ∧ Tbl.look 0 up.gcmds = none) ∧
    (0 < 16 ∧ Tbl.look 0 cfgUE.gcmds = some x56 ∧ (x56.op = 1 ∨ x56.op = 7 → x56.img + (if x56.op = 1 ∨ x56.op = 7 then cfgUE.imageAt x56.img else []).length ≤ dramSize) ∧ cfgUE.gcmdCheck x56.op x56.guest 0 x56.mask (if x56.op = 1 ∨ x56.op = 7 then cfgUE.imageAt x56.img else []) = some E_DRAMUE) ∧
    (0 < 16 ∧ Tbl.look 0 x57.gcmds = some x56 ∧ (x56.op = 1 ∨ x56.op = 7 → x56.img + (if x56.op = 1 ∨ x56.op = 7 then x57.imageAt x56.img else []).length ≤ dramSize) ∧ x57.gcmdCheck x56.op x56.guest 0 x56.mask (if x56.op = 1 ∨ x56.op = 7 then x57.imageAt x56.img else []) = some E_ORPHAN ∧ E_ORPHAN ≠ E_DRAMUE) ∧
    (0 < 16 ∧ Tbl.look 0 x58.gcmds = some x59 ∧ (x59.op = 1 ∨ x59.op = 7 → x59.img + (if x59.op = 1 ∨ x59.op = 7 then x58.imageAt x59.img else []).length ≤ dramSize) ∧ x58.gcmdCheck x59.op x59.guest 0 x59.mask (if x59.op = 1 ∨ x59.op = 7 then x58.imageAt x59.img else []) = none ∧ x58.mirrored = false ∧ x58.guest x59.guest = some x54 ∧ x59.op = 3 ∧ x54.st = GState.running) ∧
    (0 < 16 ∧ Tbl.look 0 x60.gcmds = some x56 ∧ (x56.op = 1 ∨ x56.op = 7 → x56.img + (if x56.op = 1 ∨ x56.op = 7 then x60.imageAt x56.img else []).length ≤ dramSize) ∧ x60.gcmdCheck x56.op x56.guest 0 x56.mask (if x56.op = 1 ∨ x56.op = 7 then x60.imageAt x56.img else []) = none ∧ x60.mirrored = false ∧ x60.guest x56.guest = some x61 ∧ (x56.op = 2 ∨ x56.op = 4 ∨ x56.op = 5) ∧ x60.role.mode = Mode.configure) ∧
    (0 < 16 ∧ Tbl.look 0 (ends3 2 { runX with st := GState.loaded }).gcmds = some x56 ∧ (x56.op = 1 ∨ x56.op = 7 → x56.img + (if x56.op = 1 ∨ x56.op = 7 then (ends3 2 { runX with st := GState.loaded }).imageAt x56.img else []).length ≤ dramSize) ∧ (ends3 2 { runX with st := GState.loaded }).gcmdCheck x56.op x56.guest 0 x56.mask (if x56.op = 1 ∨ x56.op = 7 then (ends3 2 { runX with st := GState.loaded }).imageAt x56.img else []) = none ∧ (ends3 2 { runX with st := GState.loaded }).mirrored = false ∧ (ends3 2 { runX with st := GState.loaded }).guest x56.guest = some x62 ∧ (x56.op = 2 ∨ x56.op = 4 ∨ x56.op = 5) ∧ (ends3 2 { runX with st := GState.loaded }).restartsRun = true) ∧
    (0 < 16 ∧ Tbl.look 0 (ends3 3 pendX).gcmds = some x59 ∧ (x59.op = 1 ∨ x59.op = 7 → x59.img + (if x59.op = 1 ∨ x59.op = 7 then (ends3 3 pendX).imageAt x59.img else []).length ≤ dramSize) ∧ (ends3 3 pendX).gcmdCheck x59.op x59.guest 0 x59.mask (if x59.op = 1 ∨ x59.op = 7 then (ends3 3 pendX).imageAt x59.img else []) = none ∧ (ends3 3 pendX).mirrored = false ∧ (ends3 3 pendX).guest x59.guest = some pendX ∧ x59.op = 3 ∧ pendX.st ≠ GState.running) ∧
    (0 < 16 ∧ Tbl.look 0 x63.gcmds = some x64 ∧ (x64.op = 1 ∨ x64.op = 7 → x64.img + (if x64.op = 1 ∨ x64.op = 7 then x63.imageAt x64.img else []).length ≤ dramSize) ∧ x63.gcmdCheck x64.op x64.guest 0 x64.mask (if x64.op = 1 ∨ x64.op = 7 then x63.imageAt x64.img else []) = none ∧ x63.mirrored = false ∧ x64.op = 6) := by
  and_intros <;> first | decide +kernel | exact accepts_of (by decide +kernel) | (unfold State.unpinned; decide +kernel) | (unfold State.quiet; decide +kernel) | exact fun _ h => nomatch h | exact Or.inr (Or.inr rfl)
theorem wit_GuestAndPointCommands_3 :
    (0 < 16 ∧ Tbl.look 0 load.gcmds = some x65 ∧ (x65.op = 1 ∨ x65.op = 7 → x65.img + (if x65.op = 1 ∨ x65.op = 7 then load.imageAt x65.img else []).length ≤ dramSize) ∧ load.gcmdCheck x65.op x65.guest 0 x65.mask (if x65.op = 1 ∨ x65.op = 7 then load.imageAt x65.img else []) = none ∧ load.mirrored = false ∧ (x65.op = 1 ∨ x65.op = 7) ∧ load.poison = []) ∧
    (0 < 16 ∧ Tbl.look 0 up.patchJobs = none) ∧
    (0 < 16 ∧ Tbl.look 0 x66.patchJobs = some x67 ∧ (x66.patchCode 0 x67.guest x67.count = none → x67.addr + 16 * x67.count ≤ dramSize) ∧ x66.patchCheck 0 x67.guest x67.count x67.addr = some E_BUSY) ∧
    (0 < 16 ∧ Tbl.look 0 x68.patchJobs = some x67 ∧ (x68.patchCode 0 x67.guest x67.count = none → x67.addr + 16 * x67.count ≤ dramSize) ∧ x68.patchCheck 0 x67.guest x67.count x67.addr = some E_MODE ∧ E_MODE ≠ E_BUSY) ∧
    (0 < 16 ∧ Tbl.look 0 x69.patchJobs = some x67 ∧ (x69.patchCode 0 x67.guest x67.count = none → x67.addr + 16 * x67.count ≤ dramSize) ∧ x69.patchCheck 0 x67.guest x67.count x67.addr = none ∧ x69.guest x67.guest = some pjG ∧ x69.mirrored = false) ∧
    (up.accepts Src.pf Page.point POINT.PT_CMD 1) ∧
    (up.accepts Src.pf Page.point POINT.PT_CMD 2) ∧
    (up.pointJob = none) := by
  and_intros <;> first | decide +kernel | exact accepts_of (by decide +kernel) | (unfold State.unpinned; decide +kernel) | (unfold State.quiet; decide +kernel) | exact fun _ h => nomatch h | exact Or.inr (Or.inr rfl)
theorem wit_GuestAndPointCommands_4 :
    (x70.pointJob = some (true, 8, 77) ∧ x70.pointAddr 8 + 8 ≤ dramSize ∧ true = true ∧ x70.isOutput 8 = true) ∧
    (x71.pointJob = some (true, 8, 77) ∧ x71.pointAddr 8 + 8 ≤ dramSize ∧ true = true ∧ x71.isOutput 8 = false ∧ x71.poison = [] ∧ x71.unpinned 8) ∧
    (x72.pointJob = some (false, 8, 77) ∧ x72.pointAddr 8 + 8 ≤ dramSize ∧ false = false ∧ x72.poisoned (x72.pointAddr 8) 8 = false) ∧
    (x73.pointJob = some (false, 8, 77) ∧ x73.pointAddr 8 + 8 ≤ dramSize ∧ false = false ∧ x73.poisoned (x73.pointAddr 8) 8 = true) := by
  and_intros <;> first | decide +kernel | exact accepts_of (by decide +kernel) | (unfold State.unpinned; decide +kernel) | (unfold State.quiet; decide +kernel) | exact fun _ h => nomatch h | exact Or.inr (Or.inr rfl)
theorem wit_HingeLink_1 :
    (2 < 4 ∧ hOn.hinge.lock.testBit 2 = true ∧ hOn.hinge.link = true) ∧
    (2 < 4 ∧ x74.hinge.lock.testBit 2 = true ∧ x74.hinge.link = false) ∧
    ((4 ≤ 4 ∨ hOn.hinge.lock.testBit 4 = false)) ∧
    ((hOn.hinge.link = true ∨ hOn.hingeOn = false ∨ hOn.sdLocked 0 = false)) ∧
    (hUp.hinge.link = false ∧ hUp.hingeOn = true ∧ hUp.sdLocked 0 = true) ∧
    ((hEn.hinge.link = false ∨ hEn.isolated Page.hinge = true)) ∧
    ((x74.hinge.link = false ∨ x74.isolated Page.hinge = true)) ∧
    (hOn.hinge.link = true ∧ hOn.isolated Page.hinge = false ∧ hOn.hinge.queue = [x75]) := by
  and_intros <;> first | decide +kernel | exact accepts_of (by decide +kernel) | (unfold State.unpinned; decide +kernel) | (unfold State.quiet; decide +kernel) | exact fun _ h => nomatch h | exact Or.inr (Or.inr rfl)
theorem wit_HingeLink_2 :
    (x76.hinge.link = true ∧ x76.isolated Page.hinge = false ∧ x76.hinge.queue = [] ∧ x76.hinge.bulk.state ≠ 1) ∧
    (blk.hinge.link = true ∧ blk.isolated Page.hinge = false ∧ blk.hinge.queue = [] ∧ blk.hinge.bulk.state = 1 ∧ blk.bulkNext = some x77 ∧ x77.fst < 16 ∧ blk.poisoned (blk.rd2 Page.hinge (HINGE.BULK_BASE_LO x77.fst) + x77.snd.snd) 1024 = false) ∧
    (hOn.hinge.link = true ∧ hOn.isolated Page.hinge = false) ∧
    (State.reset.role.mode = Mode.boot) ∧
    (hOn.role.mode ≠ Mode.boot ∧ hOn.hinge.link = true ∧ hOn.isolated Page.hinge = false) ∧
    (hEn.role.mode ≠ Mode.boot ∧ hEn.hinge.link = false) := by
  and_intros <;> first | decide +kernel | exact accepts_of (by decide +kernel) | (unfold State.unpinned; decide +kernel) | (unfold State.quiet; decide +kernel) | exact fun _ h => nomatch h | exact Or.inr (Or.inr rfl)
theorem wit_MirrorFrames_1 :
    (hOn.hinge.link = true ∧ hOn.isolated Page.hinge = false ∧ x78.ok = false ∧ hOn.role.mode ≠ Mode.boot) ∧
    (sb.takes hB false = true ∧ sb.guest 1 = some x80 ∧ sb.hears x80 (5, 3) = true ∧ x80.pastDeadline (5, 3) = false) ∧
    (x81.takes hB false = true ∧ x81.guest 1 = some x82 ∧ x81.hears x82 (5, 3) = true ∧ x82.pastDeadline (5, 3) = true) ∧
    (sb.takes hB false = true ∧ sb.guest 1 = some (gst GPhase.freeze) ∧ sb.hears (gst GPhase.freeze) (5, 3) = true) ∧
    (sb.takes hB false = true ∧ sb.guest 1 = some x80 ∧ sb.hears x80 (5, 3) = true ∧ sb.catching 1 3 5 = false) ∧
    (sb.takes hB false = true ∧ sb.guest 1 = some x80 ∧ sb.hears x80 (5, 3) = true ∧ sb.catching 1 3 5 = false ∧ x80.ownDigest = none) ∧
    (hOn.takes hB false = true ∧ hOn.guest 9 = none ∧ hOn.role.mode ≠ Mode.resync) ∧
    (rsy.takes hB false = true ∧ rsy.role.mode = Mode.resync ∧ rsy.hinge.bulk.state = 2 ∧ rsy.hinge.bulk.held = [] ∧ rsy.poison = [] ∧ 3 < 16 ∧ 64 % 64 = 0 ∧ 64 + [1, 2, 3].length ≤ rsy.rd2 Page.hinge (HINGE.BULK_LEN_LO 3) ∧ (5 + 1) % 64 ≠ 0) := by
  and_intros <;> first | decide +kernel | exact accepts_of (by decide +kernel) | (unfold State.unpinned; decide +kernel) | (unfold State.quiet; decide +kernel) | exact fun _ h => nomatch h | exact Or.inr (Or.inr rfl)
theorem wit_MirrorFrames_2 :
    (rsy.takes hB false = true ∧ rsy.role.mode = Mode.resync ∧ Tbl.look 1 rsy.hinge.bulk.guestSeq = none) ∧
    (rsy.takes hB false = true ∧ rsy.role.mode = Mode.resync ∧ rsy.guest 1 = none ∧ Tbl.look 1 rsy.hinge.bulk.guestSeq = none ∧ rsy.hinge.bulk.state = 2) ∧
    (rsy.takes hB false = true ∧ rsy.role.mode = Mode.resync ∧ 3 ≠ 0 ∧ (3 + 1) % 64 ≠ 0 ∧ rsy.hinge.bulk.state = 2) ∧
    (rsy.takes hB false = true ∧ rsy.role.mode = Mode.resync ∧ 3 ≠ 0 ∧ (3 + 1) % 64 ≠ 0 ∧ rsy.hinge.bulk.state = 2 ∧ rsy.hinge.bulk.early = []) := by
  and_intros <;> first | decide +kernel | exact accepts_of (by decide +kernel) | (unfold State.unpinned; decide +kernel) | (unfold State.quiet; decide +kernel) | exact fun _ h => nomatch h | exact Or.inr (Or.inr rfl)
theorem wit_ControlFrames_1 :
    (x85.takes hB false = true ∧ Tbl.get false 7 x85.hinge.seen = true) ∧
    (sb.takes hB false = true ∧ Tbl.get false 7 sb.hinge.seen = false ∧ (sb.role.mode = Mode.resync ∨ sb.follows = true ∧ sb.passed (sb.classOf { guest := 1, c := 5, s := 9, body := CtlBody.cmd 2 1 0 }) (9, 5) = false)) ∧
    ((lateT sb).takes hB false = true ∧ Tbl.get false 7 (lateT sb).hinge.seen = false ∧ (lateT sb).follows = true ∧ (lateT sb).passed ((lateT sb).classOf { guest := 1, c := 0, s := 0, body := CtlBody.cmd 2 1 0 }) (0, 0) = true) ∧
    (hOn.takes hB false = true ∧ Tbl.get false 7 hOn.hinge.seen = false ∧ hOn.obeys = false) ∧
    (sb.takes hB false = true ∧ Tbl.get false 7 sb.hinge.seen = false ∧ (sb.role.mode = Mode.resync ∨ sb.follows = true ∧ sb.passed (sb.classOf { guest := 1, c := 5, s := 9, body := CtlBody.pub 2 none }) (9, 5) = false)) ∧
    ((lateT sb).takes hB false = true ∧ Tbl.get false 7 (lateT sb).hinge.seen = false ∧ (lateT sb).follows = true ∧ (lateT sb).passed ((lateT sb).classOf { guest := 1, c := 0, s := 0, body := CtlBody.pub 2 none }) (0, 0) = true) ∧
    (sb.takes hB false = true ∧ Tbl.get false 7 sb.hinge.seen = false ∧ (sb.role.mode = Mode.resync ∨ sb.follows = true ∧ sb.passed (sb.classOf { guest := 1, c := 5, s := 9, body := CtlBody.allow 2 3 }) (9, 5) = false)) ∧
    ((lateT sb).takes hB false = true ∧ Tbl.get false 7 (lateT sb).hinge.seen = false ∧ (lateT sb).follows = true ∧ (lateT sb).passed ((lateT sb).classOf { guest := 1, c := 0, s := 0, body := CtlBody.allow 2 3 }) (0, 0) = true) := by
  and_intros <;> first | decide +kernel | exact accepts_of (by decide +kernel) | (unfold State.unpinned; decide +kernel) | (unfold State.quiet; decide +kernel) | exact fun _ h => nomatch h | exact Or.inr (Or.inr rfl)
theorem wit_ControlFrames_2 :
    (sb.takes hB false = true ∧ Tbl.get false 7 sb.hinge.seen = false ∧ sb.guest 1 = some x80 ∧ (sb.role.mode = Mode.resync ∨ sb.follows = true ∧ cycLt (cycleAt x80.img.n (sb.classTick x80.img.n)) (cycleAt x80.img.n 999999) = true)) ∧
    (sb.takes hB false = true ∧ Tbl.get false 7 sb.hinge.seen = false ∧ sb.obeys = true) ∧
    (x86.takes hB false = true ∧ Tbl.get false 7 x86.hinge.seen = false ∧ x86.role.mode = Mode.active ∧ x86.role.isolated = true ∧ x86.unitB = false) ∧
    (sb.takes hB false = true ∧ Tbl.get false 7 sb.hinge.seen = false ∧ sb.role.mode ≠ Mode.active) ∧
    (sb.takes hB false = true) ∧
    (bs.takes hB false = true ∧ bs.hinge.bulk.state = 1 ∧ bs.hinge.bulk.todo = [] ∧ 7 + 1 = bs.hinge.bulk.chunk) ∧
    (List.find? (fun w => w.seq == 7) sb.hinge.wait = none) ∧
    (List.find? (fun w => w.seq == 7) x87.hinge.wait = some x88 ∧ x88.tries < 4) := by
  and_intros <;> first | decide +kernel | exact accepts_of (by decide +kernel) | (unfold State.unpinned; decide +kernel) | (unfold State.quiet; decide +kernel) | exact fun _ h => nomatch h | exact Or.inr (Or.inr rfl)
theorem wit_ControlFrames_3 :
    (List.find? (fun w => w.seq == 7) x89.hinge.wait = some x90 ∧ 4 ≤ x90.tries ∧ x89.role.hbUp = true ∧ x89.role.mode = Mode.hotStandby ∧ x89.role.netUp = true) ∧
    (allowHeld 5 = true ∧ up.accepts Src.pf Page.hinge (HINGE.ALLOW_HI 5) 16 ∧ up.mirrored = false ∧ regFields Page.hinge (HINGE.ALLOW_HI 5) = some (fo Page.hinge (HINGE.ALLOW_HI 5))) := by
  and_intros <;> first | decide +kernel | exact accepts_of (by decide +kernel) | (unfold State.unpinned; decide +kernel) | (unfold State.quiet; decide +kernel) | exact fun _ h => nomatch h | exact Or.inr (Or.inr rfl)
theorem wit_HeartbeatsAndRoles_1 :
    (hOn.takes hB true = true ∧ hOn.role.mode = Mode.configure ∧ (hOn.role.hbUp = true ∨ hOn.role.hbGood + 1 < 100)) ∧
    (hOn.hinge.link = true ∧ hOn.isolated Page.hinge = false ∧ x91.ok = true ∧ x91.unitB = hOn.unitB ∧ hOn.role.mode ≠ Mode.boot) ∧
    (hOn.role.hbMiss < 3) ∧
    (3 ≤ miss3.role.hbMiss ∧ miss3.role.hbUp = true ∧ miss3.role.mode = Mode.configure) ∧
    ((if hOn.role.slotSeen = true then 0 else hOn.role.netMiss + 1) < hOn.rdf Page.hinge HINGE.NET_CFG 19 16) ∧
    (net3.rdf Page.hinge HINGE.NET_CFG 19 16 ≤ (if net3.role.slotSeen = true then 0 else net3.role.netMiss + 1) ∧ net3.role.netUp = true ∧ net3.role.mode = Mode.active ∧ net3.role.hingeFailed = false) ∧
    (hOn.role.judge = none) ∧
    (x92.role.judge = some x93 ∧ x92.role.mode = Mode.hotStandby ∧ x93.alive = true) := by
  and_intros <;> first | decide +kernel | exact accepts_of (by decide +kernel) | (unfold State.unpinned; decide +kernel) | (unfold State.quiet; decide +kernel) | exact fun _ h => nomatch h | exact Or.inr (Or.inr rfl)
theorem wit_HeartbeatsAndRoles_2 :
    (x94.role.judge = some x95 ∧ x94.role.mode = Mode.active ∧ x95.alive = false) ∧
    (hOn.takes hB false = true ∧ hOn.role.mode ≠ Mode.active) ∧
    (hA.takes hB false = true ∧ hA.role.mode = Mode.active ∧ hA.cfgDigest ≠ hA.role.partnerDigest) ∧
    (hAgd.takes hB false = true ∧ hAgd.role.mode = Mode.active ∧ hAgd.cfgDigest = hAgd.role.partnerDigest ∧ hAgd.allMirrorOk = true ∧ hAgd.role.demote = none ∧ hAgd.role.judge = none ∧ List.map (fun k => (k, 0, 0)) (List.filter (fun k => decide (0 < hAgd.rd2 Page.hinge (HINGE.BULK_LEN_LO k))) (List.range 16)) ++ List.map (fun g => (16, g, 0)) hAgd.loaded ≠ []) ∧
    (hAd.takes hB false = true ∧ hAd.role.mode = Mode.active ∧ hAd.cfgDigest = hAd.role.partnerDigest ∧ hAd.allMirrorOk = true ∧ hAd.role.demote = none ∧ hAd.role.judge = none ∧ List.map (fun k => (k, 0, 0)) (List.filter (fun k => decide (0 < hAd.rd2 Page.hinge (HINGE.BULK_LEN_LO k))) (List.range 16)) ++ List.map (fun g => (16, g, 0)) hAd.loaded = []) ∧
    (hA.takes hB false = true ∧ (hA.role.mode ≠ Mode.coldStandby ∨ hA.role.resyncAsked = false)) ∧
    (cold.takes hB false = true ∧ cold.role.mode = Mode.coldStandby ∧ cold.role.resyncAsked = true ∧ 3 ≠ 0) ∧
    (cold.takes hB false = true ∧ cold.role.mode = Mode.coldStandby ∧ cold.role.resyncAsked = true) := by
  and_intros <;> first | decide +kernel | exact accepts_of (by decide +kernel) | (unfold State.unpinned; decide +kernel) | (unfold State.quiet; decide +kernel) | exact fun _ h => nomatch h | exact Or.inr (Or.inr rfl)
theorem wit_HeartbeatsAndRoles_3 :
    (hA.takes hB false = true ∧ hA.role.mode = Mode.active) ∧
    (x96.takes hB false = true ∧ x96.role.mode = Mode.resync ∧ x96.role.enterAsked = true) ∧
    (x97.takes hB false = true ∧ x97.role.mode = Mode.hotStandby) ∧
    (cold.takes hB false = true ∧ cold.role.mode ≠ Mode.hotStandby) ∧
    (((retrySt true).role.mode = Mode.coldStandby ∧ (retrySt true).partner = some Mode.active ∧ (retrySt true).hingePath = true ∧ (retrySt true).hinge.link = true ∧ (retrySt true).isolated Page.hinge = false) ∧ Option.any (fun t => decide (t ≤ (retrySt true).time.elapsed)) (retrySt true).role.retryAt = true ∧ bit ((retrySt true).rd Page.role ROLE.ROLE_CTL) 0 = true) ∧
    (x98.role.mode = Mode.coldStandby ∧ Option.any (fun t => decide (t ≤ x98.time.elapsed)) x98.role.retryAt = true ∧ bit (x98.rd Page.role ROLE.ROLE_CTL) 0 = false ∧ x98.role.enterAsked = false) ∧
    ((hOn.role.mode ≠ Mode.coldStandby ∨ Option.any (fun t => decide (t ≤ hOn.time.elapsed)) hOn.role.retryAt = false)) ∧
    (asks.accepts Src.pf Page.role ROLE.ROLE_CMD 1 ∧ (asks.role.mode = Mode.coldStandby ∧ asks.partner = some Mode.active ∧ asks.hingePath = true ∧ asks.hinge.link = true ∧ asks.isolated Page.hinge = false)) := by
  and_intros <;> first | decide +kernel | exact accepts_of (by decide +kernel) | (unfold State.unpinned; decide +kernel) | (unfold State.quiet; decide +kernel) | exact fun _ h => nomatch h | exact Or.inr (Or.inr rfl)
theorem wit_HeartbeatsAndRoles_4 :
    (x99.accepts Src.pf Page.role ROLE.ROLE_CMD 1 ∧ (x99.partner ≠ some Mode.active ∨ x99.hingePath = false)) ∧
    (dmt.accepts Src.pf Page.role ROLE.ROLE_CMD 2 ∧ dmt.hinge.link = true ∧ dmt.isolated Page.hinge = false) ∧
    (hOn.role.holdFrom = none) ∧
    (x100.role.holdFrom = some 5 ∧ x100.role.lastPubRx = some 7 ∧ (x100.time.elapsed < 5 + 500000000 * nsU ∨ x100.time.elapsed < 7 + 500000000 * nsU)) ∧
    (hld.role.holdFrom = some 5 ∧ 5 + 500000000 * nsU ≤ hld.time.elapsed ∧ (∀ (b : Nat), hld.role.lastPubRx = some b → b + 500000000 * nsU ≤ hld.time.elapsed)) := by
  and_intros <;> first | decide +kernel | exact accepts_of (by decide +kernel) | (unfold State.unpinned; decide +kernel) | (unfold State.quiet; decide +kernel) | exact fun _ h => nomatch h | exact Or.inr (Or.inr rfl)
theorem wit_ModeCommands_1 :
    (up.accepts Src.pf Page.chip CHIP.MODE_CMD (BitVec.ofNat 32 (256 * 0 + 1))) ∧
    (up.accepts Src.pf Page.chip CHIP.MODE_CMD (BitVec.ofNat 32 (256 * 0 + 2))) ∧
    (up.accepts Src.pf Page.chip CHIP.MODE_CMD (BitVec.ofNat 32 (256 * 0 + 3))) ∧
    (up.accepts Src.pf Page.chip CHIP.MODE_CMD (BitVec.ofNat 32 (256 * 0 + 4))) ∧
    (up.accepts Src.pf Page.chip CHIP.MODE_CMD (BitVec.ofNat 32 (256 * 0 + 5))) ∧
    (up.accepts Src.pf Page.chip CHIP.MODE_CMD (BitVec.ofNat 32 (256 * 0 + 6))) ∧
    (up.accepts Src.pf Page.chip CHIP.MODE_CMD (BitVec.ofNat 32 (256 * 1 + 7))) ∧
    (up.role.modeJob = none) := by
  and_intros <;> first | decide +kernel | exact accepts_of (by decide +kernel) | (unfold State.unpinned; decide +kernel) | (unfold State.quiet; decide +kernel) | exact fun _ h => nomatch h | exact Or.inr (Or.inr rfl)
theorem wit_ModeCommands_2 :
    (x101.role.modeJob = some (2, 0) ∧ (2 = 1 ∧ x101.role.mode ≠ Mode.configure ∨ 2 = 2 ∧ x101.role.mode ≠ Mode.coldStandby ∧ x101.role.mode ≠ Mode.test ∨ 2 = 3 ∧ x101.role.mode ≠ Mode.configure ∧ x101.role.mode ≠ Mode.coldStandby ∨ 2 = 4 ∧ x101.role.mode ≠ Mode.test ∨ 2 = 5 ∧ x101.role.mode ≠ Mode.coldStandby ∨ 2 = 6 ∧ x101.role.mode = Mode.boot ∨ 2 = 7 ∧ x101.role.mode ≠ Mode.active)) ∧
    (x102.role.modeJob = some (1, 1) ∧ x102.role.mode = Mode.configure) ∧
    (x103.role.modeJob = some (1, 0) ∧ x103.role.mode = Mode.configure ∧ 0 ≠ 1 ∧ bit (x103.rd Page.chip CHIP.CHIP_CTL) 1 = false) ∧
    ((mdL [] [(1, guest1)]).role.modeJob = some (1, 0) ∧ (mdL [] [(1, guest1)]).role.mode = Mode.configure ∧ 0 ≠ 1 ∧ bit ((mdL [] [(1, guest1)]).rd Page.chip CHIP.CHIP_CTL) 1 = true ∧ (mdL [] [(1, guest1)]).guests ≠ []) ∧
    ((mdL [] []).role.modeJob = some (1, 0) ∧ (mdL [] []).role.mode = Mode.configure ∧ 0 ≠ 1 ∧ bit ((mdL [] []).rd Page.chip CHIP.CHIP_CTL) 1 = true ∧ (mdL [] []).guests = [] ∧ (mdL [] []).restore = none) ∧
    ((mdL (cells 4194304 ckImg) []).role.modeJob = some (1, 0) ∧ (mdL (cells 4194304 ckImg) []).role.mode = Mode.configure ∧ 0 ≠ 1 ∧ bit ((mdL (cells 4194304 ckImg) []).rd Page.chip CHIP.CHIP_CTL) 1 = true ∧ (mdL (cells 4194304 ckImg) []).guests = [] ∧ (mdL (cells 4194304 ckImg) []).restore.isSome = true) ∧
    (x104.role.modeJob = some (2, 0) ∧ 2 = 2 ∧ (x104.role.mode = Mode.coldStandby ∨ x104.role.mode = Mode.test)) ∧
    (x105.role.modeJob = some (3, 0) ∧ 3 = 3 ∧ (x105.role.mode = Mode.configure ∨ x105.role.mode = Mode.coldStandby)) := by
  and_intros <;> first | decide +kernel | exact accepts_of (by decide +kernel) | (unfold State.unpinned; decide +kernel) | (unfold State.quiet; decide +kernel) | exact fun _ h => nomatch h | exact Or.inr (Or.inr rfl)
theorem wit_ModeCommands_3 :
    (x106.role.modeJob = some (5, 0) ∧ 5 = 5 ∧ x106.role.mode = Mode.coldStandby ∧ x106.partnerRuns = false) ∧
    ((md Mode.test 4).role.modeJob = some (4, 0) ∧ 4 = 4 ∧ (md Mode.test 4).role.mode = Mode.test) ∧
    ((md Mode.active 7).role.modeJob = some (7, 0) ∧ 7 = 7 ∧ (md Mode.active 7).role.mode = Mode.active) ∧
    (mdP.role.modeJob = some (5, 0) ∧ 5 = 5 ∧ mdP.role.mode = Mode.coldStandby ∧ mdP.partnerRuns = true) ∧
    (x107.role.modeJob = some (6, 0) ∧ 6 = 6 ∧ x107.role.mode ≠ Mode.boot) ∧
    ((up.role.mode ≠ Mode.coldStandby ∨ up.role.pwRunning = false ∨ up.time.elapsed < up.role.pwEnd)) ∧
    (x108.role.mode = Mode.coldStandby ∧ x108.role.pwRunning = true ∧ x108.role.pwEnd ≤ x108.time.elapsed ∧ (x108.pairConflict = true ∨ x108.partner = some Mode.hotStandby ∨ x108.partner = some Mode.resync ∨ x108.partner = none ∧ bit (x108.rd Page.chip CHIP.CHIP_CTL) 0 = false)) ∧
    (x109.role.mode = Mode.coldStandby ∧ x109.role.pwRunning = true ∧ x109.role.pwEnd ≤ x109.time.elapsed ∧ x109.pairConflict = false ∧ x109.partner = none ∧ bit (x109.rd Page.chip CHIP.CHIP_CTL) 0 = true) := by
  and_intros <;> first | decide +kernel | exact accepts_of (by decide +kernel) | (unfold State.unpinned; decide +kernel) | (unfold State.quiet; decide +kernel) | exact fun _ h => nomatch h | exact Or.inr (Or.inr rfl)
theorem wit_ChipResets_1 :
    (bit (up.rd Page.clkrst CLKRST.CLK_STS) 2 = false) ∧
    (bit (clkBad.rd Page.clkrst CLKRST.CLK_STS) 2 = true) ∧
    (dbgOn.working Page.debug = true ∧ bit (dbgOn.rd Page.debug DEBUG.DBG_STS) 0 = true) ∧
    ((up.working Page.debug = false ∨ bit (up.rd Page.debug DEBUG.DBG_STS) 0 = false)) ∧
    (hotT.working Page.pwrmon = true ∧ hotT.rdf Page.pwrmon PWRMON.TEMP_STS 25 16 ≤ 1023) ∧
    ((pwOff.working Page.pwrmon = false ∨ 1000 < pwOff.rdf Page.pwrmon PWRMON.TEMP_STS 25 16)) ∧
    (up.watches 3 = true ∧ 0 < up.rail 3 PWRMONW.RAIL_RST) ∧
    ((pwOff.watches 2 = false ∨ pwOff.rail 2 PWRMONW.RAIL_RST ≤ 0)) := by
  and_intros <;> first | decide +kernel | exact accepts_of (by decide +kernel) | (unfold State.unpinned; decide +kernel) | (unfold State.quiet; decide +kernel) | exact fun _ h => nomatch h | exact Or.inr (Or.inr rfl)
theorem wit_ChipResets_2 :
    (rstG.accepts Src.pf Page.clkrst CLKRST.RST_GO 1) ∧
    (rel.clk.released = true) ∧
    (up.clk.released = false) ∧
    (up.booting = false) ∧
    (bootR.booting = true) ∧
    (bootS.booting = true ∧ (bootS.bootTries true true).snd.snd.code = 0) ∧
    (bootSS.booting = true ∧ (bootSS.bootTries true true).snd.snd.code = 0 ∧ (bootSS.bootTries true true).snd.fst.isNone = true ∧ bootWrites (bootSS.bootImage (bootSS.bootTries true true).fst) = []) ∧
    (bootR.booting = true ∧ (bootR.bootTries true true).snd.snd.code ≠ 0) := by
  refine ⟨accepts_of (by decide +kernel), rfl, rfl, by decide +kernel, by decide +kernel, ⟨by decide +kernel, ?_⟩,
    ⟨by decide +kernel, ?_, ?_, ?_⟩, ⟨by decide +kernel, by decide +kernel⟩⟩
  · rw [bootS_tries]; exact bootS_try
  · rw [bootSS_tries]; exact bootSS_try
  · rw [bootSS_tries]; rfl
  · rw [bootSS_tries, bootSS_images.1]; decide +kernel
theorem wit_ClocksAndSupplies_1 :
    (bit (clkBad.rd Page.clkrst CLKRST.CLK_STS) 3 = true) ∧
    (bit (up.rd Page.clkrst CLKRST.CLK_STS) 3 = false) ∧
    ((bit (up.rd Page.clkrst CLKRST.CLK_STS) 3 = false ∨ up.time.elapsed < up.clk.refSince + 10000000 * nsU)) ∧
    (bit (refAway.rd Page.clkrst CLKRST.CLK_STS) 3 = true ∧ refAway.clk.refSince + 10000000 * nsU ≤ refAway.time.elapsed) ∧
    (bits (clk1.rd Page.clkrst CLKRST.CLK_STS) 3 2 = 1) ∧
    (bits (up.rd Page.clkrst CLKRST.CLK_STS) 3 2 ≠ 1) ∧
    (bit (up.rd Page.clkrst CLKRST.CLK_STS) (4 + 1) = false) ∧
    (bit (x110.rd Page.clkrst CLKRST.CLK_STS) (4 + 0) = true) := by
  and_intros <;> first | decide +kernel | exact accepts_of (by decide +kernel) | (unfold State.unpinned; decide +kernel) | (unfold State.quiet; decide +kernel) | exact fun _ h => nomatch h | exact Or.inr (Or.inr rfl)
theorem wit_ClocksAndSupplies_2 :
    (pwOff.watches 3 = false) ∧
    (up.watches 3 = true ∧ up.railBelow 3 = false ∧ 0 < up.rail 3 PWRMONW.RAIL_WARN ∧ up.pwrWarn = false) ∧
    ((up.railBelow 3 = true ∨ up.rail 3 PWRMONW.RAIL_WARN ≤ 4095)) ∧
    (dip.watches 3 = true ∧ dip.railBelow 3 = true ∧ dip.rail 3 PWRMONW.RAIL_WARN + dip.rail 3 PWRMONW.RAIL_HYST ≤ 4095) ∧
    (up.railBelow 3 = false) ∧
    ((sup 2147484160).working Page.pwrmon = true ∧ (sup 2147484160).pwrWarn = true ∧ bits ((sup 2147484160).rd Page.pwrmon PWRMON.PWR_STS) 8 0 = 0 ∧ (sup 2147484160).clk.recAt + 100 * usU ≤ (sup 2147484160).time.elapsed) ∧
    ((up.working Page.pwrmon = false ∨ up.pwrWarn = false ∨ bits (up.rd Page.pwrmon PWRMON.PWR_STS) 8 0 ≠ 0 ∨ up.time.elapsed < up.clk.recAt + 100 * usU)) ∧
    (pwOff.working Page.pwrmon = false) := by
  and_intros <;> first | decide +kernel | exact accepts_of (by decide +kernel) | (unfold State.unpinned; decide +kernel) | (unfold State.quiet; decide +kernel) | exact fun _ h => nomatch h | exact Or.inr (Or.inr rfl)
theorem wit_ClocksAndSupplies_3 :
    (hot.working Page.pwrmon = true ∧ BitVec.toNat (hot.rd Page.pwrmon PWRMON.TEMP_CFG) < 1023) ∧
    (hot.working Page.pwrmon = true ∧ 3 ≤ BitVec.toNat (hot.rd Page.pwrmon PWRMON.TEMP_CFG)) := by
  and_intros <;> first | decide +kernel | exact accepts_of (by decide +kernel) | (unfold State.unpinned; decide +kernel) | (unfold State.quiet; decide +kernel) | exact fun _ h => nomatch h | exact Or.inr (Or.inr rfl)
theorem wit_TapAndDebug :
    (up.padsTaken = false) ∧
    (x111.padsTaken = true) ∧
    (padT.padsTaken = true) ∧
    (dbgOff.working Page.debug = false) ∧
    (up.working Page.debug = true ∧ (Config.debugDisable = true ∨ bit (up.rd Page.debug DEBUG.DBG_CTL) 0 = true ∨ false = false)) ∧
    (up.working Page.debug = true ∧ bit (up.rd Page.debug DEBUG.DBG_CTL) 0 = false) ∧
    (up.accepts Src.pf Page.debug DEBUG.DBG_CTL 1) := by
  and_intros <;> first | decide +kernel | exact accepts_of (by decide +kernel) | (unfold State.unpinned; decide +kernel) | (unfold State.quiet; decide +kernel) | exact fun _ h => nomatch h | exact Or.inr (Or.inr rfl)
theorem wit_CourierQueues_1 :
    (qon.accepts Src.pf (qPage 0) (qOfs 0 GQ.SQ_PI) 2) ∧
    (qon.accepts Src.pf (qPage 0) (qOfs 0 GQ.SQ_CFG) (BitVec.ofNat 32 (2 ^ 16 + 8)) ∧ qon.qEn 0 = true) ∧
    (up.accepts Src.pf (qPage 0) (qOfs 0 GQ.SQ_CFG) (BitVec.ofNat 32 (2 ^ 16 + 8)) ∧ up.qEn 0 = false ∧ Tbl.sortedAbove none up.courier.engines = true) ∧
    (up.accepts Src.pf Page.courier (COURIER.Q_SHARE 0) 65539) ∧
    (x112.courierOn = true ∧ x112.quarantined Page.courier 0 = false ∧ Tbl.look 0 x112.courier.engines = none ∧ x112.ready 0 (fetchedAt [] 0) = true ∧ (∀ (k : Nat), k < 256 → k ≠ 0 → x112.ready k (fetchedAt [] k) = false) ∧ (x112.queue 0).used < x112.roundWeight 0 ∧ List.find? DescRun.more (x112.queue 0).runs = some run0) ∧
    (qon.courierOn = true ∧ qon.quarantined Page.courier 0 = false ∧ Tbl.look 0 qon.courier.engines = none ∧ qon.ready 0 (fetchedAt [(0, dsc)] 0) = true ∧ (∀ (k : Nat), k < 256 → k ≠ 0 → qon.ready k (fetchedAt [(0, dsc)] k) = false) ∧ (qon.queue 0).used < qon.roundWeight 0 ∧ (qon.queue 0).runs = [] ∧ fetchedAt [(0, dsc)] 0 = some x113 ∧ qon.hostUp = true ∧ qon.descCode 0 x113 = 0) ∧
    (qon.courierOn = true ∧ qon.quarantined Page.courier 0 = false ∧ Tbl.look 0 qon.courier.engines = none ∧ qon.ready 0 (fetchedAt [(0, dscB)] 0) = true ∧ (∀ (k : Nat), k < 256 → k ≠ 0 → qon.ready k (fetchedAt [(0, dscB)] k) = false) ∧ (qon.queue 0).used < qon.roundWeight 0 ∧ (qon.queue 0).runs = [] ∧ fetchedAt [(0, dscB)] 0 = some x114 ∧ qon.hostUp = true ∧ qon.descCode 0 x114 ≠ 0 ∧ (qon.queue 0).cut = false) ∧
    (Tbl.look 3 (qrun run0 true).courier.engines = some x115 ∧ x115.queue = 0 ∧ x115.addr + x115.len ≤ dramSize ∧ (x115.op = 1 → x115.len ≤ [1, 2, 3, 4].length) ∧ x115.dropped = true ∧ (qrun run0 true).poison = []) := by
  and_intros <;> first | decide +kernel | exact accepts_of (by decide +kernel) | (unfold State.unpinned; decide +kernel) | (unfold State.quiet; decide +kernel) | exact fun _ h => nomatch h | exact Or.inr (Or.inr rfl)
theorem wit_CourierQueues_2 :
    (Tbl.look 3 x116.courier.engines = some (sgm 1) ∧ (sgm 1).queue = 0 ∧ (sgm 1).addr + (sgm 1).len ≤ dramSize ∧ ((sgm 1).op = 1 → (sgm 1).len ≤ [1, 2, 3, 4].length) ∧ (sgm 1).dropped = false ∧ bit (x116.rd Page.courier HDR.PAGE_CTL) 0 = false) ∧
    (Tbl.look 3 (qrun run0 false).courier.engines = some (sgm 1) ∧ (sgm 1).queue = 0 ∧ (sgm 1).addr + (sgm 1).len ≤ dramSize ∧ ((sgm 1).op = 1 → (sgm 1).len ≤ [1, 2, 3, 4].length) ∧ (sgm 1).dropped = false ∧ bit ((qrun run0 false).rd Page.courier HDR.PAGE_CTL) 0 = true ∧ (qrun run0 false).hostUp = true ∧ (qrun run0 false).poison = [] ∧ ((qrun run0 false).queue 0).runs = [run0] ∧ run0.index = (sgm 1).index ∧ run0.code = 0 ∧ run0.next < run0.desc.len) ∧
    (Tbl.look 3 (qrun { run0 with next := 8192 } false).courier.engines = some (sgm 1) ∧ (sgm 1).queue = 0 ∧ (sgm 1).addr + (sgm 1).len ≤ dramSize ∧ ((sgm 1).op = 1 → (sgm 1).len ≤ [1, 2, 3, 4].length) ∧ (sgm 1).dropped = false ∧ bit ((qrun { run0 with next := 8192 } false).rd Page.courier HDR.PAGE_CTL) 0 = true ∧ (qrun { run0 with next := 8192 } false).hostUp = true ∧ (qrun { run0 with next := 8192 } false).poison = [] ∧ ((qrun { run0 with next := 8192 } false).queue 0).runs = [x117] ∧ x117.index = (sgm 1).index ∧ x117.code = 0 ∧ x117.next = x117.desc.len ∧ x117.open_ = 1 ∧ (qrun { run0 with next := 8192 } false).isolated Page.courier = false ∧ ((qrun { run0 with next := 8192 } false).queue 0).resetting = false ∧ ((qrun { run0 with next := 8192 } false).queue 0).cut = false) ∧
    (qon.mayStart 0 (some (courierDesc 0)) = true) ∧
    (Tbl.look 3 (qrun { run0 with open_ := 2 } false).courier.engines = some (sgm 1) ∧ (sgm 1).queue = 0 ∧ (sgm 1).dropped = false ∧ ((qrun { run0 with open_ := 2 } false).queue 0).runs = [x118] ∧ x118.index = (sgm 1).index ∧ 1 < x118.open_) ∧
    (courierDesc dscB = courierDesc (BitVec.ofNat 256 (ofLe (List.take 32 (leBytes 32 dscB.toNat)))) ∧ qon.mayStart 0 (some (courierDesc dscB)) = true ∧ qon.descCode 0 (courierDesc dscB) ≠ 0 ∧ (qon.queue 0).runs = [] ∧ qon.isolated Page.courier = false ∧ (qon.queue 0).cut = false) ∧
    (Tbl.look 3 (qEng { run0 with next := 8192 } (sgm 2)).courier.engines = some (sgm 2) ∧ (sgm 2).queue = 0 ∧ (sgm 2).dropped = false ∧ bit ((qEng { run0 with next := 8192 } (sgm 2)).rd Page.courier HDR.PAGE_CTL) 0 = true ∧ (qEng { run0 with next := 8192 } (sgm 2)).isolated Page.courier = false ∧ (qEng { run0 with next := 8192 } (sgm 2)).poison = [] ∧ (sgm 2).addr + (sgm 2).len ≤ dramSize ∧ (sgm 2).op = 2 ∧ ((qEng { run0 with next := 8192 } (sgm 2)).queue 0).runs = [x117] ∧ x117.index = (sgm 2).index ∧ x117.code = 0 ∧ x117.next = x117.desc.len ∧ x117.open_ = 1 ∧ ((qEng { run0 with next := 8192 } (sgm 2)).queue 0).cut = false) := by
  and_intros <;> first | decide +kernel | exact accepts_of (by decide +kernel) | (unfold State.unpinned; decide +kernel) | (unfold State.quiet; decide +kernel) | exact fun _ h => nomatch h | exact Or.inr (Or.inr rfl)
theorem wit_FunctionsAndPages_1 :
    ((up.queue 5).resetting = false ∧ Tbl.sortedAbove none up.courier.engines = true) ∧
    ((vf5.queue 5).resetting = true) ∧
    (vf.accepts (Src.fn 5) (Page.guest 5 0) GCTL.G_CTL 1 ∧ (vf.queue 5).resetting = false ∧ Tbl.sortedAbove none vf.courier.engines = true) ∧
    (vf.accepts Src.pf Page.hostif HOSTIF.FN_RESET 1 ∧ (vf.queue vf.fnSel).resetting = false ∧ Tbl.sortedAbove none vf.courier.engines = true) ∧
    (((up.queue 5).resetting = false ∨ up.fence 5 ≠ 0)) ∧
    ((vf5.queue 5).resetting = true ∧ vf5.fence 5 = 0) ∧
    (vf.sdLocked 1 = false) ∧
    (clkBad.sdLocked 1 = true) := by
  and_intros <;> first | decide +kernel | exact accepts_of (by decide +kernel) | (unfold State.unpinned; decide +kernel) | (unfold State.quiet; decide +kernel) | exact fun _ h => nomatch h | exact Or.inr (Or.inr rfl)
theorem wit_FunctionsAndPages_2 :
    (up.courier.engines = []) ∧
    (str5.accepts (Src.fn 5) (Page.guest 5 1) GSTR.STR_SEL (BitVec.ofNat 32 (b2n true * 2 ^ 16 + 4)) ∧ true = true ∧ str5.pubOf 4 = some x119) ∧
    (str5.accepts (Src.fn 5) (Page.guest 5 1) GSTR.STR_SEL (BitVec.ofNat 32 (b2n false * 2 ^ 16 + 3)) ∧ false = false ∧ Tbl.look 3 str5.porter.ctxs = some x120) ∧
    (x121.accepts (Src.fn 5) (Page.guest 5 3) GLV.LV_SEL_LO 0#32 ∧ ({ x121 with shadow := Tbl.put (key (Page.guest 5 3) GLV.LV_SEL_LO) (0#32) x121.shadow } : State).accepts (Src.fn 5) (Page.guest 5 3) GLV.LV_SEL_HI (BitVec.ofNat 32 (0 / 2 ^ 32)) ∧ x121.lvFind 5 0 = (E_GONE, none)) ∧
    (str5.accepts (Src.fn 5) (Page.guest 5 3) GLV.LV_SEL_LO 0#32 ∧ ({ str5 with shadow := Tbl.put (key (Page.guest 5 3) GLV.LV_SEL_LO) (0#32) str5.shadow } : State).accepts (Src.fn 5) (Page.guest 5 3) GLV.LV_SEL_HI (BitVec.ofNat 32 (0 / 2 ^ 32)) ∧ str5.lvFind 5 0 = (0, some x122) ∧ str5.poisoned (str5.ringBase + x122.ofs) x122.len = false) := by
  and_intros <;> first | decide +kernel | exact accepts_of (by decide +kernel) | (unfold State.unpinned; decide +kernel) | (unfold State.quiet; decide +kernel) | exact fun _ h => nomatch h | exact Or.inr (Or.inr rfl)
theorem wit_Keyring_1 :
    (up.accepts Src.pf Page.keyring KEYRING.KR_CMD 1#32) ∧
    (up.accepts Src.pf Page.keyring KEYRING.KR_CMD 2#32) ∧
    (up.accepts Src.pf Page.keyring KEYRING.KR_CMD 3#32) ∧
    (up.accepts Src.pf Page.keyring KEYRING.KR_CMD 4#32) ∧
    (up.accepts Src.pf Page.keyring KEYRING.KR_CMD 5#32) ∧
    (up.accepts Src.pf Page.keyring KEYRING.KR_CMD 6#32) ∧
    (up.accepts Src.pf Page.keyring KEYRING.KR_CMD 7#32) ∧
    (up.keyring.job = none) := by
  and_intros <;> first | decide +kernel | exact accepts_of (by decide +kernel) | (unfold State.unpinned; decide +kernel) | (unfold State.quiet; decide +kernel) | exact fun _ h => nomatch h | exact Or.inr (Or.inr rfl)
theorem wit_Keyring_2 :
    (x123.keyring.job = some x124 ∧ x124.op < 8 ∧ x124.slot < 512 ∧ x123.krCheck x124 = some E_RANGE) ∧
    (x125.keyring.job = some jGen ∧ jGen.op < 8 ∧ jGen.slot < 512 ∧ x125.krCheck jGen = none ∧ 1 ≤ jGen.op ∧ jGen.op ≤ 4) ∧
    (x126.keyring.job = some jRev ∧ jRev.op < 8 ∧ jRev.slot < 512 ∧ x126.krCheck jRev = none ∧ jRev.op = 5 ∧ Tbl.look jRev.slot x126.keyring.slots = some ks5 ∧ ks5.revoked = false) ∧
    (x127.keyring.job = some jEra ∧ jEra.op < 8 ∧ jEra.slot < 512 ∧ x127.krCheck jEra = none ∧ jEra.op = 6) ∧
    (x128.keyring.job = some jCom ∧ jCom.op < 8 ∧ jCom.slot < 512 ∧ x128.krCheck jCom = none ∧ jCom.op = 7) ∧
    (up.keyring.commit = none) ∧
    ((comF { snap := [(5, ks5)], target := some (1, 2, []), step := 6 } []).keyring.commit = some x129 ∧ (x129.target.isSome = true ∨ (comF { snap := [(5, ks5)], target := some (1, 2, []), step := 6 } []).pwrWarn = true ∨ (comF { snap := [(5, ks5)], target := some (1, 2, []), step := 6 } []).flashOwner ≠ some FlashWork.keys ∨ (comF { snap := [(5, ks5)], target := some (1, 2, []), step := 6 } []).working Page.flash = false)) ∧
    ((comF { snap := [(5, ks5)], target := none } []).keyring.commit = some x130 ∧ x130.target = none ∧ (comF { snap := [(5, ks5)], target := none } []).pwrWarn = false ∧ (comF { snap := [(5, ks5)], target := none } []).flashOwner = some FlashWork.keys ∧ (comF { snap := [(5, ks5)], target := none } []).working Page.flash = true) := by
  and_intros <;> first | decide +kernel | exact accepts_of (by decide +kernel) | (unfold State.unpinned; decide +kernel) | (unfold State.quiet; decide +kernel) | exact fun _ h => nomatch h | exact Or.inr (Or.inr rfl)
theorem wit_Keyring_3 :
    ((comF { snap := [(5, ks5)], target := some (1, 2, []), step := 4 } stF).keyring.commit = some { snap := [(5, ks5)], target := some (1, 2, []), step := 4 } ∧ (false = false ∨ (comF { snap := [(5, ks5)], target := some (1, 2, []), step := 4 } stF).flashSize = 0)) ∧
    ((comF { snap := [(5, ks5)], target := some (1, 2, []), step := 4 } stF).keyring.commit = some { snap := [(5, ks5)], target := some (1, 2, []), step := 4 } ∧ true = true ∧ (comF { snap := [(5, ks5)], target := some (1, 2, []), step := 4 } stF).flashSize ≠ 0 ∧ (4 ≠ 6 ∨ (comF { snap := [(5, ks5)], target := some (1, 2, []), step := 4 } stF).working Page.flash = false)) ∧
    ((comF { snap := [(5, ks5)], target := some (1, 2, []), step := 6 } []).keyring.commit = some { snap := [(5, ks5)], target := some (1, 2, []), step := 6 } ∧ true = true ∧ (comF { snap := [(5, ks5)], target := some (1, 2, []), step := 6 } []).flashSize ≠ 0 ∧ 6 = 6 ∧ (comF { snap := [(5, ks5)], target := some (1, 2, []), step := 6 } []).working Page.flash = true ∧ (comF { snap := [(5, ks5)], target := some (1, 2, []), step := 6 } []).storeGood 1 [] = false) ∧
    ((comF { snap := [(5, ks5)], target := some (1, 2, []), step := 6 } stF).keyring.commit = some { snap := [(5, ks5)], target := some (1, 2, []), step := 6 } ∧ true = true ∧ (comF { snap := [(5, ks5)], target := some (1, 2, []), step := 6 } stF).flashSize ≠ 0 ∧ 6 = 6 ∧ (comF { snap := [(5, ks5)], target := some (1, 2, []), step := 6 } stF).working Page.flash = true ∧ (comF { snap := [(5, ks5)], target := some (1, 2, []), step := 6 } stF).storeGood 1 [] = true) ∧
    (up.accepts Src.pf Page.keyring KEYRING.KR_CTL (up.rd Page.keyring KEYRING.KR_CTL ||| 256)) ∧
    (bit (krRed.rd Page.keyring KEYRING.KR_STS) 2 = true) ∧
    (bit (up.rd Page.keyring KEYRING.KR_STS) 2 = false) := by
  and_intros <;> first | decide +kernel | exact accepts_of (by decide +kernel) | (unfold State.unpinned; decide +kernel) | (unfold State.quiet; decide +kernel) | exact fun _ h => nomatch h | exact Or.inr (Or.inr rfl)
theorem wit_LedgerCommands_1 :
    ((State.reset.writerCan = false ∨ State.reset.ledger.running = true)) ∧
    (up.writerCan = true ∧ up.ledger.running = false) ∧
    ((State.reset.writerCan = false ∨ State.reset.ledger.running = false ∨ takeNext State.reset.ledger = none)) ∧
    (wrt.writerCan = true ∧ wrt.ledger.running = true ∧ takeNext wrt.ledger = some (rec0, x131) ∧ rec0.guest < 256 ∧ wrt.ledger.idx = [] ∧ wrt.poison = [] ∧ (recBytes rec0 (wrt.ledger.headSeq + 1)).length ≤ wrt.ringSize - wrt.ledger.headOfs) ∧
    (State.reset.accepts Src.boot Page.ledger LEDGER.LG_BASE_LO 65536#32 ∧ ({ State.reset with shadow := Tbl.put (key Page.ledger LEDGER.LG_BASE_LO) (65536#32) State.reset.shadow } : State).accepts Src.boot Page.ledger LEDGER.LG_BASE_HI (BitVec.ofNat 32 (65536 / 2 ^ 32)) ∧ ({ ({ State.reset with shadow := Tbl.put (key Page.ledger LEDGER.LG_BASE_LO) (65536#32) State.reset.shadow } : State) with shadow := Tbl.put (key Page.ledger LEDGER.LG_BASE_HI) (BitVec.ofNat 32 (65536 / 2 ^ 32)) ({ State.reset with shadow := Tbl.put (key Page.ledger LEDGER.LG_BASE_LO) (65536#32) State.reset.shadow } : State).shadow } : State).accepts Src.boot Page.ledger LEDGER.LG_CFG 16#32) ∧
    (up.accepts Src.pf Page.ledger LEDGER.LG_SEL_LO 3#32 ∧ ({ up with shadow := Tbl.put (key Page.ledger LEDGER.LG_SEL_LO) (3#32) up.shadow } : State).accepts Src.pf Page.ledger LEDGER.LG_SEL_HI (BitVec.ofNat 32 (3 / 2 ^ 32)) ∧ List.find? (fun e => !e.filler && e.seq == 3) up.ledger.idx = none) ∧
    (lgx.accepts Src.pf Page.ledger LEDGER.LG_SEL_LO 3#32 ∧ ({ lgx with shadow := Tbl.put (key Page.ledger LEDGER.LG_SEL_LO) (3#32) lgx.shadow } : State).accepts Src.pf Page.ledger LEDGER.LG_SEL_HI (BitVec.ofNat 32 (3 / 2 ^ 32)) ∧ List.find? (fun e => !e.filler && e.seq == 3) lgx.ledger.idx = some x132 ∧ lgx.poisoned (lgx.ringBase + x132.ofs) x132.len = false) ∧
    (up.accepts Src.pf Page.ledger LEDGER.LG_CLR_CMD 1 ∧ up.clearCode up.tokenBytes ≠ 0) := by
  and_intros <;> first | decide +kernel | exact accepts_of (by decide +kernel) | (unfold State.unpinned; decide +kernel) | (unfold State.quiet; decide +kernel) | exact fun _ h => nomatch h | exact Or.inr (Or.inr rfl)
theorem wit_LedgerCommands_2 :
    ((clrGo (List.replicate 256 (vj true))).accepts Src.pf Page.ledger LEDGER.LG_CLR_CMD 1 ∧ (clrGo (List.replicate 256 (vj true))).clearCode (clrGo (List.replicate 256 (vj true))).tokenBytes = 0 ∧ 256 ≤ (clrGo (List.replicate 256 (vj true))).hmacDepth) ∧
    ((clrGo []).accepts Src.pf Page.ledger LEDGER.LG_CLR_CMD 1 ∧ (clrGo []).clearCode (clrGo []).tokenBytes = 0 ∧ (clrGo []).hmacDepth < 256) ∧
    ((State.reset.ledger.clr = none ∨ State.reset.working Page.ledger = false)) ∧
    ((clrX { cl0 with code := 4 }).ledger.clr = some x133 ∧ (clrX { cl0 with code := 4 }).working Page.ledger = true ∧ x133.code ≠ 0) ∧
    ((clrX cl0).ledger.clr = some cl0 ∧ (clrX cl0).working Page.ledger = true ∧ cl0.code = 0 ∧ cl0.engine = none ∧ (clrX cl0).now < cl0.deadline) ∧
    ((lateT (clrX cl0)).ledger.clr = some cl0 ∧ (lateT (clrX cl0)).working Page.ledger = true ∧ cl0.code = 0 ∧ cl0.engine = none ∧ cl0.deadline ≤ (lateT (clrX cl0)).now) ∧
    ((clrX { cl0 with engine := some 5 }).ledger.clr = some x134 ∧ (clrX { cl0 with engine := some 5 }).working Page.ledger = true ∧ x134.code = 0 ∧ x134.engine = some 5 ∧ 5 < 16 ∧ (x134.pass = false ∨ x134.revoked = true)) ∧
    ((clrX { cl0 with engine := some 5, pass := true }).ledger.clr = some x135 ∧ (clrX { cl0 with engine := some 5, pass := true }).working Page.ledger = true ∧ x135.code = 0 ∧ x135.engine = some 5 ∧ 5 < 16 ∧ x135.pass = true ∧ x135.revoked = false) := by
  and_intros <;> first | decide +kernel | exact accepts_of (by decide +kernel) | (unfold State.unpinned; decide +kernel) | (unfold State.quiet; decide +kernel) | exact fun _ h => nomatch h | exact Or.inr (Or.inr rfl)
theorem wit_LedgerCommands_3 :
    (hst.accepts Src.pf Page.ledger LEDGER.HIST_SEL x136) ∧
    (hst.accepts Src.pf Page.ledger (LEDGER.MET_CFG 3) 5) ∧
    ((¬(up.keeps (Page.exb 0) 0 0 = true ∧ (0 = 6 → (up.corest 0).conv.isSome = true)))) ∧
    ((x137.keeps (Page.exb 0) 0 0 = true ∧ (0 = 6 → (x137.corest 0).conv.isSome = true)) ∧ bit (x137.rd (Page.exb 0) HDR.LEDGER_CTL) 1 = false) ∧
    ((hse.keeps (Page.exb 0) 0 0 = true ∧ (0 = 6 → (hse.corest 0).conv.isSome = true)) ∧ bit (hse.rd (Page.exb 0) HDR.LEDGER_CTL) 1 = true) := by
  and_intros <;> first | decide +kernel | exact accepts_of (by decide +kernel) | (unfold State.unpinned; decide +kernel) | (unfold State.quiet; decide +kernel) | exact fun _ h => nomatch h | exact Or.inr (Or.inr rfl)
theorem wit_CheckScans :
    (ckQ.accepts Src.pf Page.check (win 2 CHECKW.CK_CTL) (BitVec.ofNat 32 (256 + b2n false * 16 + 1)) ∧ ckQ.quarantined Page.check 2 = true) ∧
    (ckOff.accepts Src.pf Page.check (win 2 CHECKW.CK_CTL) (BitVec.ofNat 32 (256 + b2n false * 16 + 1)) ∧ ckOff.quarantined Page.check 2 = false ∧ bit (ckOff.rd Page.check HDR.PAGE_CTL) 0 = false) ∧
    (up.accepts Src.pf Page.check (win 2 CHECKW.CK_CTL) (BitVec.ofNat 32 (256 + b2n false * 16 + 1)) ∧ up.quarantined Page.check 2 = false ∧ bit (up.rd Page.check HDR.PAGE_CTL) 0 = true) ∧
    (up.accepts Src.pf Page.check (win 2 CHECKW.CK_CTL) (up.rd Page.check (win 2 CHECKW.CK_CTL) ||| 512#32) ∧ bit (up.rd Page.check (win 2 CHECKW.CK_CTL)) 8 = false ∧ (up.scan 2).busy = false) ∧
    (scn.accepts Src.pf Page.check (win 2 CHECKW.CK_CTL) (scn.rd Page.check (win 2 CHECKW.CK_CTL) ||| 512#32) ∧ bit (scn.rd Page.check (win 2 CHECKW.CK_CTL)) 8 = false ∧ (scn.scan 2).busy = true) ∧
    (((up.scan 2).busy = false ∨ up.working Page.check = false)) ∧
    ((scn.scan 2).busy = true ∧ scn.working Page.check = true ∧ scn.poison = []) ∧
    ((scp.scan 2).busy = true ∧ scp.working Page.check = true ∧ scp.poisonIn (scp.scan 2).addr (scp.scan 2).len = [1]) := by
  and_intros <;> first | decide +kernel | exact accepts_of (by decide +kernel) | (unfold State.unpinned; decide +kernel) | (unfold State.quiet; decide +kernel) | exact fun _ h => nomatch h | exact Or.inr (Or.inr rfl)
theorem wit_Converters_1 :
    (adcOnly.working Page.acq = false ∧ adcOnly.working Page.filt = false ∧ adcOnly.converts 0 = true ∧ adcOnly.analog.cal.op = 0 ∧ adcOnly.il (0 / 2) = true ∧ 0 % 2 = (adcOnly.stream (0 / 2)).index % 2) ∧
    (adcSeq.working Page.acq = false ∧ adcSeq.working Page.filt = false ∧ adcSeq.converts 1 = true ∧ adcSeq.analog.cal.op = 0 ∧ adcSeq.il (1 / 2) = false ∧ (adcSeq.corest 1).scan = true ∧ (adcSeq.corest 1).entry ≤ bits (adcSeq.core 1 ADCW.CORE_SEQ) 3 0) ∧
    (up.converts 1 = false) ∧
    (swOff.accepts Src.pf Page.adc (win 1 ADCW.CORE_SWTRIG) 1 ∧ swOff.present (2 + 1) = false) ∧
    (sw4.accepts Src.pf Page.adc (win 1 ADCW.CORE_SWTRIG) 1 ∧ sw4.present (2 + 1) = true ∧ (sw4.corest 1).scan = false) ∧
    (swB4.accepts Src.pf Page.adc (win 1 ADCW.CORE_SWTRIG) 1 ∧ swB4.present (2 + 1) = true ∧ (swB4.corest 1).scan = true) ∧
    ((up.present (2 + 1) = false ∨ (up.corest 1).trig = false)) ∧
    ((trigd 1 { trig := true }).present (2 + 1) = true ∧ ((trigd 1 { trig := true }).corest 1).trig = true ∧ ((trigd 1 { trig := true }).corest 1).scan = false ∧ (trigd 1 { trig := true }).coreTrig 1 ≠ 0) := by
  and_intros <;> first | decide +kernel | exact accepts_of (by decide +kernel) | (unfold State.unpinned; decide +kernel) | (unfold State.quiet; decide +kernel) | exact fun _ h => nomatch h | exact Or.inr (Or.inr rfl)
theorem wit_Converters_2 :
    ((trigd 1 { scan := true, trig := true }).present (2 + 1) = true ∧ ((trigd 1 { scan := true, trig := true }).corest 1).trig = true ∧ ((trigd 1 { scan := true, trig := true }).corest 1).scan = true) ∧
    (((up.corest 1).scan = false ∨ (up.corest 1).entry ≤ bits (up.core 1 ADCW.CORE_SEQ) 3 0)) ∧
    ((swD.corest 1).scan = true ∧ bits (swD.core 1 ADCW.CORE_SEQ) 3 0 < (swD.corest 1).entry ∧ swD.coreTrig 1 ≠ 0 ∧ (∀ (j : Nat), j < 6 → swD.present j = (swD.stream j).on)) ∧
    ((scanOff.corest 1).scan = true ∧ bits (scanOff.core 1 ADCW.CORE_SEQ) 3 0 < (scanOff.corest 1).entry ∧ scanOff.coreTrig 1 = 0 ∧ (scanOff.stream (2 + 1)).on = true ∧ scanOff.working Page.acq = false) ∧
    (up.accepts Src.pf Page.adc (coefGain 1 2) 65537 ∧ (up.converts 1 = false ∨ up.gainInUse 1 ≠ 2)) ∧
    (cfi.accepts Src.pf Page.adc (coefGain 1 2) 65537 ∧ cfi.converts 1 = true ∧ cfi.gainInUse 1 = 2 ∧ (¬(cfi.il (1 / 2) = true ∧ (cfi.stream (cfi.streamOf 1)).index % 2 ≠ 1 % 2))) ∧
    (adcCoef.accepts Src.pf Page.adc (coefGain 1 0) 65537 ∧ adcCoef.converts 1 = true ∧ adcCoef.gainInUse 1 = 0 ∧ (adcCoef.il (1 / 2) = true ∧ (adcCoef.stream (adcCoef.streamOf 1)).index % 2 ≠ 1 % 2)) ∧
    (noAdc.working Page.adc = false) := by
  and_intros <;> first | decide +kernel | exact accepts_of (by decide +kernel) | (unfold State.unpinned; decide +kernel) | (unfold State.quiet; decide +kernel) | exact fun _ h => nomatch h | exact Or.inr (Or.inr rfl)
theorem wit_Converters_3 :
    (up.working Page.adc = true ∧ (24000 ≤ 25000 ∧ 25000 ≤ 26000) ∧ bit (up.rd Page.adc ADC.ADC_STS) 0 = false) ∧
    (x138.working Page.adc = true ∧ (¬(24000 ≤ 9000 ∧ 9000 ≤ 26000)) ∧ bit (x138.rd Page.adc ADC.ADC_STS) 0 = true) ∧
    (up.working Page.adc = true ∧ (¬(24000 ≤ 1 ∧ 1 ≤ 26000)) ∧ bit (up.rd Page.adc ADC.ADC_STS) 0 = false) ∧
    (x139.working Page.adc = true ∧ (24000 ≤ 25000 ∧ 25000 ≤ 26000) ∧ bit (x139.rd Page.adc ADC.ADC_STS) 0 = true ∧ x139.analog.refGood = none) ∧
    (x140.working Page.adc = true ∧ (24000 ≤ 25000 ∧ 25000 ≤ 26000) ∧ bit (x140.rd Page.adc ADC.ADC_STS) 0 = true ∧ x140.analog.refGood = some 5 ∧ 5 + 100000 * nsU ≤ x140.time.elapsed) ∧
    (x138.working Page.adc = true ∧ (24000 ≤ 25000 ∧ 25000 ≤ 26000) ∧ bit (x138.rd Page.adc ADC.ADC_STS) 0 = true ∧ x138.analog.refGood = some 5 ∧ x138.time.elapsed < 5 + 100000 * nsU) ∧
    (up.accepts Src.pf Page.adc ADC.CAL_SEL 17) ∧
    (up.accepts Src.pf Page.adc ADC.CAL_CMD 1) := by
  and_intros <;> first | decide +kernel | exact accepts_of (by decide +kernel) | (unfold State.unpinned; decide +kernel) | (unfold State.quiet; decide +kernel) | exact fun _ h => nomatch h | exact Or.inr (Or.inr rfl)
theorem wit_Converters_4 :
    (x141.accepts Src.pf Page.adc ADC.CAL_CMD 2 ∧ bit (x141.rd Page.adc ADC.CAL_STS) 8 = true) ∧
    (up.accepts Src.pf Page.adc ADC.CAL_CMD 2 ∧ bit (up.rd Page.adc ADC.CAL_STS) 8 = false) ∧
    (x142.accepts Src.pf Page.adc ADC.CAL_CMD 3 ∧ bits (x142.rd Page.adc ADC.CAL_STS) 9 8 = 3) ∧
    (up.accepts Src.pf Page.adc ADC.CAL_CMD 3 ∧ (¬bits (up.rd Page.adc ADC.CAL_STS) 9 8 = 3)) ∧
    (x143.accepts Src.pf Page.adc ADC.CAL_CMD 4) ∧
    ((up.analog.cal.op = 0 ∨ up.analog.cal.count < 65536)) ∧
    (65536 ≤ cs1.analog.cal.count ∧ cs1.analog.cal.op = 1 ∧ cs1.analog.cal.sum.natAbs ≤ 2048 * 65536) ∧
    (65536 ≤ cs1b.analog.cal.count ∧ cs1b.analog.cal.op = 1 ∧ 2048 * 65536 < cs1b.analog.cal.sum.natAbs) := by
  and_intros <;> first | decide +kernel | exact accepts_of (by decide +kernel) | (unfold State.unpinned; decide +kernel) | (unfold State.quiet; decide +kernel) | exact fun _ h => nomatch h | exact Or.inr (Or.inr rfl)
theorem wit_Converters_5 :
    (65536 ≤ cs2b.analog.cal.count ∧ cs2b.analog.cal.op = 2 ∧ ((calE (bits (cs2b.rd Page.adc ADC.CAL_SEL) 12 8) (bits (cs2b.rd Page.adc ADC.CAL_SEL) 5 4) (signed 25 (BitVec.toNat (cs2b.rd Page.adc ADC.CAL_REF)))).fst.natAbs < 8192 * (calE (bits (cs2b.rd Page.adc ADC.CAL_SEL) 12 8) (bits (cs2b.rd Page.adc ADC.CAL_SEL) 5 4) (signed 25 (BitVec.toNat (cs2b.rd Page.adc ADC.CAL_REF)))).snd.natAbs ∨ cs2b.analog.cal.sum - cs2b.analog.cal.zero = 0 ∨ roundDiv ((calE (bits (cs2b.rd Page.adc ADC.CAL_SEL) 12 8) (bits (cs2b.rd Page.adc ADC.CAL_SEL) 5 4) (signed 25 (BitVec.toNat (cs2b.rd Page.adc ADC.CAL_REF)))).fst * 65536 * 65536) ((calE (bits (cs2b.rd Page.adc ADC.CAL_SEL) 12 8) (bits (cs2b.rd Page.adc ADC.CAL_SEL) 5 4) (signed 25 (BitVec.toNat (cs2b.rd Page.adc ADC.CAL_REF)))).snd * (cs2b.analog.cal.sum - cs2b.analog.cal.zero)) < 32768 ∨ 131072 < roundDiv ((calE (bits (cs2b.rd Page.adc ADC.CAL_SEL) 12 8) (bits (cs2b.rd Page.adc ADC.CAL_SEL) 5 4) (signed 25 (BitVec.toNat (cs2b.rd Page.adc ADC.CAL_REF)))).fst * 65536 * 65536) ((calE (bits (cs2b.rd Page.adc ADC.CAL_SEL) 12 8) (bits (cs2b.rd Page.adc ADC.CAL_SEL) 5 4) (signed 25 (BitVec.toNat (cs2b.rd Page.adc ADC.CAL_REF)))).snd * (cs2b.analog.cal.sum - cs2b.analog.cal.zero)))) ∧
    (65536 ≤ cs2.analog.cal.count ∧ cs2.analog.cal.op = 2 ∧ (¬((calE (bits (cs2.rd Page.adc ADC.CAL_SEL) 12 8) (bits (cs2.rd Page.adc ADC.CAL_SEL) 5 4) (signed 25 (BitVec.toNat (cs2.rd Page.adc ADC.CAL_REF)))).fst.natAbs < 8192 * (calE (bits (cs2.rd Page.adc ADC.CAL_SEL) 12 8) (bits (cs2.rd Page.adc ADC.CAL_SEL) 5 4) (signed 25 (BitVec.toNat (cs2.rd Page.adc ADC.CAL_REF)))).snd.natAbs ∨ cs2.analog.cal.sum - cs2.analog.cal.zero = 0 ∨ roundDiv ((calE (bits (cs2.rd Page.adc ADC.CAL_SEL) 12 8) (bits (cs2.rd Page.adc ADC.CAL_SEL) 5 4) (signed 25 (BitVec.toNat (cs2.rd Page.adc ADC.CAL_REF)))).fst * 65536 * 65536) ((calE (bits (cs2.rd Page.adc ADC.CAL_SEL) 12 8) (bits (cs2.rd Page.adc ADC.CAL_SEL) 5 4) (signed 25 (BitVec.toNat (cs2.rd Page.adc ADC.CAL_REF)))).snd * (cs2.analog.cal.sum - cs2.analog.cal.zero)) < 32768 ∨ 131072 < roundDiv ((calE (bits (cs2.rd Page.adc ADC.CAL_SEL) 12 8) (bits (cs2.rd Page.adc ADC.CAL_SEL) 5 4) (signed 25 (BitVec.toNat (cs2.rd Page.adc ADC.CAL_REF)))).fst * 65536 * 65536) ((calE (bits (cs2.rd Page.adc ADC.CAL_SEL) 12 8) (bits (cs2.rd Page.adc ADC.CAL_SEL) 5 4) (signed 25 (BitVec.toNat (cs2.rd Page.adc ADC.CAL_REF)))).snd * (cs2.analog.cal.sum - cs2.analog.cal.zero))))) ∧
    (calLate.calBusy = true ∧ calLate.analog.cal.count < 65536 ∧ calLate.analog.cal.since + 1000000000 * nsU ≤ calLate.time.elapsed) ∧
    ((up.calBusy = false ∨ 65536 ≤ up.analog.cal.count ∨ up.time.elapsed < up.analog.cal.since + 1000000000 * nsU)) := by
  and_intros <;> first | decide +kernel | exact accepts_of (by decide +kernel) | (unfold State.unpinned; decide +kernel) | (unfold State.quiet; decide +kernel) | exact fun _ h => nomatch h | exact Or.inr (Or.inr rfl)
theorem wit_FilterChannels_1 :
    (up.accepts Src.pf Page.filt (win 3 FILTW.FC_CFG) 1 ∧ bit 1 0 = true ∧ (up.fch 3).state = 0 ∧ up.quarantined Page.filt 3 = false) ∧
    (fOn.accepts Src.pf Page.filt (win 3 FILTW.FC_CFG) 0 ∧ bit 0 0 = false ∧ (fOn.fch 3).state ≠ 0 ∧ fOn.quarantined Page.filt 3 = false ∧ bit (fOn.fc 3 FILTW.FC_OUT) 31 = false ∧ fOn.working Page.acq = false) ∧
    (fOn.accepts Src.pf Page.filt (win 3 FILTW.FC_CFG) 1 ∧ (bit 1 0 = false ∧ (fOn.fch 3).state = 0 ∨ bit 1 0 = true ∧ (fOn.fch 3).state ≠ 0 ∨ fOn.quarantined Page.filt 3 = true)) ∧
    (up.accepts Src.pf Page.filt (win 3 FILTW.FC_CMD) 1) ∧
    (fOn.accepts Src.pf Page.filt (win 3 FILTW.FC_CMD) 2) ∧
    ((up.fch 3).held = none) ∧
    (Option.any (fun w => decide (fRecent.time.elapsed < w + usU)) (fRecent.fch 3).wrote = true) ∧
    ((x144.fch 3).held = some fs0 ∧ Option.any (fun w => decide (x144.time.elapsed < w + usU)) (x144.fch 3).wrote = false ∧ bit (x144.fc 3 FILTW.FC_OUT) 31 = false) := by
  and_intros <;> first | decide +kernel | exact accepts_of (by decide +kernel) | (unfold State.unpinned; decide +kernel) | (unfold State.quiet; decide +kernel) | exact fun _ h => nomatch h | exact Or.inr (Or.inr rfl)
theorem wit_FilterChannels_2 :
    (x145.fch 3).held = some fs0 ∧ Option.any (fun w => decide (x145.time.elapsed < w + usU)) (x145.fch 3).wrote = false ∧ bit (x145.fc 3 FILTW.FC_OUT) 31 = true ∧ x145.poison = [] ∧ x145.unpinned (bits (x145.fc 3 FILTW.FC_OUT) 24 0) ∧ x145.unpinned (bits (x145.fc 3 FILTW.FC_OUT) 24 0 + 1) := by
  and_intros <;> first | decide +kernel | exact accepts_of (by decide +kernel) | (unfold State.unpinned; decide +kernel) | (unfold State.quiet; decide +kernel) | exact fun _ h => nomatch h | exact Or.inr (Or.inr rfl)
theorem wit_AcquisitionUnits_1 :
    (aOff.accepts Src.pf Page.acq (auWin 1 ACQW.AU_CFG) 1 ∧ bit 1 0 = true ∧ (aOff.unit 1).state = 0) ∧
    (x146.accepts Src.pf Page.acq (auWin 1 ACQW.AU_CFG) 1 ∧ bit 1 0 = true ∧ (x146.unit 1).state ≠ 0) ∧
    (aOff.accepts Src.pf Page.acq (auWin 1 ACQW.AU_CFG) 0 ∧ bit 0 0 = false ∧ aOff.unitOn 1 = false) ∧
    (x147.accepts Src.pf Page.acq (auWin 1 ACQW.AU_CFG) 0 ∧ bit 0 0 = false ∧ x147.unitOn 1 = true ∧ (x147.unit 1).state = 2 ∧ (x147.unit 1).rec_ = some r1) ∧
    ((aOn { state := 1 }).accepts Src.pf Page.acq (auWin 1 ACQW.AU_CFG) 0 ∧ bit 0 0 = false ∧ (aOn { state := 1 }).unitOn 1 = true ∧ (((aOn { state := 1 }).unit 1).state = 1 ∨ ((aOn { state := 1 }).unit 1).state = 4) ∧ ((aOn { state := 1 }).unit 1).rec_ = none) ∧
    ((aOn { state := 3, rec_ := some r3 }).accepts Src.pf Page.acq (auWin 1 ACQW.AU_CFG) 0 ∧ bit 0 0 = false ∧ (aOn { state := 3, rec_ := some r3 }).unitOn 1 = true ∧ ((aOn { state := 3, rec_ := some r3 }).unit 1).state = 3 ∧ ((aOn { state := 3, rec_ := some r3 }).unit 1).rec_ = some r3 ∧ ((aOn { state := 3, rec_ := some r3 }).unit 1).cur = none) ∧
    (((up.unit 1).state ≠ 1 ∨ ¬(up.working Page.acq = true ∧ up.quarantined Page.acq 1 = false))) ∧
    ((x146.unit 1).state = 1 ∧ (x146.working Page.acq = true ∧ x146.quarantined Page.acq 1 = false) ∧ List.find? (fun j => !((x146.unit 1).full.contains j || (x146.unit 1).closing.any fun r => r.seg == j)) (List.map (fun j => ((x146.unit 1).nextSeg + j) % max 1 (bits (x146.au 1 ACQW.AU_NSEG) 8 0)) (List.range (bits (x146.au 1 ACQW.AU_NSEG) 8 0))) = some 0 ∧ x146.poison = [] ∧ x146.segBase 1 0 + 64 ≤ dramSize) := by
  and_intros <;> first | decide +kernel | exact accepts_of (by decide +kernel) | (unfold State.unpinned; decide +kernel) | (unfold State.quiet; decide +kernel) | exact fun _ h => nomatch h | exact Or.inr (Or.inr rfl)
theorem wit_AcquisitionUnits_2 :
    ((aOver.unit 1).state = 1 ∧ (aOver.working Page.acq = true ∧ aOver.quarantined Page.acq 1 = false) ∧ (∀ (j : Nat), j < bits (aOver.au 1 ACQW.AU_NSEG) 8 0 → ((aOver.unit 1).full.contains (((aOver.unit 1).nextSeg + j) % max 1 (bits (aOver.au 1 ACQW.AU_NSEG) 8 0)) || (aOver.unit 1).closing.any fun r => r.seg == ((aOver.unit 1).nextSeg + j) % max 1 (bits (aOver.au 1 ACQW.AU_NSEG) 8 0)) = true) ∧ bit (aOver.au 1 ACQW.AU_CFG) 16 = true ∧ (aOver.unit 1).full = [0, 1] ∧ aOver.poison = [] ∧ aOver.segBase 1 0 + 64 ≤ dramSize) ∧
    ((x148.unit 1).state = 1 ∧ (x148.working Page.acq = true ∧ x148.quarantined Page.acq 1 = false) ∧ (∀ (j : Nat), j < bits (x148.au 1 ACQW.AU_NSEG) 8 0 → ((x148.unit 1).full.contains (((x148.unit 1).nextSeg + j) % max 1 (bits (x148.au 1 ACQW.AU_NSEG) 8 0)) || (x148.unit 1).closing.any fun r => r.seg == ((x148.unit 1).nextSeg + j) % max 1 (bits (x148.au 1 ACQW.AU_NSEG) 8 0)) = true) ∧ bit (x148.au 1 ACQW.AU_CFG) 16 = false) ∧
    (x149.accepts Src.pf Page.acq (auWin 1 ACQW.AU_CMD) 2) ∧
    (x147.accepts Src.pf Page.acq (auWin 1 ACQW.AU_CMD) 1 ∧ (x147.working Page.acq = true ∧ x147.quarantined Page.acq 1 = false) ∧ (∀ (l : Nat), (x147.unit 1).lastTrig = some l → l / 20 ≠ x147.now / 20) ∧ (∀ (v : Nat), v < 4 → bit (x147.au v ACQW.AU_CFG) 0 = true → bits (x147.au v ACQW.AU_TRIG) 2 0 ≠ 4) ∧ (x147.unit 1).state = 2 ∧ (x147.unit 1).rec_ = some r1 ∧ r1.blocks = [] ∧ (x147.unit 1).cur = none ∧ 0 < r1.units) ∧
    (x150.accepts Src.pf Page.acq (auWin 1 ACQW.AU_CMD) 1 ∧ (x150.working Page.acq = true ∧ x150.quarantined Page.acq 1 = false) ∧ (∀ (l : Nat), (x150.unit 1).lastTrig = some l → l / 20 ≠ x150.now / 20) ∧ (∀ (v : Nat), v < 4 → bit (x150.au v ACQW.AU_CFG) 0 = true → bits (x150.au v ACQW.AU_TRIG) 2 0 ≠ 4) ∧ (x150.unit 1).state = 3 ∧ (x150.unit 1).rec_ = some x151) ∧
    (x149.accepts Src.pf Page.acq (auWin 1 ACQW.AU_CMD) 1 ∧ (x149.working Page.acq = true ∧ x149.quarantined Page.acq 1 = false) ∧ (∀ (l : Nat), (x149.unit 1).lastTrig = some l → l / 20 ≠ x149.now / 20) ∧ (∀ (v : Nat), v < 4 → bit (x149.au v ACQW.AU_CFG) 0 = true → bits (x149.au v ACQW.AU_TRIG) 2 0 ≠ 4) ∧ ((x149.unit 1).state = 1 ∨ (x149.unit 1).state = 4)) ∧
    (((up.unit 1).fifo = [] ∨ ¬(up.working Page.acq = true ∧ up.quarantined Page.acq 1 = false))) ∧
    ((x152.unit 1).fifo = [(8192, 1, blk1)] ∧ (x152.working Page.acq = true ∧ x152.quarantined Page.acq 1 = false) ∧ x152.poison = [] ∧ 8192 + 64 + 96 * 1 + 96 ≤ dramSize ∧ blk1.words.length ≤ 16) := by
  and_intros <;> first | decide +kernel | exact accepts_of (by decide +kernel) | (unfold State.unpinned; decide +kernel) | (unfold State.quiet; decide +kernel) | exact fun _ h => nomatch h | exact Or.inr (Or.inr rfl)
theorem wit_AcquisitionUnits_3 :
    (((up.unit 1).red ≤ 1 ∨ 32 < (up.unit 1).fifo.length ∨ up.time.elapsed < (up.unit 1).lowAt + 100 * usU ∨ ¬(up.working Page.acq = true ∧ up.quarantined Page.acq 1 = false))) ∧
    (1 < ((aRed none).unit 1).red ∧ ((aRed none).unit 1).fifo.length ≤ 32 ∧ ((aRed none).unit 1).lowAt + 100 * usU ≤ (aRed none).time.elapsed ∧ ((aRed none).working Page.acq = true ∧ (aRed none).quarantined Page.acq 1 = false) ∧ ((aRed none).unit 1).cur = none ∧ ((aRed none).unit 1).acc = []) ∧
    (1 < (aRedA.unit 1).red ∧ (aRedA.unit 1).fifo.length ≤ 32 ∧ (aRedA.unit 1).lowAt + 100 * usU ≤ aRedA.time.elapsed ∧ (aRedA.working Page.acq = true ∧ aRedA.quarantined Page.acq 1 = false) ∧ (aRedA.unit 1).acc ≠ []) ∧
    (((up.unit 1).closing = [] ∨ ¬(up.working Page.acq = true ∧ up.quarantined Page.acq 1 = false))) ∧
    ((x153.unit 1).closing = [x154] ∧ (x153.working Page.acq = true ∧ x153.quarantined Page.acq 1 = false) ∧ ((x153.unit 1).fifo.any fun e => e.fst == x154.base) = false ∧ x154.base + (64 + 96 * x154.units) ≤ dramSize ∧ x153.poison = []) := by
  and_intros <;> first | decide +kernel | exact accepts_of (by decide +kernel) | (unfold State.unpinned; decide +kernel) | (unfold State.quiet; decide +kernel) | exact fun _ h => nomatch h | exact Or.inr (Or.inr rfl)
theorem wit_ScrubAndFlash_1 :
    ((¬(State.reset.role.mode ≠ Mode.boot ∧ bit (State.reset.rd (Page.dramc 1) DRAMC.SCRUB_CTL) 0 = true ∧ State.reset.isolated (Page.dramc 1) = false))) ∧
    ((scrubOn.role.mode ≠ Mode.boot ∧ bit (scrubOn.rd (Page.dramc 1) DRAMC.SCRUB_CTL) 0 = true ∧ scrubOn.isolated (Page.dramc 1) = false) ∧ scrubOn.poisoned (scrubAddr 1 (scrubOn.scrubPos 1 % scrubLines)) 64 = false ∧ (scrubOn.scrubPos 1 % scrubLines + 1) % scrubLines ≠ 0) ∧
    ((scrubEnd.role.mode ≠ Mode.boot ∧ bit (scrubEnd.rd (Page.dramc 1) DRAMC.SCRUB_CTL) 0 = true ∧ scrubEnd.isolated (Page.dramc 1) = false) ∧ scrubEnd.poisoned (scrubAddr 1 (scrubEnd.scrubPos 1 % scrubLines)) 64 = false ∧ (scrubEnd.scrubPos 1 % scrubLines + 1) % scrubLines = 0) ∧
    ((scrubOn.role.mode ≠ Mode.boot ∧ bit (scrubOn.rd (Page.dramc 1) DRAMC.SCRUB_CTL) 0 = true ∧ scrubOn.isolated (Page.dramc 1) = false)) ∧
    (up.accepts Src.pf Page.flash FLASH.FL_CMD 1) ∧
    (up.accepts Src.pf Page.flash FLASH.FL_CMD (BitVec.ofNat 32 (b2n true * 256 + 2))) ∧
    ((fl Mode.test).accepts Src.pf Page.flash FLASH.CKPT_CMD 1 ∧ (fl Mode.test).role.mode = Mode.test) ∧
    (up.accepts Src.pf Page.flash FLASH.CKPT_CMD 1 ∧ up.role.mode ≠ Mode.test ∧ up.flashSize = 0) := by
  and_intros <;> first | decide +kernel | exact accepts_of (by decide +kernel) | (unfold State.unpinned; decide +kernel) | (unfold State.quiet; decide +kernel) | exact fun _ h => nomatch h | exact Or.inr (Or.inr rfl)
theorem wit_ScrubAndFlash_2 :
    (x155.accepts Src.pf Page.flash FLASH.CKPT_CMD 1 ∧ x155.flashSize ≠ 0 ∧ (¬(x155.role.mode = Mode.active ∨ x155.role.mode = Mode.hotStandby))) ∧
    (x156.accepts Src.pf Page.flash FLASH.CKPT_CMD 1 ∧ x156.flashSize ≠ 0 ∧ (x156.role.mode = Mode.active ∨ x156.role.mode = Mode.hotStandby) ∧ x156.ckptHalf < x156.ckptLen) ∧
    (x157.accepts Src.pf Page.flash FLASH.CKPT_CMD 1 ∧ x157.flashSize ≠ 0 ∧ (x157.role.mode = Mode.active ∨ x157.role.mode = Mode.hotStandby) ∧ x157.ckptLen ≤ x157.ckptHalf) ∧
    ((up.working Page.flash = false ∨ up.flashOwner = none)) ∧
    ((keyF 3 []).working Page.flash = true ∧ (keyF 3 []).flashOwner = some FlashWork.keys ∧ (keyF 3 []).keyring.commit = some { snap := [(5, ks5)], target := some (1, 2, []), step := 3 } ∧ (keyF 3 []).flashSize ≠ 0 ∧ 3 = 3) ∧
    ((keyF 4 kname).working Page.flash = true ∧ (keyF 4 kname).flashOwner = some FlashWork.keys ∧ (keyF 4 kname).keyring.commit = some { snap := [(5, ks5)], target := some (1, 2, kname), step := 4 } ∧ (keyF 4 kname).flashSize ≠ 0 ∧ 4 = 4 ∧ kname.length = 32) ∧
    ((keyF 5 kname).working Page.flash = true ∧ (keyF 5 kname).flashOwner = some FlashWork.keys ∧ (keyF 5 kname).keyring.commit = some { snap := [(5, ks5)], target := some (1, 2, kname), step := 5 } ∧ (keyF 5 kname).flashSize ≠ 0 ∧ 5 = 5) ∧
    ((keyF 3 []).working Page.flash = true ∧ (keyF 3 []).flashOwner = some FlashWork.keys ∧ (keyF 3 []).keyring.commit = some { snap := [(5, ks5)], target := some (1, 2, []), step := 3 } ∧ (keyF 3 []).flashSize ≠ 0) := by
  and_intros <;> first | decide +kernel | exact accepts_of (by decide +kernel) | (unfold State.unpinned; decide +kernel) | (unfold State.quiet; decide +kernel) | exact fun _ h => nomatch h | exact Or.inr (Or.inr rfl)
theorem wit_ScrubAndFlash_3 :
    (x158.working Page.flash = true ∧ x158.flashOwner = some FlashWork.manager ∧ x158.flashJob = some (FlashJob.read 0 64 4) ∧ x158.flashSize = 0) ∧
    (x159.working Page.flash = true ∧ x159.flashOwner = some FlashWork.manager ∧ x159.flashJob = some (FlashJob.read 0 64 4) ∧ x159.flashSize ≠ 0 ∧ 64 + 4 ≤ dramSize ∧ x159.poison = []) ∧
    (x160.working Page.flash = true ∧ x160.flashOwner = some FlashWork.manager ∧ x160.flashJob = some (FlashJob.slotWrite 1 64 0) ∧ x160.poison = [] ∧ x160.flashSize = 0) ∧
    (x161.working Page.flash = true ∧ x161.flashOwner = some FlashWork.manager ∧ x161.flashJob = some (FlashJob.slotWrite 1 64 0) ∧ x161.poison = [] ∧ x161.flashSize ≠ 0 ∧ bootImageOk (x161.readMem 64 (min 1048576 (x161.leMem (64 + 4) 4))) = false) ∧
    ((flI Mode.active).working Page.flash = true ∧ (flI Mode.active).flashOwner = some FlashWork.manager ∧ (flI Mode.active).flashJob = some (FlashJob.slotWrite 1 64 0) ∧ (flI Mode.active).poison = [] ∧ (flI Mode.active).flashSize ≠ 0 ∧ bootImageOk ((flI Mode.active).readMem 64 (min 1048576 ((flI Mode.active).leMem (64 + 4) 4))) = true ∧ 64 + (flI Mode.active).leMem (64 + 4) 4 ≤ dramSize) ∧
    (x162.working Page.flash = true ∧ x162.flashOwner = some FlashWork.manager ∧ x162.flashJob = some (FlashJob.slotWrite 1 64 1) ∧ x162.poison = [] ∧ x162.flashSize ≠ 0) ∧
    (x163.working Page.flash = true ∧ x163.flashOwner = some FlashWork.manager ∧ x163.flashJob = some (FlashJob.slotWrite 1 64 2) ∧ x163.poison = [] ∧ x163.flashSize ≠ 0 ∧ 2 ≤ 2) ∧
    ((ckS Mode.active 0).working Page.flash = true ∧ (ckS Mode.active 0).flashOwner = some FlashWork.ckpt ∧ (ckS Mode.active 0).poison = [] ∧ (ckS Mode.active 0).ckpt.stage < 3) := by
  and_intros <;> first | (rw [flI_image]; exact bimg_image) | decide +kernel | exact accepts_of (by decide +kernel) | (unfold State.unpinned; decide +kernel) | (unfold State.quiet; decide +kernel) | exact fun _ h => nomatch h | exact Or.inr (Or.inr rfl)
theorem wit_ScrubAndFlash_4 :
    ((ckS Mode.safe 0).working Page.flash = true ∧ (ckS Mode.safe 0).flashOwner = some FlashWork.ckpt ∧ (ckS Mode.safe 0).poison = [] ∧ (ckS Mode.safe 0).ckpt.stage < 2 ∧ (ckS Mode.safe 0).role.mode = Mode.safe) ∧
    ((ckS Mode.active 0).working Page.flash = true ∧ (ckS Mode.active 0).flashOwner = some FlashWork.ckpt ∧ (ckS Mode.active 0).poison = [] ∧ (ckS Mode.active 0).ckpt.stage = 0 ∧ (ckS Mode.active 0).role.mode ≠ Mode.safe) ∧
    ((ckS Mode.active 1).working Page.flash = true ∧ (ckS Mode.active 1).flashOwner = some FlashWork.ckpt ∧ (ckS Mode.active 1).poison = [] ∧ (ckS Mode.active 1).ckpt.stage = 1 ∧ (ckS Mode.active 1).role.mode ≠ Mode.safe) ∧
    ((ckS Mode.active 2).working Page.flash = true ∧ (ckS Mode.active 2).flashOwner = some FlashWork.ckpt ∧ (ckS Mode.active 2).poison = [] ∧ (ckS Mode.active 2).ckpt.stage = 2) ∧
    ((ckS Mode.active 3).working Page.flash = true ∧ (ckS Mode.active 3).flashOwner = some FlashWork.ckpt ∧ (ckS Mode.active 3).poison = [] ∧ 3 ≤ (ckS Mode.active 3).ckpt.stage ∧ (ckS Mode.active 3).ckpt.target = some (0, 1, 67648)) ∧
    ((ckS Mode.safe 3).working Page.flash = true ∧ (ckS Mode.safe 3).flashOwner = some FlashWork.ckpt ∧ (ckS Mode.safe 3).poison = [] ∧ 3 ≤ (ckS Mode.safe 3).ckpt.stage ∧ (ckS Mode.safe 3).ckpt.target = some (0, 1, 67648) ∧ (ckS Mode.safe 3).role.mode = Mode.safe) ∧
    ((ckS Mode.active 3).working Page.flash = true ∧ (ckS Mode.active 3).flashOwner = some FlashWork.ckpt ∧ (ckS Mode.active 3).poison = [] ∧ 3 ≤ (ckS Mode.active 3).ckpt.stage ∧ (ckS Mode.active 3).ckpt.target = some (0, 1, 67648) ∧ (ckS Mode.active 3).role.mode ≠ Mode.safe) := by
  and_intros <;> first | decide +kernel | exact accepts_of (by decide +kernel) | (unfold State.unpinned; decide +kernel) | (unfold State.quiet; decide +kernel) | exact fun _ h => nomatch h | exact Or.inr (Or.inr rfl)

/-! ### Front arrival (R429) -/

/-- A stored word of an ADC stream: its CODE and its place at 10 ns a word. -/
def twWord (i : Nat) (code : Int) : AcqWord := ⟨unsigned 16 code, 40 * i, 40 * i, 40 * i⟩
/-- A block of words with the codes of a list. -/
def twBlk (l : List Int) : AcqBlk := ⟨0, 0, 1, false, 0, true, 0, l.zipIdx.map (fun x => twWord x.2 x.1), false, false, false⟩

/-- R429 and the example of R430: B = 1.25, P = 6,004, the crossing 0.287 ns after the word of CODE 2,930, truncated to 0.25 ns. -/
theorem test_arrival_rising : arrival [twBlk [1, 2, 1, 1, 2930, 5460, 6000, 6004]] 4 4 3 = some (4 * 40 + 1) := by decide

/-- R429 on a falling front: 700 / 999 of 10 ns after the word of CODE 700 is 7.007 ns, which truncates to 7.00 ns. -/
theorem test_arrival_falling : arrival [twBlk [1000, 1000, 700, -299, -1000, -1000]] 2 2 3 = some (2 * 40 + 28) := by decide

end Sys2Proof.Tests
end

section
/-! SUPPORT. Publications: the check of a publication entry and the repeat of a GOOSE frame: what a doorbell
stores, the outcome of a check, and the frame that a repeat puts among those due (R110, R111, R113, R118). -/
namespace Sys2Proof.Publications
open Sys2Proof Sys2Proof.Machine

/-! ### The three commands -/

theorem exec_pubDoorbell (src : Src) (w : Word) (s : State) : exec (.pubDoorbell src w) s = execPubDoorbell src w s := rfl
theorem exec_pubDone (s : State) : exec .pubDone s = execPubDone s := rfl
theorem exec_gooseRepeat (i : Nat) (s : State) : exec (.gooseRepeat i) s = execGooseRepeat i s := rfl

/-! ### EGRESS registers -/

/-- A register of EGRESS is no source of a guest's page. -/
theorem not_guestSts_egress {o : Nat} (h : o < 0x1000) : ¬ guestSts (key .egress o) := by
  have hb : Page.base .egress + o < 0x100_0000 := by
    have : Page.base .egress < 0x10_0000 * 10 := by decide
    omega
  exact fun hg => Nat.not_le.mpr hb hg.1

/-- The key of a register of EGRESS tells its offset. -/
theorem key_egress_ne {o a : Nat} (h : o ≠ a) : key .egress o ≠ key .egress a := by
  simpa [key] using h

/-- Writing back what a register reads changes no register whose reset value is 0. -/
theorem keepsRegs_wr_rd {s : State} {p : Page} {o : Nat} (ks : List Nat) (h0 : resetWord (key p o) = 0) :
    keepsRegs s (s.wr p o (s.rd p o)) ks := by
  intro k _ _
  by_cases hk : k = key p o
  · subst hk
    simp only [State.wr, State.rd]
    rw [show Page.base p + o = key p o from rfl, h0, Tbl.get_set_same]
  · exact State.get_wr_other s p o _ 0 hk

/-! ### PUB_DOORBELL (R111, R127) -/

/-- The rule of R127 for PUB_DOORBELL is the one the command writes under. -/
theorem ruleFor_pubDoorbell : ruleFor .egress EGRESS.PUB_DOORBELL = pubDoorbellRule := rfl

/-- INDEX is write-only: a written word leaves the register as it was. -/
theorem storeReg_pubDoorbell (s : State) (w : Word) :
    s.storeReg .egress EGRESS.PUB_DOORBELL w =
      s.wr .egress EGRESS.PUB_DOORBELL (s.rd .egress EGRESS.PUB_DOORBELL) := rfl

/-- An accepted doorbell starts the check of its index, with BUSY in PUB_RESULT. -/
theorem execPubDoorbell_of_accepts {s : State} {src : Src} {w : Word} (h : s.accepts src .egress EGRESS.PUB_DOORBELL w) :
    execPubDoorbell src w s = done s
      (({ s.storeReg .egress EGRESS.PUB_DOORBELL w with pubJob := some (w.toNat % 4096) } : State).wrn .egress EGRESS.PUB_RESULT
        (2 ^ 31 + w.toNat % 4096 * 65536)) := by
  obtain ⟨hr, hv⟩ := h
  rw [ruleFor_pubDoorbell] at hv
  have hf : fld w.toNat 11 0 = w.toNat % 4096 := by simp [fld]
  rw [execPubDoorbell, writeReg_accept s _ _ _ _ _ hr hv, if_neg (by decide), ← hf]
  rfl

theorem ends_pubDoorbell {s : State} {src : Src} {w : Word} (h : s.accepts src .egress EGRESS.PUB_DOORBELL w) :
    Ends (.pubDoorbell src w) s { s with pubJob := some (w.toNat % 4096) } [key .egress EGRESS.PUB_RESULT]
      (fun t => t.rd .egress EGRESS.PUB_RESULT = BitVec.ofNat 32 (2 ^ 31 + w.toNat % 4096 * 65536)) := by
  refine ends_done ((exec_pubDoorbell src w s).trans (execPubDoorbell_of_accepts h)) ?_ ?_ ?_
  · rw [storeReg_pubDoorbell]
    rfl
  · refine keepsRegs_wr _ _ _ ?_ (by simp)
    rw [storeReg_pubDoorbell]
    exact keepsRegs_of_regs (keepsRegs_wr_rd _ rfl) rfl
  · rw [settled_rd _ _ _ _ (not_guestSts_egress (by decide))]
    exact State.rd_wr_same _ _ _ _

/-! ### The outcome of a check (R111) -/

/-- The check of index `i` is over and reports code `c`. -/
def reported (t : State) (i c : Nat) : State :=
  (({ t with pubJob := none } : State).wrn .egress EGRESS.PUB_RESULT (i * 65536 + c)).raise .egress 16

/-- PUB_RESULT shows index `i` with code `c`, and the source PUB_DONE is set. -/
def Shows (i c : Nat) (t : State) : Prop :=
  t.rd .egress EGRESS.PUB_RESULT = BitVec.ofNat 32 (i * 65536 + c) ∧ bit (t.rd .egress HDR.IRQ_STS) 16 = true

theorem shows_settled_reported (s t : State) (i c : Nat) : Shows i c (settled s (reported t i c)) := by
  constructor
  · rw [settled_rd _ _ _ _ (not_guestSts_egress (by decide)), reported, State.raise, State.wrf,
      State.rd_wr_other _ _ (key_egress_ne (by decide))]
    exact State.rd_wr_same _ _ _ _
  · rw [settled_rd _ _ _ _ (not_guestSts_egress (by decide))]
    exact State.bit_raise _ _ (by decide)

theorem settled_reported_pubJob (s t : State) (i c : Nat) : (settled s (reported t i c)).pubJob = none :=
  congrArg State.pubJob (onlyOut_settled s (reported t i c)).1.1

/-- A check that ends in `reported t i c`, where `t` has the registers of before, ends in `t` without its job. -/
theorem ends_reported {s t : State} {i c : Nat} (he : exec .pubDone s = done s (reported t i c)) (hr : t.regs = s.regs) :
    Ends .pubDone s { t with pubJob := none } [key .egress EGRESS.PUB_RESULT, key .egress HDR.IRQ_STS] (Shows i c) := by
  refine ends_done he rfl ?_ (shows_settled_reported s t i c)
  refine keepsRegs_wr _ _ _ (keepsRegs_wr _ _ _ ?_ (by simp)) (by simp)
  exact keepsRegs_of_regs (keepsRegs_refl s _) hr

/-- Whatever a check does beside its report, the report stands and the job is over. -/
theorem next_reported {s t : State} {i c : Nat} (he : exec .pubDone s = done s (reported t i c)) :
    ∃ t', exec .pubDone s = .next t' ∧ Shows i c t' ∧ t'.pubJob = none :=
  ⟨_, he, shows_settled_reported s t i c, settled_reported_pubJob s t i c⟩

/-! ### Where a check ends (R111, R301) -/

/-- The 64 bytes of entry `i` (R110). -/
def entryBytes (s : State) (i : Nat) : List Byte := s.readMem (s.rd2 .egress EGRESS.PUB_BASE_LO + 64 * i) 64

theorem exec_pubDone_idle {s : State} (h : s.pubJob = none) : exec .pubDone s = .next s := by
  rw [exec_pubDone, execPubDone, h]

section
variable {s : State} {i : Nat} (hj : s.pubJob = some i)
include hj

theorem exec_pubDone_safe (hm : s.role.mode = .safe) : exec .pubDone s = done s (reported s i E_MODE) := by
  rw [exec_pubDone, execPubDone, hj]
  simp only [hm, if_true]
  rfl

variable (hm : s.role.mode ≠ .safe) (ha : s.rd2 .egress EGRESS.PUB_BASE_LO + 64 * i + 64 ≤ dramSize)
include hm ha

theorem exec_pubDone_reserved (hr : pubReserved (entryBytes s i) = true) :
    exec .pubDone s = done s (reported s i E_RESERVED) := by
  rw [exec_pubDone, execPubDone, hj]
  rw [entryBytes] at hr
  simp only [hm, guardDram, ha, hr, if_true, if_false]
  rfl

variable (hr : pubReserved (entryBytes s i) = false)
include hr

theorem exec_pubDone_remove (hv : (entryBytes s i).headD 0 &&& 1 = 0) :
    exec .pubDone s = done s (reported (s.acceptEntry i none) i 0) := by
  rw [exec_pubDone, execPubDone, hj]
  rw [entryBytes] at hr hv
  simp only [hm, guardDram, ha, hr, hv, Bool.false_eq_true, if_true, if_false]
  rfl

variable (hv : (entryBytes s i).headD 0 &&& 1 ≠ 0)
  (hmap : (pubOfBytes (entryBytes s i)).mapAddr + 8 * (pubOfBytes (entryBytes s i)).mapCount ≤ dramSize)
include hv hmap

theorem exec_pubDone_refuse {c : Nat} (hc : s.pubCheck i (entryBytes s i) = some c) :
    exec .pubDone s = done s (reported s i c) := by
  rw [exec_pubDone, execPubDone, hj]
  rw [entryBytes] at hr hv hmap hc
  simp only [hm, guardDram, ha, hr, hv, hmap, hc, Bool.false_eq_true, if_true, if_false]
  rfl

theorem exec_pubDone_accept (hc : s.pubCheck i (entryBytes s i) = none)
    (htmpl : (pubOfBytes (entryBytes s i)).tmplAddr + (pubOfBytes (entryBytes s i)).tmplLen ≤ dramSize) :
    exec .pubDone s = done s (reported (s.acceptEntry i (some (pubOfBytes (entryBytes s i)))) i 0) := by
  rw [exec_pubDone, execPubDone, hj]
  rw [entryBytes] at hr hv hmap hc htmpl
  simp only [hm, guardDram, ha, hr, hv, hmap, htmpl, hc, Bool.false_eq_true, if_true, if_false]
  rfl

end

/-! ### Accepted entries (R111, R124, R274) -/

/-- Where an accepted entry, or a removal, goes is decided by its guest: at once with none loaded, through the active's CONTROL
frames on a mirrored pair, and to the guest's commit point otherwise. -/
theorem acceptEntry_eq (s : State) (i : Nat) (e : Option PubEntry) :
    s.acceptEntry i e = match s.guest (s.acceptGuest (i, e)) with
      | none => ({ s with pubAccept := s.pubAccept.filter (fun a => a.1 != i) } : State).pubEffect i e
      | some x =>
        if s.mirrored then
          let g := s.acceptGuest (i, e)
          let idx := cycleAt x.img.n (s.startAfter x.img.n 200000)
          (s.ctlSend g idx (.pub i e)).wait g idx (.pub i e)
        else { s with pubAccept := s.pubAccept.filter (fun a => a.1 != i) ++ [(i, e)] } := by
  cases e <;> rfl

/-- The removal of an index that no loaded guest has frees it at once. -/
theorem acceptEntry_none_of_no_guest {s : State} {i : Nat} (h : s.guest (s.acceptGuest (i, none)) = none) :
    s.acceptEntry i none =
      { s with pubs := Tbl.del i s.pubs, pubAccept := s.pubAccept.filter (fun a => a.1 != i) } := by
  rw [acceptEntry_eq, h]
  rfl

/-- Where no pair is mirrored an accepted entry, or a removal, waits for the commit point of its guest, in place of an
earlier one of its index. -/
theorem acceptEntry_waits {s : State} {i : Nat} {e : Option PubEntry} (h : (s.guest (s.acceptGuest (i, e))).isSome = true)
    (hm : s.mirrored = false) :
    s.acceptEntry i e = { s with pubAccept := s.pubAccept.filter (fun a => a.1 != i) ++ [(i, e)] } := by
  obtain ⟨x, hx⟩ := Option.isSome_iff_exists.mp h
  rw [acceptEntry_eq, hx]
  simp only [hm, Bool.false_eq_true, if_false]

/-- An entry passes its checks only if its guest is loaded: E_ORPHAN is among them. -/
theorem guest_isSome_of_pubCheck {s : State} {i : Nat} {b : List Byte} (h : s.pubCheck i b = none) :
    (s.guest (pubOfBytes b).guest).isSome = true := by
  cases hg : s.guest (pubOfBytes b).guest with
  | some x => rfl
  | none =>
    simp only [State.pubCheck, hg, Option.isNone_none, if_true] at h
    repeat' split at h
    all_goals exact nomatch h

/-! ### The frame that a repeat sends (R113, R118) -/

/-- The transmit state after a repeat at grid tick `grid`: the first publication after a hold is a change (R286). -/
def repeatOf (s : State) (u : Pub) (grid sync : Nat) : Pub :=
  let iv := if u.force then u.entry.t1 else min (2 * u.interval) u.entry.t0
  { u with
    stNum := if u.force then wrapNext u.stNum else u.stNum, sqNum := if u.force then 0 else wrapNext u.sqNum
    tField := if u.force then s.timeStamp grid sync else u.tField, force := false, interval := iv
    repeatAt := some (grid + 288 * iv), last := some (u.last.getD []), count := u.count + 1 }

/-- The octets of a GOOSE frame with transmit state `v`: the template with the mapped bytes of its latest commit, t, stNum,
sqNum and timeAllowedToLive, which is twice the interval. -/
def gooseBody (s : State) (v : Pub) : List Byte :=
  let e := v.entry
  overlay (overlay (overlay (overlay (layMap (s.template e) (v.last.getD [])) e.ofsT v.tField) e.ofsA (beBytes 4 v.stNum))
    e.ofsB (beBytes 4 v.sqNum)) e.ofsTal (beBytes 4 (2 * v.interval))

/-- The frame of entry `e` at commit point `cp`, with the next number of its address. -/
def dueFrame (s : State) (i : Nat) (e : PubEntry) (body : List Byte) (cp : Nat) : DueFrame :=
  ⟨i, e.guest, e.urgent, e.srcIdx, Tbl.get 0 e.srcIdx s.addrCount % 65536, if e.tagged then some (e.vid, e.pcp) else none, e.dst,
    body, if e.sign then some e.keySlot else none, false, e.ports, cp + (s.rd .egress EGRESS.LAUNCH_OFS).toNat * nsU⟩

/-- With no poisoned line in DRAM a frame changes the counts and the frames due, nothing else. -/
theorem due1_of_no_poison {s : State} (h : s.poison = []) (i : Nat) (u : Pub) (body : List Byte) (cp : Nat) (send : Bool) :
    s.due1 i u body cp send =
      { s with
        addrCount := Tbl.set 0 u.entry.srcIdx (Tbl.get 0 u.entry.srcIdx s.addrCount + 1) s.addrCount
        due := if send then s.due ++ [dueFrame s i u.entry body cp] else s.due
        pubs := Tbl.put i { u with count := u.count + 1 } s.pubs } := by
  have hp : ∀ a n, s.poisoned a n = false := fun a n => by simp [State.poisoned, h]
  simp only [State.due1, hp, Bool.or_self, Bool.false_eq_true, if_false]
  rfl

/-- The frame of the latest commit again: a change frame after a hold, a repeat otherwise. -/
theorem goose_repeat {s : State} (h : s.poison = []) (i : Nat) (u : Pub) (grid cp sync : Nat) (send : Bool) :
    s.goose i u (u.last.getD []) u.force grid cp sync send =
      { s with
        addrCount := Tbl.set 0 u.entry.srcIdx (Tbl.get 0 u.entry.srcIdx s.addrCount + 1) s.addrCount
        due := if send then s.due ++ [dueFrame s i u.entry (gooseBody s (repeatOf s u grid sync)) cp] else s.due
        pubs := Tbl.put i (repeatOf s u grid sync) s.pubs } := by
  cases hf : u.force with
  | true =>
    simp only [State.goose, if_true, due1_of_no_poison h, gooseBody, repeatOf, hf, Option.getD_some]
  | false =>
    simp only [State.goose, Bool.false_eq_true, if_false, due1_of_no_poison h, gooseBody, repeatOf, hf, Option.getD_some]

/-! ### GOOSE_REPEAT (R113) -/

theorem exec_gooseRepeat_free {s : State} {i : Nat} (h : Tbl.look i s.pubs = none) : exec (.gooseRepeat i) s = .next s := by
  rw [exec_gooseRepeat, execGooseRepeat, h]

section
variable {s : State} {i : Nat} {u : Pub} {x : Guest} (hu : Tbl.look i s.pubs = some u) (hx : s.guest u.entry.guest = some x)
include hu hx

theorem exec_gooseRepeat_none (hr : u.repeatAt = none) : exec (.gooseRepeat i) s = .next s := by
  simp only [exec_gooseRepeat, execGooseRepeat, hu, hx, hr]

variable {grid : Nat} (hr : u.repeatAt = some grid)
include hr

/-- Before its commit point, for a publication that sends no GOOSE frames now, and where the unit publishes nothing, nothing
happens. -/
theorem exec_gooseRepeat_still
    (h : u.stopped = true ∨ u.entry.typ ≠ 0 ∨ cDiff s.time.clock (s.instantOf x.img.n grid) < 0 ∨ s.sendState x = none) :
    exec (.gooseRepeat i) s = .next s := by
  simp only [exec_gooseRepeat, execGooseRepeat, hu, hx, hr]
  rcases h with hst | ht | hc | hs
  · exact if_pos (.inl hst)
  · exact if_pos (.inr (.inl ht))
  · exact if_pos (.inr (.inr hc))
  · rw [hs]
    exact ite_self _

theorem exec_gooseRepeat_send {send : Bool} (hst : u.stopped = false) (ht : u.entry.typ = 0)
    (hc : 0 ≤ cDiff s.time.clock (s.instantOf x.img.n grid)) (hs : s.sendState x = some send) :
    exec (.gooseRepeat i) s =
      done s (s.goose i u (u.last.getD []) u.force grid (s.instantOf x.img.n grid) (s.pubSync x) send) := by
  have hno : ¬ (u.stopped = true ∨ u.entry.typ ≠ 0 ∨ cDiff s.time.clock (s.instantOf x.img.n grid) < 0) := by
    simp [hst, ht, hc]
  simp only [exec_gooseRepeat, execGooseRepeat, hu, hx, hr, if_neg hno, hs]

end

/-- Settles O37: the doorbell stores its index, a check ends in one of the five ways above and reports, and a repeat is `goose_repeat`
or leaves the state as it was. -/
theorem publications : Obligations.Publications := by
  unfold Obligations.Publications
  intro s
  refine ⟨fun src w h => ends_pubDoorbell h, exec_pubDone_idle, fun i hj => ?_, fun i h => exec_gooseRepeat_free h,
    fun i u x hu hx => ⟨exec_gooseRepeat_none hu hx, fun grid hr => ⟨exec_gooseRepeat_still hu hx hr, ?_⟩⟩⟩
  · refine ⟨fun hm => ends_reported (exec_pubDone_safe hj hm) rfl, fun hm ha => ⟨fun hr => ?reserved, fun hr hv => ?removal,
      fun hr hv hmap htmpl => ?entry⟩⟩
    case reserved => exact ends_reported (exec_pubDone_reserved hj hm ha hr) rfl
    case removal =>
      have he := exec_pubDone_remove hj hm ha hr hv
      refine ⟨fun hg => ?_, fun hg hmir => ?_, fun _ _ => next_reported he⟩
      · rw [acceptEntry_none_of_no_guest hg] at he
        exact ends_reported he rfl
      · rw [acceptEntry_waits hg hmir] at he
        exact ends_reported he rfl
    case entry =>
      refine ⟨fun c hc => ends_reported (exec_pubDone_refuse hj hm ha hr hv hmap hc) rfl, fun hc hmir => ?_, fun hc _ => ?_⟩
      · have he := exec_pubDone_accept hj hm ha hr hv hmap hc htmpl
        rw [acceptEntry_waits (guest_isSome_of_pubCheck hc) hmir] at he
        exact ends_reported he rfl
      · exact next_reported (exec_pubDone_accept hj hm ha hr hv hmap hc htmpl)
  · intro send hst ht hc hs hp
    have he := exec_gooseRepeat_send hu hx hr hst ht hc hs
    rw [goose_repeat hp] at he
    exact ends_done he rfl (keepsRegs_refl s _) trivial

end Sys2Proof.Publications
end
